-- ==== Sys2Proof/Word.lean ====
section
/-! DEFINITION. The byte of the composition link, of galley text and of the printer line. -/

namespace Sys2Proof

/-- A byte: of a frame (R207), of galley text (R57), of a proof line (R185). -/
abbrev Byte := BitVec 8

end Sys2Proof
end

