-- ==== Sys2Proof/Syntax.lean ====
section
/-! DEFINITION. The 86 commands of spec/opcode_table.json and the operands they carry (R207). A request carries its tag and the
fields its owning rule names, as numbers of the size R207 gives them; an event carries the reading it reports. -/

namespace Sys2Proof

/-- A kern pair (R5). -/
structure KernPair where
  first  : Byte
  second : Byte
  adjust : Int
  deriving DecidableEq, Repr

/-- The fields DEFINE FONT carries (R1, R12); `face` as its byte, `map` absent or its pairs of source and printed code. -/
structure FontDef where
  number : Nat
  master : Nat
  widths : List Nat
  hyphen : Option Byte
  kerns  : List KernPair
  gain   : Int
  offset : Int
  face   : Nat
  map    : Option (List (Byte × Byte))
  deriving DecidableEq, Repr

/-- The proof map selector of REVISE FONT (R14). -/
inductive MapChange
  | keep
  | remove
  | replace (pairs : List (Byte × Byte))
  deriving DecidableEq, Repr

/-- The selection of changes REVISE FONT carries (R14, R15). -/
structure FontRevision where
  density : Option (Int × Int)
  face    : Option Nat
  map     : MapChange
  widths  : Option (List (Byte × Nat))
  kerns   : Option (List KernPair)
  hyphen  : Option Byte
  deriving DecidableEq, Repr

/-- The parameters OPEN JOB carries, in the order of R207; the enumerations as their bytes. -/
structure OpenParams where
  font      : Nat
  size      : Nat
  leading   : Nat
  measure   : Nat
  left      : Nat
  right     : Nat
  paragraph : Nat
  spaceMin  : Nat
  spaceOpt  : Nat
  spaceMax  : Nat
  letterMax : Nat
  minPrefix : Nat
  minSuffix : Nat
  ladder    : Nat
  grade     : Nat
  zone      : Nat
  quad      : Nat
  hyphenate : Nat
  language  : Nat
  policy    : Nat
  deriving DecidableEq, Repr

/-- The house style (R54), as the Job Table holds it and SET HOUSE STYLE carries it. -/
structure HouseStyle where
  spaceFloor    : Nat
  spaceCeiling  : Nat
  letterCeiling : Nat
  prefixFloor   : Nat
  suffixFloor   : Nat
  ladderCeiling : Nat
  sizeLow       : Nat
  sizeHigh      : Nat
  measureLow    : Nat
  measureHigh   : Nat
  deriving DecidableEq, Repr

/-- An affix rule (R89): kind PREFIX or SUFFIX, the string of letter indices, the grade. -/
structure AffixRule where
  suffix  : Bool
  grade   : Nat
  letters : List Nat
  deriving DecidableEq, Repr

/-- The table DEFINE LANGUAGE carries (R92). -/
structure LanguageDef where
  letterMap : List Nat
  vowels    : List Nat
  rules     : List AffixRule
  deriving DecidableEq, Repr

/-- A break of a dictionary entry (R107). -/
structure WordBreak where
  position : Nat
  grade    : Nat
  deriving DecidableEq, Repr

/-- The four bytes of a scope owner (R207): the scope, a job slot and a job id, the last two taken only for JOB. -/
structure ScopeArg where
  scope : Nat
  slot  : Nat
  jobId : Nat
  deriving DecidableEq, Repr

/-- The two ways of naming one entry (R113). -/
inductive WordName
  | bySlot (slot : Nat)
  | byKey (language : Nat) (word : List Byte) (owner : ScopeArg)
  deriving DecidableEq, Repr

/-- The three forms of QUERY WORD (R120). -/
inductive WordQuery
  | bySlot (slot : Nat)
  | byKey (language : Nat) (word : List Byte) (owner : ScopeArg)
  | asSeenBy (jobSlot : Nat) (language : Nat) (word : List Byte)
  deriving DecidableEq, Repr

/-- The two forms of QUERY QUEUE (R142). -/
inductive QueueQuery
  | summary (start : Nat)
  | entry (serial : Nat) (glyphStart : Nat)
  deriving DecidableEq, Repr

/-- What power-on reset senses (R36, R176, R179, R193). -/
structure Readings where
  hatchOpen   : Bool
  coverOpen   : Bool
  filmPresent : Bool
  paperOut    : Bool
  deriving DecidableEq, Repr

/-- The commands: one constructor for each row of spec/opcode_table.json, in the table's order. -/
inductive Instr
  | powerOnReset (sensed : Readings)
  | requestFrameFormat (code tag : Byte) (payload : List Byte)
  | lengthFieldError (length : Nat)
  | discardQuietTimeout
  | framingLossTimeout
  | replySent
  | identify (tag : Byte)
  | status (tag : Byte)
  | readNotices (tag : Byte)
  | setNoticeMask (tag : Byte) (mask : BitVec 24)
  | setNoticeTiming (tag : Byte) (throttle delay limit : Nat)
  | resetLink (tag : Byte)
  | resetComposition (tag : Byte)
  | attnThrottleExpiry
  | lineExposedDelayExpiry
  | lineExposedAbsoluteExpiry
  | defineFont (tag : Byte) (font : FontDef)
  | reviseFont (tag : Byte) (number : Nat) (revision : FontRevision)
  | retireFont (tag : Byte) (number : Nat)
  | queryFont (tag : Byte) (number : Nat)
  | prepareExchange (tag : Byte) (station : Nat)
  | cancelExchange (tag : Byte) (station : Nat)
  | queryStations (tag : Byte)
  | setStationProtection (tag : Byte) (stations : List Nat)
  | rotationArrival
  | indexFound
  | hatchOpened
  | hatchClosed
  | stripReadComplete (code : Nat)
  | openJob (tag : Byte) (slot jobId : Nat) (params : OpenParams)
  | sendText (tag : Byte) (slot : Nat) (text : List Byte)
  | closeJob (tag : Byte) (slot jobId : Nat)
  | abortJob (tag : Byte) (slot jobId : Nat)
  | queryJob (tag : Byte) (slot : Nat)
  | setHouseStyle (tag : Byte) (style : HouseStyle)
  | lockHouse (tag : Byte)
  | setGalleyGap (tag : Byte) (gap : Nat)
  | takeByte
  | placeWord
  | setLine
  | defineLanguage (tag : Byte) (language : Nat) (table : LanguageDef)
  | queryLanguage (tag : Byte) (language : Nat)
  | tryWord (tag : Byte) (slot : Nat) (text : List Byte)
  | addWord (tag : Byte) (language : Nat) (word : List Byte) (breaks : List WordBreak) (owner : ScopeArg)
  | amendWord (tag : Byte) (name : WordName) (breaks : List WordBreak)
  | retireWord (tag : Byte) (name : WordName)
  | retireWords (tag : Byte) (cls language jobSlot jobId : Nat)
  | pruneWords (tag : Byte) (language threshold : Nat)
  | queryWord (tag : Byte) (query : WordQuery)
  | listWords (tag : Byte) (cursor language cls jobSlot jobId : Nat)
  | setQueueMarks (tag : Byte) (entryHigh entryLow glyphHigh glyphLow : Nat)
  | queryQueue (tag : Byte) (query : QueueQuery)
  | dispatch
  | carriageArrival
  | lensArrival
  | flashComplete (sample : Nat)
  | holdExposure (tag : Byte)
  | releaseExposure (tag : Byte)
  | lampOn (tag : Byte)
  | lampOff (tag : Byte)
  | setLamp (tag : Byte) (weak fail timeout : Nat)
  | queryExposure (tag : Byte)
  | photocellSample (sample : Nat)
  | ignitionTimerExpiry
  | economyTimerExpiry
  | recoveryTimerExpiry
  | validityTimerExpiry
  | driveStop (reading : Nat)
  | filmPresentChange (present : Bool)
  | cutterHome
  | cutterTimeout
  | coverOpened
  | coverClosed
  | loadFilm (tag : Byte) (length : Nat)
  | feedAndCut (tag : Byte)
  | setLowFilm (tag : Byte) (threshold : Nat)
  | queryFilm (tag : Byte)
  | setProof (tag : Byte) (enable rate : Nat)
  | queryProof (tag : Byte)
  | proofByteSent
  | xoffReceived
  | xonReceived
  | printerByteDiscarded (byte : Byte)
  | stallTimerExpiry
  | paperOut
  | paperPresent
  deriving DecidableEq, Repr

end Sys2Proof
end

