-- ==== Sys2Proof/Config.lean ====
section
/-! DEFINITION. The fixed capacities of the controller and the free values: what the spec leaves open. -/

namespace Sys2Proof.Config

/-- Font records (R1, R198). -/
def maxFonts : Nat := 32
/-- Dictionary slots (R106, R198). -/
def dictSlots : Nat := 4096
/-- JOB entries of one owner (R108, R198). -/
def jobWordQuota : Nat := 256
/-- Line Queue entries (R126, R198). -/
def queueSlots : Nat := 64
/-- Glyph slots of the pool (R126, R198). -/
def glyphSlots : Nat := 6144
/-- Glyphs of a line, and characters of a pending word (R69, R198). -/
def lineGlyphs : Nat := 240
/-- Runs of a line (R69, R198). -/
def lineRuns : Nat := 16
/-- Bytes of a job's text buffer (R42, R198). -/
def textBytes : Nat := 2048
/-- Replies that may wait (R195). -/
def replySlots : Nat := 4
/-- The cut reserve in eu (R164). -/
def cutReserve : Nat := 900
/-- The reverse allowance in eu (R164). -/
def reverseAllowance : Nat := 18000
/-- The largest film length and position in eu (R164). -/
def maxFilm : Nat := 2160000
/-- The hysteresis of the weak flag (R158). -/
def weakHysteresis : Nat := 64
/-- Where the counters of R40, R106, R143, R164 and R180 stop. -/
def counterTop : Nat := 65535

/-- FREE VALUE (log entry 1): how many seconds the running stall timer has run, which R192 reports and no command carries; a value
above the timer's 30 s (R189) is read as 30. -/
opaque stallElapsed : Nat → Nat

/-- FREE VALUE (log entry 2): whether a debounce of the cover switch is under way, which R178 reports; the events of the
switch reach the model after their debounce. -/
opaque coverDebounce : Nat → Bool

end Sys2Proof.Config
end

