-- ==== Sys2Proof/Machine/State.lean ====
section
/-! DEFINITION. The state of the controller, block by block, as plain data, and the state after power-on reset. -/

namespace Sys2Proof.Machine

open Sys2Proof

/-- No command of this block stops the machine: the spec answers or absorbs each (log entry 6), so there is no fault. -/
inductive Fault
  deriving DecidableEq, Repr

/-- Reasons a command has no meaning. -/
inductive Refusal
  /-- Raised by an arm of exec whose command has no meaning yet; safe. No arm raises it. -/
  | notModelled (mnemonic : String)
  deriving DecidableEq, Repr

/-! ### Link Port -/

/-- The twelve statuses, in the order of their codes (R207). -/
inductive Status
  | done | started | busy | full | absent | inUse | shielded | locked | duplicate | range | state | format
  deriving DecidableEq, Repr

/-- The reset-cause record (R206). -/
inductive ResetCause
  | power | composition | linkRequest | linkFraming
  deriving DecidableEq, Repr

/-- A reply (R197): the payload as its bytes (R207). -/
structure Reply where
  code    : Byte
  tag     : Byte
  status  : Status
  clamped : Bool
  part    : Bool
  payload : List Byte
  deriving DecidableEq, Repr

/-- Who drives the data lines (R194). -/
inductive Direction
  | hostToController | controllerToHost
  deriving DecidableEq, Repr

/-- The Link Port (R194 to R206). A timer is `none` when stopped, else the interval it was started with. -/
structure Link where
  summary    : BitVec 24
  mask       : BitVec 24
  throttleMs : Nat
  delayMs    : Nat
  limitMs    : Nat
  throttle   : Option Nat
  delayTimer : Option Nat
  absTimer   : Option Nat
  cause      : ResetCause
  replies    : List Reply
  direction  : Direction
  frameBegun : Bool
  discarding : Bool
  withheld   : List Instr
  deriving DecidableEq, Repr

/-! ### Font Catalogue -/

/-- The proof face of a font (R7). -/
inductive ProofFace
  | plain | bold | underline | boldUnderline
  deriving DecidableEq, Repr

/-- A font record (R1), its reference count in three parts (R8). -/
structure FontRecord where
  number      : Nat
  master      : Nat
  widths      : List Nat
  hyphen      : Byte
  kerns       : List KernPair
  gain        : Int
  offset      : Int
  face        : ProofFace
  map         : Option (List (Byte × Byte))
  stationPart : Nat
  entryPart   : Nat
  linePart    : Nat
  deriving DecidableEq, Repr

/-! ### Turret Controller -/

/-- The purpose of a rotation (R19). -/
inductive Purpose
  | exposure | exchange | verification
  deriving DecidableEq, Repr

/-- The turret motion state (R19). -/
inductive Motion
  | atRest
  | rotating (purpose : Purpose) (target : Nat)
  deriving DecidableEq, Repr

/-- Where the power-on verification pass stands (R36): `reading k` at step k + 1, `stepping k` on the way to the position of
step k + 1 (k = 8: the last step home). -/
inductive Pass
  | none
  | waitHatch
  | seeking
  | reading (k : Nat)
  | stepping (k : Nat)
  deriving DecidableEq, Repr

/-- The states of a station (R21). -/
inductive StationState
  | empty | unknown | mounted | draining | opened | verifying
  deriving DecidableEq, Repr

/-- A station record (R21); its protected field is read from the protection set. -/
structure Station where
  state   : StationState
  code    : Nat
  font    : Option Nat
  prior   : Option StationState
  pins    : Nat
  claims  : Nat
  changed : Bool
  deriving DecidableEq, Repr

/-- A strip read under way (R22): the first, or the one retry. -/
inductive StripRead
  | none | first | retry
  deriving DecidableEq, Repr

/-- The Turret Controller (R19 to R39). `ascending`: the direction of the rotation under way, or of the last one (R20).
`lineEndDue`: the line has ended while an EXPOSURE rotation runs (R27). -/
structure Turret where
  position      : Nat
  motion        : Motion
  ascending     : Bool
  pass          : Pass
  stations      : List Station
  latchEngaged  : Bool
  hatchOpen     : Bool
  hatchMark     : Bool
  exchange      : Option Nat
  cancelPending : Bool
  read          : StripRead
  protection    : List Nat
  lineOpen      : Bool
  lineEndDue    : Bool
  deriving DecidableEq, Repr

/-! ### Jobs and the line in progress -/

/-- Job states (R40). -/
inductive JobState
  | free | active | closing | aborting
  deriving DecidableEq, Repr

/-- Reasons of STALLED (R41). -/
inductive StallReason
  | fontUnavailable | fontChanging | queueFull
  deriving DecidableEq, Repr

/-- Composition status (R41). -/
inductive CompStatus
  | ready | waitingText | stalled (reason : StallReason)
  deriving DecidableEq, Repr

/-- Quad modes (R207). -/
inductive QuadMode
  | justify | left | right | center
  deriving DecidableEq, Repr

/-- Proof policies (R207). -/
inductive ProofPolicy
  | required | bestEffort | none
  deriving DecidableEq, Repr

/-- A job's parameters (R40, R46). -/
structure Params where
  font      : Nat
  size      : Nat
  leading   : Nat
  measure   : Nat
  left      : Nat
  right     : Nat
  paragraph : Nat
  spaceMin  : Nat
  spaceOpt  : Nat
  spaceMax  : Nat
  letterMax : Nat
  minPrefix : Nat
  minSuffix : Nat
  ladder    : Nat
  grade     : Nat
  zone      : Nat
  quad      : QuadMode
  hyphenate : Bool
  language  : Nat
  policy    : ProofPolicy
  deriving DecidableEq, Repr

/-- A character of a word with the font and size in force when it was taken, or a discretionary mark (R69). -/
inductive WordItem
  | char (code : Byte) (font size : Nat)
  | mark
  deriving DecidableEq, Repr

/-- A word waiting to be placed. `cont`: it continues the word before it; `hasCont`: a continuation follows it (R70). -/
structure Word where
  items   : List WordItem
  cont    : Bool
  hasCont : Bool
  deriving DecidableEq, Repr

/-- A glyph placed in a line (R69): `gap`, a word gap stands before it. Runs are the stretches of one font and size (R71). -/
structure Glyph where
  code    : Byte
  font    : Nat
  size    : Nat
  station : Nat
  gap     : Bool
  deriving DecidableEq, Repr

/-- The parameters fixed when a line is opened (R75). -/
structure LineParams where
  measure    : Nat
  effLeft    : Nat
  right      : Nat
  quad       : QuadMode
  spaceMin   : Nat
  spaceOpt   : Nat
  spaceMax   : Nat
  letterMax  : Nat
  hyphenate  : Bool
  language   : Nat
  leading    : Nat
  paragraph  : Bool
  deriving DecidableEq, Repr

/-- The word being placed (R71): its items less the dropped characters, how many of them are dealt with, and how many glyphs the
line held before it. -/
structure Placing where
  word  : Word
  upto  : Nat
  start : Nat
  deriving DecidableEq, Repr

/-- The code action that follows an ending (R79): nothing, the new measure, indents or mode, or the entry to make. -/
inductive CodeAction
  | nothing
  | measure (value : Nat)
  | indents (left right : Nat)
  | quad (mode : QuadMode)
  | move (distance : Int)
  | cut
  deriving DecidableEq, Repr

/-- An ending due (R79): of kind paragraph end or line end, with the code action to follow; `lineSet`: its last line has been set
(step 2). -/
structure Ending where
  paragraph : Bool
  action    : CodeAction
  lineSet   : Bool
  deriving DecidableEq, Repr

/-- The flags of a LINE entry, in the order of R128. -/
inductive LineFlag
  | last | hyphD | hyphX | hyphA | loose | letterspaced | short | forced | overset | missing | spoiled
  deriving DecidableEq, Repr

/-- A run of a LINE entry (R85). -/
structure Run where
  station : Nat
  font    : Nat
  size    : Nat
  count   : Nat
  deriving DecidableEq, Repr

/-- A LINE entry's contents (R128); the job line number is given at the append. -/
structure LineBody where
  lineNumber : Nat
  depth      : Nat
  measure    : Nat
  effLeft    : Nat
  mode       : QuadMode
  runs       : List Run
  glyphs     : List (Byte × Nat)
  flags      : List LineFlag
  deriving DecidableEq, Repr

/-- What an entry is (R127 to R129). -/
inductive Body
  | line (l : LineBody)
  | move (distance : Int) (clamped : Bool)
  | cut
  | mark
  deriving DecidableEq, Repr

/-- A job's line in progress (R69). `gapDue`: a word space stands before the next glyph placed. -/
structure LineInProgress where
  glyphs      : List Glyph
  params      : Option LineParams
  pending     : List WordItem
  pendingCont : Bool
  ended       : Option Word
  placing     : Option Placing
  carry       : Option Word
  gapDue      : Bool
  missing     : Bool
  ending      : Option Ending
  held        : Option Body
  deriving DecidableEq, Repr

/-- A job context (R40). `stallFont`: the font number a font stall asks for again (R86). -/
structure Job where
  id             : Nat
  state          : JobState
  status         : CompStatus
  stallFont      : Nat
  finished       : Bool
  markPending    : Bool
  params         : Params
  paragraphMark  : Bool
  text           : List Byte
  line           : LineInProgress
  lineNumber     : Nat
  consecutive    : Nat
  linesSet       : Nat
  hyphenated     : Nat
  looseLines     : Nat
  missingChars   : Nat
  ignoredBytes   : Nat
  clampedCodes   : Nat
  deriving DecidableEq, Repr

/-- The Setting Engine (R65): the slot served while SETTING. -/
structure Engine where
  serving : Option Nat
  pointer : Nat
  deriving DecidableEq, Repr

/-! ### Hyphenation Unit and Exception Dictionary -/

/-- A defined language table (R89). -/
structure LanguageTable where
  letterMap : List Nat
  vowels    : List Nat
  rules     : List AffixRule
  deriving DecidableEq, Repr

/-- The scope owner of a dictionary entry (R106, R108). -/
inductive Scope
  | house | desk | job (slot : Nat) (id : Nat)
  deriving DecidableEq, Repr

/-- A dictionary entry with the slot it occupies (R106). -/
structure DictEntry where
  slot     : Nat
  language : Nat
  word     : List Nat
  breaks   : List WordBreak
  scope    : Scope
  hits     : Nat
  deriving DecidableEq, Repr

/-! ### Line Queue -/

/-- Exposure progress (R127). -/
inductive ExpoProgress
  | waiting | inFlight | done
  deriving DecidableEq, Repr

/-- Proof progress (R127). -/
inductive ProofProgress
  | notTaken | inPrint | done
  deriving DecidableEq, Repr

/-- A Line Queue entry (R127). -/
structure Entry where
  serial     : Nat
  slot       : Nat
  jobId      : Nat
  attributed : Bool
  expo       : ExpoProgress
  proof      : ProofProgress
  required   : Bool
  body       : Body
  deriving DecidableEq, Repr

/-- The Line Queue (R126 to R134). -/
structure Queue where
  entries    : List Entry
  nextSerial : Nat
  entryHigh  : Nat
  entryLow   : Nat
  glyphHigh  : Nat
  glyphLow   : Nat
  highWater  : Bool
  deriving DecidableEq, Repr

/-! ### Exposure Controller and Lamp Monitor -/

/-- Exposure states (R143). -/
inductive ExpoState
  | idle | waitingLamp | leading | selecting | waitingTurret | flashing | filmOperation | held | stopped
  deriving DecidableEq, Repr

/-- The stop-reason set (R154). -/
structure Stops where
  cover   : Bool
  lamp    : Bool
  filmOut : Bool
  jam     : Bool
  deriving DecidableEq, Repr

/-- Kinds of entry (R127). -/
inductive Kind
  | line | move | cut | mark
  deriving DecidableEq, Repr

/-- The entry in flight (R143): its lead, the run and glyph reached, a selection not yet granted (R26), and the cover opening
and lamp fault recorded against it (R147, R153). -/
structure Flight where
  serial     : Nat
  kind       : Kind
  attributed : Bool
  run        : Nat
  glyph      : Nat
  leadDone   : Bool
  selecting  : Bool
  coverSeen  : Bool
  lampSeen   : Bool
  deriving DecidableEq, Repr

/-- The Exposure Controller. A `…Target` is present while that drive moves. -/
structure Exposure where
  state          : ExpoState
  stops          : Stops
  holdRequest    : Bool
  flight         : Option Flight
  named          : Option Nat
  lastExposed    : Option Nat
  linesExposed   : Nat
  linesSpoiled   : Nat
  lens           : Option Nat
  lensTarget     : Option Nat
  carriage       : Nat
  carriageTarget : Option Nat
  flashing       : Bool
  lastDuration   : Option Nat
  lastClamped    : Bool
  deriving DecidableEq, Repr

/-- Reasons of FAULT (R157, R158). -/
inductive LampFault
  | output | sensor
  deriving DecidableEq, Repr

/-- Lamp states. -/
inductive LampState
  | off | igniting | ready | economy | recovering | fault (reason : LampFault)
  deriving DecidableEq, Repr

/-- The Lamp Monitor (R157 to R161). -/
structure Lamp where
  state          : LampState
  index          : Nat
  weak           : Bool
  invalid        : Nat
  weakLimit      : Nat
  failLimit      : Nat
  economyTimeout : Nat
  ignitionTimer  : Bool
  economyTimer   : Option Nat
  recoveryTimer  : Bool
  validityTimer  : Bool
  deriving DecidableEq, Repr

/-! ### Film Transport -/

/-- The galley owner (R169). -/
inductive Owner
  | none | job (slot : Nat) (id : Nat) | ended
  deriving DecidableEq, Repr

/-- Transport states (R164). -/
inductive FilmState
  | atRest | moving | trimming | feeding | cutting | jammed
  deriving DecidableEq, Repr

/-- Who asked for the film work under way, with the galley gap taken into its target (R167, R170, R174). -/
inductive Mover
  | none
  | lead (gap : Option Nat)
  | forward (gap : Option Nat)
  | reverse (clamped : Bool)
  | cutEntry
  | hostCut (whileStopped : Bool)
  deriving DecidableEq, Repr

/-- The Film Transport. -/
structure Film where
  loaded       : Nat
  baseline     : Nat
  highMark     : Nat
  origin       : Nat
  lowThreshold : Nat
  lowCondition : Bool
  owner        : Owner
  state        : FilmState
  mover        : Mover
  target       : Option Nat
  trims        : Nat
  measured     : Nat
  present      : Bool
  coverOpen    : Bool
  cuts         : Nat
  jams         : Nat
  lastCut      : Option Nat
  deriving DecidableEq, Repr

/-! ### Proof Controller -/

/-- Proof states (R180). -/
inductive ProofState
  | disabled | idle | printing
  deriving DecidableEq, Repr

/-- What a built line is (R192). -/
inductive PrintKind
  | entry (serial : Nat)
  | gap (count : Nat)
  | spoil (lineNumber : Nat) (jobId : Nat)
  deriving DecidableEq, Repr

/-- A built line and its bytes (R181, R185). -/
structure PrintLine where
  kind  : PrintKind
  bytes : List Byte
  deriving DecidableEq, Repr

/-- The byte in transit (R188): none, the next of the head line (or of the line feed owed before a reprint), or one of a sending
that paper out has set back (R190). -/
inductive Transit
  | none | counted | stale
  deriving DecidableEq, Repr

/-- The Proof Controller (R180). `lead`: bytes of carriage return and line feed owed before a reprint; `begun`: a byte of the head
line has been begun. -/
structure Proof where
  state          : ProofState
  disablePending : Bool
  head           : Option (Nat × Nat)
  named          : Option Nat
  list           : List PrintLine
  sent           : Nat
  lead           : Nat
  begun          : Bool
  reprint        : Bool
  transit        : Transit
  gapCount       : Nat
  rate           : Nat
  lineRate       : Nat
  flowOn         : Bool
  paperOut       : Bool
  stalled        : Bool
  stallTimer     : Bool
  linesPrinted   : Nat
  gapsPrinted    : Nat
  reprints       : Nat
  notesLost      : Nat
  deriving DecidableEq, Repr

/-! ### The whole -/

/-- The controller. -/
structure State where
  link         : Link
  fonts        : List FontRecord
  turret       : Turret
  jobs         : List Job
  galleyOrder  : List Nat
  house        : HouseStyle
  houseLocked  : Bool
  galleyGap    : Nat
  exposureHead : Option Nat
  proofHead    : Option Nat
  engine       : Engine
  languages    : List (Option LanguageTable)
  dict         : List DictEntry
  queue        : Queue
  expo         : Exposure
  lamp         : Lamp
  film         : Film
  proof        : Proof
  freeCount    : Nat
  pending      : List Instr
  deriving DecidableEq, Repr

/-! ### Power-on values -/

/-- R206. No frame is being discarded (DEDUCED, log entry 24), and a frame that waited at the handshake, which R206 does not name, is
dropped (DESIGN CHOICE, log entry 3). -/
def Link.powerOn : Link :=
  { summary := 1#24, mask := 0x0FFFFF#24, throttleMs := 4, delayMs := 20, limitMs := 200, throttle := none,
    delayTimer := none, absTimer := none, cause := .power, replies := [], direction := .hostToController,
    frameBegun := false, discarding := false, withheld := [] }

/-- R36. -/
def Station.powerOn : Station :=
  { state := .verifying, code := 0, font := none, prior := none, pins := 0, claims := 0, changed := true }

/-- R19, R36, R37: the latch engaged; the pass waits for the hatch to close when it reads open, else seeks the index. The position
before the index is found is 0, and the direction of the search ascending (log entry 4); the target shown until the index is
found is 0 (DESIGN CHOICE, log entry 27). -/
def Turret.powerOn (hatchOpen : Bool) : Turret :=
  { position := 0, motion := .rotating .verification 0, ascending := true, pass := if hatchOpen then .waitHatch else .seeking,
    stations := List.replicate 8 Station.powerOn, latchEngaged := true, hatchOpen := hatchOpen, hatchMark := false,
    exchange := none, cancelPending := false, read := .none, protection := [], lineOpen := false, lineEndDue := false }

/-- An empty line in progress (R69). -/
def LineInProgress.empty : LineInProgress :=
  { glyphs := [], params := none, pending := [], pendingCont := false, ended := none, placing := none, carry := none,
    gapDue := false, missing := false, ending := none, held := none }

/-- The parameters of a slot that has held no job (log entry 4). -/
def Params.none : Params :=
  { font := 0, size := 0, leading := 0, measure := 0, left := 0, right := 0, paragraph := 0, spaceMin := 0, spaceOpt := 0,
    spaceMax := 0, letterMax := 0, minPrefix := 0, minSuffix := 0, ladder := 0, grade := 0, zone := 0, quad := .justify,
    hyphenate := false, language := 0, policy := .required }

/-- A FREE slot with nothing kept (R64). -/
def Job.free : Job :=
  { id := 0, state := .free, status := .waitingText, stallFont := 0, finished := false, markPending := false,
    params := Params.none, paragraphMark := false, text := [], line := LineInProgress.empty, lineNumber := 0,
    consecutive := 0, linesSet := 0, hyphenated := 0, looseLines := 0, missingChars := 0, ignoredBytes := 0,
    clampedCodes := 0 }

/-- The defaults of R54. -/
def houseDefaults : HouseStyle :=
  { spaceFloor := 8, spaceCeiling := 64, letterCeiling := 4, prefixFloor := 2, suffixFloor := 2, ladderCeiling := 3,
    sizeLow := 50, sizeHigh := 720, measureLow := 900, measureHigh := 13500 }

/-- R126, R127, R133. -/
def Queue.powerOn : Queue :=
  { entries := [], nextSerial := 0, entryHigh := 56, entryLow := 40, glyphHigh := 5632, glyphLow := 4096,
    highWater := false }

/-- The empty stop-reason set. -/
def Stops.none : Stops := { cover := false, lamp := false, filmOut := false, jam := false }

/-- R163. -/
def Exposure.powerOn : Exposure :=
  { state := .held, stops := Stops.none, holdRequest := false, flight := none, named := none, lastExposed := none,
    linesExposed := 0, linesSpoiled := 0, lens := none, lensTarget := none, carriage := 0, carriageTarget := none,
    flashing := false, lastDuration := none, lastClamped := false }

/-- R163. -/
def Lamp.powerOn : Lamp :=
  { state := .off, index := 2048, weak := false, invalid := 0, weakLimit := 1400, failLimit := 700, economyTimeout := 60,
    ignitionTimer := false, economyTimer := none, recoveryTimer := false, validityTimer := false }

/-- R179. -/
def Film.powerOn (present coverOpen : Bool) : Film :=
  { loaded := 0, baseline := 0, highMark := 0, origin := 0, lowThreshold := 36000, lowCondition := false, owner := .none,
    state := .atRest, mover := .none, target := none, trims := 0, measured := 0, present := present,
    coverOpen := coverOpen, cuts := 0, jams := 0, lastCut := none }

/-- R193. -/
def Proof.powerOn (paperOut : Bool) : Proof :=
  { state := .idle, disablePending := false, head := none, named := none, list := [], sent := 0, lead := 0, begun := false,
    reprint := false, transit := .none, gapCount := 0, rate := 2400, lineRate := 2400, flowOn := true,
    paperOut := paperOut, stalled := false, stallTimer := false, linesPrinted := 0, gapsPrinted := 0, reprints := 0,
    notesLost := 0 }

/-- The machine right after power-on reset, with the hatch and the cover closed, no film before its sensor and paper in the printer
(log entry 4 names these four readings). -/
def State.reset : State :=
  { link := Link.powerOn, fonts := [], turret := Turret.powerOn false, jobs := List.replicate 4 Job.free,
    galleyOrder := [], house := houseDefaults, houseLocked := false, galleyGap := 1800, exposureHead := none,
    proofHead := none, engine := { serving := none, pointer := 0 }, languages := List.replicate 4 none, dict := [],
    queue := Queue.powerOn, expo := Exposure.powerOn, lamp := Lamp.powerOn, film := Film.powerOn false false,
    proof := Proof.powerOn false, freeCount := 0, pending := [] }

end Sys2Proof.Machine
end

