-- ==== Sys2Proof/WellFormed.lean ====
section
/-! DEFINITION. Which terms of Instr are commands that can come: the payload has the shape R196 and R207 require, each number
fits the bytes its field has, and an event carries a reading its device can report. -/

namespace Sys2Proof

/-- One byte (R207). -/
def oneByte (n : Nat) : Bool := n < 256
/-- Two bytes (R207). -/
def twoBytes (n : Nat) : Bool := n < 65536
/-- Three bytes (R207). -/
def threeBytes (n : Nat) : Bool := n < 16777216
/-- A signed byte (R207). -/
def signedByte (n : Int) : Bool := -128 ≤ n && n ≤ 127
/-- A list's count is one byte (R207). -/
def countFits {α : Type} (l : List α) : Bool := l.length < 256

/-- The form R196 asks of a payload, where the operands' types do not give it: the 190 entries of a width table and of a letter
map, counts of one byte, an affix rule's four-bit length, and at most 599 bytes of text. A request that fails it is answered FORMAT. -/
def Instr.shapeOk : Instr → Bool
  | .defineFont _ d => d.widths.length == 190 && countFits d.kerns && (d.map.map countFits).getD true
  | .reviseFont _ _ r =>
    (r.widths.map countFits).getD true && (r.kerns.map countFits).getD true &&
      (match r.map with | .replace l => countFits l | .keep => true | .remove => true)
  | .defineLanguage _ _ t =>
    t.letterMap.length == 190 && countFits t.vowels && countFits t.rules && t.rules.all fun r => r.letters.length < 16
  | .setStationProtection _ l => countFits l
  | .sendText _ _ t => t.length ≤ 599
  | .tryWord _ _ t => countFits t
  | .addWord _ _ w b _ => countFits w && countFits b
  | .amendWord _ n b => (match n with | .bySlot _ => true | .byKey _ w _ => countFits w) && countFits b
  | .retireWord _ n => (match n with | .bySlot _ => true | .byKey _ w _ => countFits w)
  | .queryWord _ q => (match q with | .bySlot _ => true | .byKey _ w _ => countFits w | .asSeenBy _ _ w => countFits w)
  | _ => true

/-- The scope owner's four bytes. -/
def ScopeArg.fits (a : ScopeArg) : Bool := oneByte a.scope && oneByte a.slot && twoBytes a.jobId

/-- The numbers of a naming fit their bytes. -/
def WordName.fits : WordName → Bool
  | .bySlot n => twoBytes n
  | .byKey l _ o => oneByte l && o.fits

/-- The numbers of OPEN JOB's parameters fit their bytes. -/
def OpenParams.fits (p : OpenParams) : Bool :=
  twoBytes p.font && twoBytes p.size && twoBytes p.leading && twoBytes p.measure && twoBytes p.left && twoBytes p.right &&
  twoBytes p.paragraph && twoBytes p.zone &&
  [p.spaceMin, p.spaceOpt, p.spaceMax, p.letterMax, p.minPrefix, p.minSuffix, p.ladder, p.grade, p.quad, p.hyphenate,
    p.language, p.policy].all oneByte

/-- The numbers of a house style fit their bytes. -/
def HouseStyle.fits (h : HouseStyle) : Bool :=
  [h.spaceFloor, h.spaceCeiling, h.letterCeiling, h.prefixFloor, h.suffixFloor, h.ladderCeiling].all oneByte &&
  [h.sizeLow, h.sizeHigh, h.measureLow, h.measureHigh].all twoBytes

/-- The numbers of a font definition fit their bytes. -/
def FontDef.fits (d : FontDef) : Bool :=
  twoBytes d.number && twoBytes d.master && d.widths.all oneByte && d.kerns.all (fun k => signedByte k.adjust) &&
  signedByte d.gain && signedByte d.offset && oneByte d.face

/-- The numbers of a font revision fit their bytes. -/
def FontRevision.fits (r : FontRevision) : Bool :=
  (r.density.map fun d => signedByte d.1 && signedByte d.2).getD true && (r.face.map oneByte).getD true &&
  (r.widths.map fun l => l.all fun w => oneByte w.2).getD true &&
  (r.kerns.map fun l => l.all fun k => signedByte k.adjust).getD true

/-- Every number fits its field, and every event's reading is one its device reports. -/
def Instr.valuesOk : Instr → Bool
  | .lengthFieldError n => twoBytes n && (n < 2 || n > 622)
  | .requestFrameFormat _ _ p => p.length ≤ 620
  | .setNoticeTiming _ a b c => oneByte a && oneByte b && twoBytes c
  | .defineFont _ d => d.fits
  | .reviseFont _ n r => twoBytes n && r.fits
  | .retireFont _ n | .queryFont _ n => twoBytes n
  | .prepareExchange _ n | .cancelExchange _ n => oneByte n
  | .setStationProtection _ l => l.all oneByte
  | .stripReadComplete c => c ≤ 4095
  | .openJob _ s j p => oneByte s && twoBytes j && p.fits
  | .sendText _ s _ | .queryJob _ s | .tryWord _ s _ => oneByte s
  | .closeJob _ s j | .abortJob _ s j => oneByte s && twoBytes j
  | .setHouseStyle _ h => h.fits
  | .setGalleyGap _ g => twoBytes g
  | .defineLanguage _ l t =>
    oneByte l && t.letterMap.all oneByte && t.vowels.all oneByte &&
      t.rules.all fun r => r.grade < 4 && r.letters.all (· < 64)
  | .queryLanguage _ l => oneByte l
  | .addWord _ l _ b o => oneByte l && o.fits && b.all fun x => oneByte x.position && oneByte x.grade
  | .amendWord _ n b => n.fits && b.all fun x => oneByte x.position && oneByte x.grade
  | .retireWord _ n => n.fits
  | .retireWords _ c l s j => oneByte c && oneByte l && oneByte s && twoBytes j
  | .pruneWords _ l t => oneByte l && twoBytes t
  | .queryWord _ q =>
    match q with
    | .bySlot n => twoBytes n
    | .byKey l _ o => oneByte l && o.fits
    | .asSeenBy s l _ => oneByte s && oneByte l
  | .listWords _ c l k s j => twoBytes c && oneByte l && oneByte k && oneByte s && twoBytes j
  | .setQueueMarks _ a b c d => oneByte a && oneByte b && twoBytes c && twoBytes d
  | .queryQueue _ q => match q with | .summary n => oneByte n | .entry n g => twoBytes n && oneByte g
  | .flashComplete s | .photocellSample s => s ≤ 4095
  | .setLamp _ w f t => twoBytes w && twoBytes f && oneByte t
  | .driveStop r => r ≤ 2160000
  | .loadFilm _ n | .setLowFilm _ n => threeBytes n
  | .setProof _ e r => oneByte e && twoBytes r
  | .printerByteDiscarded b => b != 0x11 && b != 0x13
  | _ => true

/-- A command that can come. -/
def Instr.wellFormed (i : Instr) : Bool := i.shapeOk && i.valuesOk

end Sys2Proof
end

