-- ==== Sys2Proof/Machine/Ops.lean ====
section
/-! DEFINITION. The operations every block shares: reading and updating a part of the state, raising a notice, the numbers of a
payload (R207), and answering a request (R195 to R197). -/

namespace Sys2Proof.Machine

open Sys2Proof

/-! ### Updating one block -/

def State.onLink (s : State) (f : Link → Link) : State := { s with link := f s.link }
def State.onTurret (s : State) (f : Turret → Turret) : State := { s with turret := f s.turret }
def State.onEngine (s : State) (f : Engine → Engine) : State := { s with engine := f s.engine }
def State.onQueue (s : State) (f : Queue → Queue) : State := { s with queue := f s.queue }
def State.onExpo (s : State) (f : Exposure → Exposure) : State := { s with expo := f s.expo }
def State.onLamp (s : State) (f : Lamp → Lamp) : State := { s with lamp := f s.lamp }
def State.onFilm (s : State) (f : Film → Film) : State := { s with film := f s.film }
def State.onProof (s : State) (f : Proof → Proof) : State := { s with proof := f s.proof }

/-- The context of a slot; a FREE one for a number that is no slot. -/
def State.job (s : State) (slot : Nat) : Job := s.jobs.getD slot Job.free
/-- Change one job context. -/
def State.onJob (s : State) (slot : Nat) (f : Job → Job) : State := { s with jobs := s.jobs.modify slot f }
/-- Change a job's line in progress. -/
def State.onLine (s : State) (slot : Nat) (f : LineInProgress → LineInProgress) : State :=
  s.onJob slot fun j => { j with line := f j.line }

/-- The station record of a number 0..7. -/
def State.station (s : State) (n : Nat) : Station := s.turret.stations.getD n Station.powerOn
/-- Change one station record. -/
def State.onStation (s : State) (n : Nat) (f : Station → Station) : State :=
  s.onTurret fun t => { t with stations := t.stations.modify n f }

/-- The present record of a font number (R2). -/
def State.font (s : State) (number : Nat) : Option FontRecord := s.fonts.find? (·.number == number)
/-- The present record holding a master code (R11). -/
def State.fontOfMaster (s : State) (code : Nat) : Option FontRecord := s.fonts.find? (·.master == code)
/-- Change the record of a font number, if present. -/
def State.onFont (s : State) (number : Nat) (f : FontRecord → FontRecord) : State :=
  { s with fonts := s.fonts.map fun r => if r.number == number then f r else r }

/-- A counter that stops at 65535 (R40, R143, R164, R180). -/
def bump (n : Nat) : Nat := if n < Config.counterTop then n + 1 else n

/-- The distinct members of a list, in order of first appearance. -/
def distinct : List Nat → List Nat
  | [] => []
  | x :: xs => x :: (distinct xs).filter (· != x)

/-- A list without two equal members. -/
def noRepeats {α : Type} [BEq α] : List α → Bool
  | [] => true
  | x :: xs => !xs.contains x && noRepeats xs

/-! ### Notices -/

/-- The twenty causes, in the order of R207. -/
inductive Notice
  | reset | lineExposed | lineSpoiled | jobStalled | jobDrained | queueHigh | hatchReady | stationChanged | filmLow | filmOut
  | filmJam | cutDone | reverseClamped | lampReady | lampWeak | lampFault | coverOpen | held | proofStopped | proofResumed
  deriving DecidableEq, Repr

/-- The number of a cause (R207). -/
def Notice.bit : Notice → Nat
  | .reset => 0 | .lineExposed => 1 | .lineSpoiled => 2 | .jobStalled => 3 | .jobDrained => 4 | .queueHigh => 5
  | .hatchReady => 6 | .stationChanged => 7 | .filmLow => 8 | .filmOut => 9 | .filmJam => 10 | .cutDone => 11
  | .reverseClamped => 12 | .lampReady => 13 | .lampWeak => 14 | .lampFault => 15 | .coverOpen => 16 | .held => 17
  | .proofStopped => 18 | .proofResumed => 19

/-- A cause as the set holding it alone. -/
def Notice.mask (n : Notice) : BitVec 24 := 1#24 <<< n.bit

/-- A block raises a cause: it joins the summary (R200). -/
def State.raise (s : State) (n : Notice) : State := s.onLink fun l => { l with summary := l.summary ||| n.mask }

/-- Raise a cause when a condition holds. -/
def State.raiseIf (s : State) (b : Bool) (n : Notice) : State := if b then s.raise n else s

/-- A cause stands in the summary. -/
def Link.holds (l : Link) (n : Notice) : Bool := l.summary &&& n.mask != 0#24

/-- The level of ATTN (R201). -/
def Link.attn (l : Link) : Bool := l.summary &&& l.mask != 0#24 && l.throttle.isNone

/-! ### The numbers of a payload (R207) -/

/-- One byte. -/
def num1 (n : Nat) : List Byte := [BitVec.ofNat 8 n]
/-- Two bytes, the most significant first. -/
def num2 (n : Nat) : List Byte := [BitVec.ofNat 8 (n / 256), BitVec.ofNat 8 n]
/-- Three bytes, the most significant first. -/
def num3 (n : Nat) : List Byte := [BitVec.ofNat 8 (n / 65536), BitVec.ofNat 8 (n / 256), BitVec.ofNat 8 n]
/-- A signed byte in two's complement. -/
def int1 (n : Int) : List Byte := [BitVec.ofInt 8 n]
/-- A signed number in two bytes. -/
def int2 (n : Int) : List Byte := num2 (BitVec.ofInt 16 n).toNat
/-- A yes-or-no selector; a condition that is set or clear is given as one, set as yes (DESIGN CHOICE, log entry 5). -/
def flag1 (b : Bool) : List Byte := num1 (if b then 1 else 0)
/-- A list preceded by its count. -/
def listOf {α : Type} (f : α → List Byte) (l : List α) : List Byte := num1 l.length ++ l.flatMap f
/-- Fields present under a condition alone, preceded by one presence byte (R207, log entry 5). -/
def presentIf (c : Bool) (fields : List Byte) : List Byte := if c then num1 1 ++ fields else num1 0
/-- A field that may be absent, preceded by its presence byte. -/
def optOf {α : Type} (f : α → List Byte) : Option α → List Byte
  | none => num1 0
  | some a => num1 1 ++ f a
/-- A set of named values as a number: its nth value in bit n. -/
def bitSet : List Bool → Nat
  | [] => 0
  | b :: bs => (if b then 1 else 0) + 2 * bitSet bs

/-- The code of a status (R207). -/
def Status.code : Status → Nat
  | .done => 0 | .started => 1 | .busy => 2 | .full => 3 | .absent => 4 | .inUse => 5 | .shielded => 6 | .locked => 7
  | .duplicate => 8 | .range => 9 | .state => 10 | .format => 11

/-- The frame of a reply (R207). -/
def Reply.frame (r : Reply) : List Byte :=
  num2 (4 + r.payload.length) ++ [r.code, r.tag] ++ num1 r.status.code ++ num1 (bitSet [r.clamped, r.part]) ++ r.payload

/-! ### Answering a request -/

/-- What an owner answers. -/
structure Answer where
  status  : Status
  payload : List Byte := []
  clamped : Bool := false
  part    : Bool := false

/-- Append a reply; the direction turns to the host when no request frame is partly received (R194, R195). -/
def State.pushReply (s : State) (code tag : Byte) (a : Answer) : State :=
  s.onLink fun l =>
    { l with
      replies := l.replies ++
        [{ code := code, tag := tag, status := a.status, clamped := a.clamped, part := a.part, payload := a.payload }]
      direction := if l.frameBegun then l.direction else .controllerToHost }

/-- A request's effect: what the owner answers, and the state it leaves. -/
abbrev Effect := State → State × Answer

/-- A refusal: nothing changes (R197). -/
def refuse (st : Status) (s : State) : State × Answer := (s, { status := st })
/-- DONE with nothing more to say. -/
def done (s : State) : State × Answer := (s, { status := .done })

/-- Carry an effect out and queue its reply (R195). -/
def State.answer (s : State) (code tag : Byte) (e : Effect) : State :=
  let (s', a) := e s
  s'.pushReply code tag a

/-- The request code of a command (R207); 0 for an event. -/
def requestCode : Instr → Nat
  | .identify _ => 0x01 | .status _ => 0x02 | .readNotices _ => 0x03 | .setNoticeMask _ _ => 0x04
  | .setNoticeTiming _ _ _ _ => 0x05 | .resetLink _ => 0x06 | .resetComposition _ => 0x07
  | .defineFont _ _ => 0x10 | .reviseFont _ _ _ => 0x11 | .retireFont _ _ => 0x12 | .queryFont _ _ => 0x13
  | .prepareExchange _ _ => 0x20 | .cancelExchange _ _ => 0x21 | .queryStations _ => 0x22
  | .setStationProtection _ _ => 0x23
  | .openJob _ _ _ _ => 0x30 | .sendText _ _ _ => 0x31 | .closeJob _ _ _ => 0x32 | .abortJob _ _ _ => 0x33
  | .queryJob _ _ => 0x34 | .setHouseStyle _ _ => 0x35 | .lockHouse _ => 0x36 | .setGalleyGap _ _ => 0x37
  | .defineLanguage _ _ _ => 0x40 | .queryLanguage _ _ => 0x41 | .tryWord _ _ _ => 0x42
  | .addWord _ _ _ _ _ => 0x48 | .amendWord _ _ _ => 0x49 | .retireWord _ _ => 0x4A | .retireWords _ _ _ _ _ => 0x4B
  | .pruneWords _ _ _ => 0x4C | .queryWord _ _ => 0x4D | .listWords _ _ _ _ _ _ => 0x4E
  | .setQueueMarks _ _ _ _ _ => 0x50 | .queryQueue _ _ => 0x51
  | .holdExposure _ => 0x60 | .releaseExposure _ => 0x61 | .lampOn _ => 0x62 | .lampOff _ => 0x63
  | .setLamp _ _ _ _ => 0x64 | .queryExposure _ => 0x65
  | .loadFilm _ _ => 0x70 | .feedAndCut _ => 0x71 | .setLowFilm _ _ => 0x72 | .queryFilm _ => 0x73
  | .setProof _ _ _ => 0x78 | .queryProof _ => 0x79
  | _ => 0

/-- The request code as its byte. -/
def codeByte (i : Instr) : Byte := BitVec.ofNat 8 (requestCode i)

/-- A request frame is complete and delivered (R195, R196): it no longer stands partly received; a payload of another shape is
answered FORMAT; any other is carried out by its owner and answered. -/
def State.deliver (s : State) (i : Instr) (tag : Byte) (e : Effect) : State :=
  let s := s.onLink fun l => { l with frameBegun := false }
  if i.shapeOk then s.answer (codeByte i) tag e else s.answer (codeByte i) tag (refuse .format)

/-- A frame of the host comes (R195, R196): its bytes are lost while the port discards; its first byte waits for acknowledge, and so
the frame waits, while four replies wait; else it is received (log entry 3), whatever the direction (DEDUCED, log entry 38). -/
def State.receive (s : State) (i : Instr) (f : State → State) : State :=
  if s.link.discarding then s
  else if s.link.replies.length < Config.replySlots then f s
  else s.onLink fun l => { l with withheld := l.withheld ++ [i] }

/-- A request comes: received, it is delivered. -/
def State.accept (s : State) (i : Instr) (tag : Byte) (e : Effect) : State := s.receive i fun s => s.deliver i tag e

end Sys2Proof.Machine
end

