-- ==== Sys2Proof/Machine/Catalogue.lean ====
section
/-! DEFINITION. The Font Catalogue: character codes, the checks and effects of its four requests (R1 to R17). -/

namespace Sys2Proof.Machine

open Sys2Proof

/-! ### Character codes and tables -/

/-- One of the 190 character codes: 0x21..0x7E and 0xA0..0xFF. -/
def isCharCode (b : Byte) : Bool := (0x21 ≤ b.toNat && b.toNat ≤ 0x7E) || 0xA0 ≤ b.toNat

/-- The place of a character code in a table indexed by the 190 codes. -/
def charIndex (b : Byte) : Nat := if b.toNat ≤ 0x7E then b.toNat - 0x21 else b.toNat - 0xA0 + 94

/-- The entry of a character code in a table of 190; 0 for a byte that is no character code. -/
def tableAt (t : List Nat) (b : Byte) : Nat := if isCharCode b then t.getD (charIndex b) 0 else 0

/-- The width of a character in a record (R3). -/
def FontRecord.width (r : FontRecord) (b : Byte) : Nat := tableAt r.widths b

/-- The kern adjustment of a pair of codes, 0 where the list holds no such pair (R5). -/
def FontRecord.kern (r : FontRecord) (a b : Byte) : Int :=
  ((r.kerns.find? fun k => k.first == a && k.second == b).map (·.adjust)).getD 0

/-- The reference count (R8). -/
def FontRecord.count (r : FontRecord) : Nat := r.stationPart + r.entryPart + r.linePart

/-! ### Checks of R1, R5 and R7 -/

/-- A kern list by R5. -/
def kernsOk (ks : List KernPair) : Bool :=
  ks.length ≤ 48 && ks.all (fun k => isCharCode k.first && isCharCode k.second && -16 ≤ k.adjust && k.adjust ≤ 15) &&
  noRepeats (ks.map fun k => (k.first, k.second))

/-- The pairs of a proof map by R7. -/
def mapOk (ps : List (Byte × Byte)) : Bool :=
  ps.length ≤ 32 && ps.all (fun p => 0xA0 ≤ p.1.toNat && 0x21 ≤ p.2.toNat && p.2.toNat ≤ 0x7E) && noRepeats (ps.map (·.1))

/-- A density correction by R1. -/
def densityOk (g o : Int) : Bool := -3 ≤ g && g ≤ 3 && -8 ≤ o && o ≤ 7

/-- A proof face from its byte (R207). -/
def faceOf : Nat → Option ProofFace
  | 0 => some .plain
  | 1 => some .bold
  | 2 => some .underline
  | 3 => some .boldUnderline
  | _ => none

/-- The byte of a proof face (R207). -/
def ProofFace.code : ProofFace → Nat
  | .plain => 0 | .bold => 1 | .underline => 2 | .boldUnderline => 3

/-- A map given with no pairs is recorded as absent (R7). -/
def normalMap : Option (List (Byte × Byte)) → Option (List (Byte × Byte))
  | some [] => none
  | m => m

/-- The record a definition makes, when its fields pass row 1 of R12. -/
def definedRecord (d : FontDef) : Option FontRecord :=
  let hyphen := d.hyphen.getD 0x2D#8
  match faceOf d.face with
  | none => none
  | some face =>
    if 1 ≤ d.number && d.number ≤ 999 && 1 ≤ d.master && d.master ≤ 4094 && d.widths.all (· ≤ 127) &&
        isCharCode hyphen && tableAt d.widths hyphen != 0 && kernsOk d.kerns && densityOk d.gain d.offset &&
        (d.map.map mapOk).getD true then
      some { number := d.number, master := d.master, widths := d.widths, hyphen := hyphen, kerns := d.kerns, gain := d.gain,
             offset := d.offset, face := face, map := normalMap d.map, stationPart := 0, entryPart := 0, linePart := 0 }
    else none

/-- A record joins the catalogue, which is held in ascending font number. -/
def insertFont (r : FontRecord) : List FontRecord → List FontRecord
  | [] => [r]
  | x :: xs => if r.number < x.number then r :: x :: xs else x :: insertFont r xs

/-! ### Revision -/

/-- Change the widths a list names. -/
def reviseWidths (t : List Nat) : List (Byte × Nat) → List Nat
  | [] => t
  | (b, w) :: l => reviseWidths (t.set (charIndex b) w) l

/-- Every carried value inside its range (row 2 of R15, but for the hyphen of the resulting record). -/
def revisionOk (r : FontRevision) : Bool :=
  (r.density.map fun d => densityOk d.1 d.2).getD true && (r.face.map fun f => (faceOf f).isSome).getD true &&
  (match r.map with | .replace l => mapOk l | .keep => true | .remove => true) &&
  (r.widths.map fun l => !l.isEmpty && l.all (fun w => isCharCode w.1 && w.2 ≤ 127) && noRepeats (l.map (·.1))).getD true &&
  (r.kerns.map kernsOk).getD true && (r.hyphen.map isCharCode).getD true

/-- A revision carries a frozen field (R15). -/
def revisionFrozen (r : FontRevision) : Bool := r.widths.isSome || r.kerns.isSome || r.hyphen.isSome

/-- The record as it stands after the whole revision. -/
def applyRevision (r : FontRevision) (f : FontRecord) : FontRecord :=
  { f with
    gain := (r.density.map (·.1)).getD f.gain
    offset := (r.density.map (·.2)).getD f.offset
    face := (r.face.bind faceOf).getD f.face
    map := match r.map with | .keep => f.map | .remove => none | .replace l => normalMap (some l)
    widths := (r.widths.map (reviseWidths f.widths)).getD f.widths
    kerns := r.kerns.getD f.kerns
    hyphen := r.hyphen.getD f.hyphen }

/-! ### Replies -/

/-- The reference count and its three parts (R15, R17). -/
def FontRecord.countBytes (r : FontRecord) : List Byte :=
  num1 r.count ++ num1 r.stationPart ++ num1 r.entryPart ++ num1 r.linePart

/-- The numbers of the stations whose records satisfy a test, ascending. -/
def stationsWhere (p : Station → Bool) (l : List Station) : List Nat :=
  (l.zipIdx.filter fun x => p x.1).map (·.2)

/-- A station holds the record of a font number (R8): MOUNTED or DRAINING and bound to it. -/
def Station.holds (st : Station) (number : Nat) : Bool :=
  (st.state == .mounted || st.state == .draining) && st.font == some number

/-- A record's fields in the order of R1. -/
def FontRecord.bytes (r : FontRecord) : List Byte :=
  num2 r.number ++ num2 r.master ++ r.widths.flatMap num1 ++ [r.hyphen] ++
  listOf (fun k : KernPair => [k.first, k.second] ++ int1 k.adjust) r.kerns ++ int1 r.gain ++ int1 r.offset ++
  num1 r.face.code ++ optOf (listOf fun p : Byte × Byte => [p.1, p.2]) r.map

/-! ### The requests that touch the catalogue alone -/

/-- REVISE FONT (R14, R15). -/
def reviseFontEffect (number : Nat) (r : FontRevision) : Effect := fun s =>
  match s.font number with
  | none => refuse .absent s
  | some f =>
    let f' := applyRevision r f
    if !(revisionOk r && f'.width f'.hyphen != 0) then refuse .range s
    else if revisionFrozen r && f.count > 0 then (s, { status := .inUse, payload := f.countBytes })
    else done (s.onFont number (applyRevision r))

/-- RETIRE FONT (R16). -/
def retireFontEffect (number : Nat) : Effect := fun s =>
  match s.font number with
  | none => refuse .absent s
  | some f =>
    if f.count > 0 then (s, { status := .inUse, payload := f.countBytes })
    else done { s with fonts := s.fonts.filter (·.number != number) }

/-- QUERY FONT (R17). -/
def queryFontEffect (number : Nat) : Effect := fun s =>
  if number == 0 then
    (s, { status := .done
          payload := listOf (fun f : FontRecord => num2 f.number ++ num2 f.master ++ num1 f.count) s.fonts ++
            num1 s.fonts.length })
  else if number > 999 then refuse .range s
  else match s.font number with
    | none => refuse .absent s
    | some f =>
      (s, { status := .done
            payload := f.bytes ++ f.countBytes ++ listOf num1 (stationsWhere (·.holds number) s.turret.stations) })

end Sys2Proof.Machine
end

