-- ==== Sys2Proof/Machine/Turret.lean ====
section
/-! DEFINITION. The Turret Controller: stations, the exchange sequence, the verification pass (R19 to R39), the question of a font's
station (R23), and with them DEFINE FONT (R12, R13) and the asking again of stalled jobs (R86). -/

namespace Sys2Proof.Machine

open Sys2Proof

/-! ### Which station holds a font, and jobs stalled for one -/

/-- The answers of R23. -/
inductive FontAnswer
  | station (n : Nat)
  | changing
  | unavailable
  deriving DecidableEq, Repr

/-- The Turret Controller's answer for a present record (R23). -/
def State.askTurret (s : State) (r : FontRecord) : FontAnswer :=
  match stationsWhere (fun st => st.state == .mounted && st.font == some r.number) s.turret.stations with
  | n :: _ => .station n
  | [] =>
    if s.turret.stations.any fun st =>
        (st.state == .draining && st.font == some r.number) ||
        ((st.state == .opened || st.state == .verifying) && st.prior == some .mounted && st.code == r.master) then
      .changing
    else .unavailable

/-- The answer for a font number: FONT UNAVAILABLE where no present record has it (R71). -/
def State.askFont (s : State) (number : Nat) : FontAnswer :=
  match s.font number with
  | none => .unavailable
  | some r => s.askTurret r

/-- The stall an answer leads to (R23). -/
def FontAnswer.stall : FontAnswer → Option StallReason
  | .station _ => none
  | .changing => some .fontChanging
  | .unavailable => some .fontUnavailable

/-- Set a job's composition status: each entry into STALLED and each change of reason raises JOB STALLED (R41). -/
def State.setStatus (s : State) (slot : Nat) (c : CompStatus) : State :=
  let old := (s.job slot).status
  let s := s.onJob slot fun j => { j with status := c }
  match c with
  | .stalled _ => s.raiseIf (c != old) .jobStalled
  | _ => s

/-- A job is in composition: ACTIVE or CLOSING (R41). -/
def Job.composing (j : Job) : Bool := j.state == .active || j.state == .closing

/-- A job stalled for a font. -/
def Job.fontStalled (j : Job) : Bool :=
  j.composing && (j.status == .stalled .fontUnavailable || j.status == .stalled .fontChanging)

/-- One stalled job asks again for its font (R86). -/
def State.reask (s : State) (slot : Nat) : State :=
  let j := s.job slot
  if j.fontStalled then
    match (s.askFont j.stallFont).stall with
    | none => s.setStatus slot .ready
    | some r => s.setStatus slot (.stalled r)
  else s

/-- Every stalled job asks again: at a change of a station's state, and at DEFINE FONT (R22, R86). -/
def State.reaskAll (s : State) : State := [0, 1, 2, 3].foldl State.reask s

/-! ### Changes of a station's state -/

/-- A change of a station's state marks the station changed, raises STATION CHANGED and is told to the Setting Engine (R22). -/
def State.changeStation (s : State) (n : Nat) (f : Station → Station) : State :=
  ((s.onStation n fun st => { f st with changed := true }).raise .stationChanged).reaskAll

/-- The station enters MOUNTED, bound to a record, which it then holds (R9, R11). -/
def State.mount (s : State) (n number : Nat) : State :=
  (s.onFont number fun r => { r with stationPart := r.stationPart + 1 }).changeStation n fun st =>
    { st with state := .mounted, font := some number, prior := none }

/-- Settle a station from its last-read code by master-code lookup (R11): MOUNTED, EMPTY for 4095, or UNKNOWN. -/
def State.settleStation (s : State) (n : Nat) : State :=
  let code := (s.station n).code
  match s.fontOfMaster code with
  | some r => s.mount n r.number
  | none =>
    s.changeStation n fun st =>
      { st with state := if code == 4095 then .empty else .unknown, font := none, prior := none }

/-- There is no longer an exchange station (R32, R33). -/
def State.endExchange (s : State) : State :=
  s.onTurret fun t => { t with exchange := none, cancelPending := false, hatchMark := false }

/-- The turret is locked while any station is OPEN or VERIFYING (R26). -/
def Turret.locked (t : Turret) : Bool := t.stations.any fun st => st.state == .opened || st.state == .verifying

/-- The station at the hatch and the read head (R19). -/
def Turret.hatchStation (t : Turret) : Nat := (t.position + 4) % 8

/-- The hatch is released: the exchange station becomes OPEN and gives up its record (R30). -/
def State.releaseHatch (s : State) (n : Nat) : State :=
  let st := s.station n
  let s := s.onTurret fun t => { t with latchEngaged := false, hatchMark := false }
  let s := match st.prior, st.font with
    | some .mounted, some number => s.onFont number fun r => { r with stationPart := r.stationPart - 1 }
    | _, _ => s
  (s.raise .hatchReady).changeStation n fun st => { st with state := .opened, font := none }

/-- A DRAINING station returns to its prior state: MOUNTED keeps its binding; another is settled by lookup, and mounts when its code
has been defined meanwhile (R33, R34). -/
def State.returnPrior (s : State) (n : Nat) : State :=
  let st := s.station n
  let s := s.endExchange
  match st.prior with
  | some .mounted => s.changeStation n fun st => { st with state := .mounted, prior := none }
  | p =>
    match s.fontOfMaster st.code with
    | some r => s.mount n r.number
    | none => s.changeStation n fun st => { st with state := p.getD .unknown, prior := none }

/-- The direction from one position to another that needs fewer station steps; ascending where each needs four (R20). -/
def ascendingTo (position target : Nat) : Bool := (target + 8 - position) % 8 ≤ 4

/-- A rotation begins: its purpose, its target and its direction (R20). It is not redirected before its arrival. -/
def Turret.rotate (p : Purpose) (target : Nat) (t : Turret) : Turret :=
  { t with motion := .rotating p target, ascending := ascendingTo t.position target }

/-- Exchange positioning is due (R29), and the turret is free to take it (R20). -/
def Turret.positioningDue (t : Turret) : Option Nat :=
  match t.exchange with
  | none => none
  | some n =>
    let st := t.stations.getD n Station.powerOn
    if st.state == .draining && st.pins == 0 && st.claims == 0 && !t.cancelPending && !t.lineOpen && t.motion == .atRest
    then some n else none

/-- Positioning begins: a rotation for EXCHANGE, or its effects at once where t is the target already (R20, R29). -/
def State.beginPositioning (s : State) (n : Nat) : State :=
  let target := (n + 4) % 8
  if s.turret.position == target then s.releaseHatch n
  else s.onTurret (Turret.rotate .exchange target)

/-! ### Device events -/

/-- A read of the strip at the hatch begins (R22). -/
def State.beginRead (s : State) : State := s.onTurret fun t => { t with read := .first }

/-- ROTATION ARRIVAL: t takes the target, and the purpose is done (R20, R30, R34, R36); the grant of a selection follows in the
closing part of the step. An arrival with no rotation under way changes nothing (log entry 6). Within the pass the target shown
while the station is read is the position just reached (DESIGN CHOICE, log entry 27). -/
def rotationArrivalEffect (s : State) : State :=
  match s.turret.motion with
  | .atRest => s
  | .rotating .exposure target =>
    s.onTurret fun t =>
      { t with position := target, motion := .atRest, lineOpen := t.lineOpen && !t.lineEndDue, lineEndDue := false }
  | .rotating .exchange target =>
    let pending := s.turret.cancelPending
    let s := s.onTurret fun t => { t with position := target, motion := .atRest }
    match s.turret.exchange with
    | none => s
    | some n => if pending then s.returnPrior n else s.releaseHatch n
  | .rotating .verification target =>
    match s.turret.pass with
    | .stepping k =>
      if k < 8 then (s.onTurret fun t => { t with position := target, pass := .reading k }).beginRead
      else s.onTurret fun t => { t with position := target, motion := .atRest, pass := .none }
    | _ => s

/-- INDEX FOUND: t = 0, and the pass reads its first station (R36). While a strip is read the target shown is the position just
reached (DESIGN CHOICE, log entry 27). -/
def indexFoundEffect (s : State) : State :=
  if s.turret.pass == .seeking then
    (s.onTurret fun t => { t with position := 0, motion := .rotating .verification 0, pass := .reading 0 }).beginRead
  else s

/-- HATCH OPENED (R31). -/
def hatchOpenedEffect (s : State) : State :=
  let opened := match s.turret.exchange with
    | some n => (s.station n).state == .opened && !s.turret.latchEngaged
    | none => false
  s.onTurret fun t => { t with hatchOpen := true, hatchMark := t.hatchMark || opened }

/-- HATCH CLOSED (R31): the closure after an opening engages the latch and begins the read; the closure the verification pass waits
for engages the latch and lets it seek its index (R36). -/
def hatchClosedEffect (s : State) : State :=
  let s := s.onTurret fun t => { t with hatchOpen := false }
  if s.turret.pass == .waitHatch then s.onTurret fun t => { t with latchEngaged := true, pass := .seeking }
  else match s.turret.exchange with
    | none => s
    | some n =>
      if (s.station n).state == .opened && s.turret.hatchMark then
        ((s.onTurret fun t => { t with latchEngaged := true }).changeStation n fun st =>
          { st with state := .verifying }).beginRead
      else s

/-- The verdict on the station at the read head (R22, R32), after which the pass steps on (R36). -/
def State.verdict (s : State) (code : Nat) : State :=
  let n := s.turret.hatchStation
  let s := (s.onTurret fun t => { t with read := .none }).onStation n fun st => { st with code := code }
  let s := if s.turret.exchange == some n then s.endExchange else s
  let s := s.settleStation n
  match s.turret.pass with
  | .reading k =>
    s.onTurret fun t => { t.rotate .verification ((k + 1) % 8) with pass := .stepping (k + 1) }
  | _ => s

/-- STRIP READ COMPLETE (R22): a first read of 0 is made once more; any other code is final. -/
def stripReadCompleteEffect (code : Nat) (s : State) : State :=
  match s.turret.read with
  | .none => s
  | .first => if code == 0 then s.onTurret fun t => { t with read := .retry } else s.verdict code
  | .retry => s.verdict code

/-! ### Requests -/

/-- PREPARE EXCHANGE (R28). -/
def prepareExchangeEffect (n : Nat) : Effect := fun s =>
  let busy := fun st : Station => st.state == .draining || st.state == .opened || st.state == .verifying
  if n > 7 then refuse .range s
  else if s.turret.protection.contains n then refuse .shielded s
  else if busy (s.station n) then refuse .state s
  else if s.turret.stations.any busy then refuse .busy s
  else
    let s := s.onTurret fun t => { t with exchange := some n, cancelPending := false, hatchMark := false }
    (s.changeStation n fun st => { st with prior := some st.state, state := .draining }, { status := .started })

/-- CANCEL EXCHANGE (R33, R34, R35). -/
def cancelExchangeEffect (n : Nat) : Effect := fun s =>
  if n > 7 then refuse .range s
  else if s.turret.exchange != some n then refuse .state s
  else match (s.station n).state with
    | .draining =>
      match s.turret.motion with
      | .rotating .exchange _ =>
        if s.turret.cancelPending then refuse .state s
        else (s.onTurret fun t => { t with cancelPending := true }, { status := .started })
      | _ => done (s.returnPrior n)
    | .opened =>
      if s.turret.hatchMark then refuse .state s
      else done (((s.onTurret fun t => { t with latchEngaged := true }).endExchange).settleStation n)
    | _ => refuse .state s

/-- SET STATION PROTECTION (R37). -/
def setStationProtectionEffect (l : List Nat) : Effect := fun s =>
  if s.houseLocked then refuse .locked s
  else if !(l.all (· ≤ 7) && noRepeats l) then refuse .range s
  else done (s.onTurret fun t => { t with protection := l })

/-- The byte of a station state, in the order of R21. -/
def StationState.code : StationState → Nat
  | .empty => 0 | .unknown => 1 | .mounted => 2 | .draining => 3 | .opened => 4 | .verifying => 5

/-- The byte of a purpose, in the order of R19. -/
def Purpose.code : Purpose → Nat
  | .exposure => 0 | .exchange => 1 | .verification => 2

/-- The stages of an exchange, in the order of R38. -/
def Turret.stage (t : Turret) (n : Nat) : Nat :=
  match (t.stations.getD n Station.powerOn).state, t.motion with
  | .draining, .rotating .exchange _ => if t.cancelPending then 2 else 1
  | .draining, _ => 0
  | .opened, _ => if t.hatchMark then 4 else 3
  | _, _ => 5

/-- The exchange station and its stage, or none. -/
def Turret.exchangeBytes (t : Turret) : List Byte := optOf (fun n => num1 n ++ num1 (t.stage n)) t.exchange

/-- One station in the reply of QUERY STATIONS (R38). -/
def Turret.stationBytes (t : Turret) (st : Station) (n : Nat) : List Byte :=
  num1 st.state.code ++ num2 st.code ++ optOf num2 st.font ++ optOf (fun p : StationState => num1 p.code) st.prior ++
  num1 st.pins ++ num1 st.claims ++ flag1 (t.protection.contains n) ++ flag1 st.changed

/-- QUERY STATIONS (R38): the only state it alters is every station's changed field. The purpose and the target stand behind one
presence byte (log entry 5). The members of the station protection set are given in the order in which SET STATION PROTECTION
carried them, and the target shown in the verification pass is that of log entry 27 (DESIGN CHOICE, log entry 27). -/
def queryStationsEffect : Effect := fun s =>
  let t := s.turret
  let motion := match t.motion with
    | .atRest => num1 0 ++ num1 0
    | .rotating p target => num1 1 ++ num1 1 ++ num1 p.code ++ num1 target
  (s.onTurret fun t => { t with stations := t.stations.map fun st => { st with changed := false } },
   { status := .done
     payload := num1 t.position ++ motion ++ flag1 t.locked ++ flag1 (!t.latchEngaged) ++ flag1 (!t.hatchOpen) ++
       t.exchangeBytes ++ listOf num1 t.protection ++ t.stations.zipIdx.flatMap fun x => t.stationBytes x.1 x.2 })

/-- DEFINE FONT (R12), with the mounting of the UNKNOWN stations that carry its master code (R13) and the asking again of the
stalled jobs (R86). -/
def defineFontEffect (d : FontDef) : Effect := fun s =>
  match definedRecord d with
  | none => refuse .range s
  | some r =>
    if (s.font d.number).isSome then refuse .duplicate s
    else if (s.fontOfMaster d.master).isSome then refuse .duplicate s
    else if s.fonts.length ≥ Config.maxFonts then refuse .full s
    else
      let s := { s with fonts := insertFont r s.fonts }
      let found := stationsWhere (fun st => st.state == .unknown && st.code == d.master) s.turret.stations
      let s := (found.foldl (fun s n => s.mount n d.number) s).reaskAll
      (s, { status := .done
            payload := listOf num1 found ++ num1 (((s.font d.number).map (·.count)).getD 0) })

end Sys2Proof.Machine
end

