-- ==== Sys2Proof/Machine/Dictionary.lean ====
section
/-! DEFINITION. The Exception Dictionary (R106 to R125): slots, keys, consultation and its seven requests. The entries stand in
strictly rising slot order; a slot that is not listed is empty. -/

namespace Sys2Proof.Machine

open Sys2Proof

/-! ### Slots and keys -/

/-- The lowest empty slot, counting from `n` (R109). -/
def lowestFree : Nat → List DictEntry → Nat
  | n, [] => n
  | n, e :: es => if e.slot == n then lowestFree (n + 1) es else if e.slot < n then lowestFree n es else n

/-- An entry takes its place in slot order. -/
def insertEntry (e : DictEntry) : List DictEntry → List DictEntry
  | [] => [e]
  | x :: xs => if e.slot < x.slot then e :: x :: xs else x :: insertEntry e xs

/-- The entry of a slot, if it is not empty. -/
def entryAt (d : List DictEntry) (slot : Nat) : Option DictEntry := d.find? (·.slot == slot)

/-- The entry of a key: language, folded word and scope owner (R108). -/
def entryOfKey (d : List DictEntry) (language : Nat) (word : List Nat) (owner : Scope) : Option DictEntry :=
  d.find? fun e => e.language == language && e.word == word && e.scope == owner

/-- The entry a consultation chooses: JOB, then DESK, then HOUSE (R111). -/
def choose (d : List DictEntry) (language : Nat) (word : List Nat) (slot id : Nat) : Option DictEntry :=
  (entryOfKey d language word (.job slot id)).orElse fun _ =>
    (entryOfKey d language word .desk).orElse fun _ => entryOfKey d language word .house

/-- The consultation raises the chosen entry's hit count, which stops at 65535 (R110, R111). -/
def raiseHits (slot : Nat) (d : List DictEntry) : List DictEntry :=
  d.map fun e => if e.slot == slot then { e with hits := bump e.hits } else e

/-- Remove the entries a test picks; a retired entry's slot becomes empty (R106). -/
def retireWhere (p : DictEntry → Bool) (s : State) : State := { s with dict := s.dict.filter fun e => !p e }

/-- The JOB entries of an owner (R124). -/
def isJobWord (slot id : Nat) (e : DictEntry) : Bool := e.scope == .job slot id

/-- A list of breaks valid for a word of n letters (R107). -/
def breaksOk (n : Nat) (bs : List WordBreak) : Bool :=
  bs.length ≤ 8 && bs.all (fun b => 1 ≤ b.position && b.position + 1 ≤ n && 1 ≤ b.grade && b.grade ≤ 3) &&
  (bs.zip (bs.drop 1)).all fun p => p.1.position < p.2.position

/-! ### Naming -/

/-- The table of a language, when defined. -/
def State.language (s : State) (n : Nat) : Option LanguageTable := (s.languages[n]?).join

/-- The folded word (R113), or none when a code folds to 0. -/
def fold (t : LanguageTable) (w : List Byte) : Option (List Nat) :=
  let l := w.map (tableAt t.letterMap)
  if l.contains 0 then none else some l

/-- A scope owner from its four bytes, when within its ranges (R113). -/
def scopeOf (a : ScopeArg) : Option Scope :=
  match a.scope with
  | 0 => some .house
  | 1 => some .desk
  | 2 => if a.slot ≤ 3 && a.jobId != 0 then some (.job a.slot a.jobId) else none
  | _ => none

/-- A word of the host: 2 to 31 character codes (R113). -/
def wordOk (w : List Byte) : Bool := 2 ≤ w.length && w.length ≤ 31 && w.all isCharCode

/-- Rows 1 to 3 of R113 for a language and a word: the folded word, or the status refused with. -/
def foldChecked (s : State) (language : Nat) (w : List Byte) (ownerOk : Bool) : Except Status (List Nat) :=
  if !(language ≤ 3 && wordOk w && ownerOk) then .error .range
  else match s.language language with
    | none => .error .state
    | some t =>
      match fold t w with
      | none => .error .range
      | some l => .ok l

/-- The naming checks of R113. -/
def nameEntry (s : State) : WordName → Except Status DictEntry
  | .bySlot n =>
    if n ≥ Config.dictSlots then .error .range
    else match entryAt s.dict n with
      | none => .error .absent
      | some e => .ok e
  | .byKey language w owner =>
    match foldChecked s language w (scopeOf owner).isSome with
    | .error st => .error st
    | .ok l =>
      match (scopeOf owner).bind (entryOfKey s.dict language l) with
      | none => .error .absent
      | some e => .ok e

/-! ### Replies -/

/-- A scope owner's four bytes (R207). The slot and the job id, which R207 has taken for scope JOB alone, are 0 in a reply for a HOUSE
or DESK scope (DESIGN CHOICE, log entry 5). -/
def Scope.bytes : Scope → List Byte
  | .house => num1 0 ++ num1 0 ++ num2 0
  | .desk => num1 1 ++ num1 0 ++ num2 0
  | .job slot id => num1 2 ++ num1 slot ++ num2 id

/-- A list of breaks: a position byte and a grade byte each. -/
def breakBytes (bs : List WordBreak) : List Byte := listOf (fun b => num1 b.position ++ num1 b.grade) bs

/-- An entry as QUERY WORD reports it (R120). -/
def DictEntry.bytes (e : DictEntry) : List Byte :=
  num2 e.slot ++ num1 e.language ++ listOf num1 e.word ++ e.scope.bytes ++ breakBytes e.breaks ++ num2 e.hits

/-! ### Requests -/

/-- ADD WORD (R114). Where 4096 entries are present and the owner also holds 256, FULL names the capacity (DESIGN CHOICE, log entry
28). -/
def addWordEffect (language : Nat) (w : List Byte) (bs : List WordBreak) (owner : ScopeArg) : Effect := fun s =>
  match scopeOf owner with
  | none => refuse .range s
  | some scope =>
    if !(language ≤ 3 && wordOk w && breaksOk w.length bs) then refuse .range s
    else if scope == .house && s.houseLocked then refuse .locked s
    else match s.language language with
      | none => refuse .state s
      | some t =>
        let jobOk := match scope with
          | .job slot id => (s.job slot).composing && (s.job slot).id == id
          | _ => true
        if !jobOk then refuse .state s
        else match fold t w with
          | none => refuse .range s
          | some l =>
            match entryOfKey s.dict language l scope with
            | some e => (s, { status := .duplicate, payload := num2 e.slot })
            | none =>
              let full := s.dict.length ≥ Config.dictSlots
              let owned := match scope with
                | .job slot id => s.dict.countP (isJobWord slot id)
                | _ => 0
              if full || owned ≥ Config.jobWordQuota then
                (s, { status := .full, payload := num1 (if full then 0 else 1) ++ num2 s.dict.length ++ num2 owned })
              else
                let slot := lowestFree 0 s.dict
                let e : DictEntry :=
                  { slot := slot, language := language, word := l, breaks := bs, scope := scope, hits := 0 }
                ({ s with dict := insertEntry e s.dict }, { status := .done, payload := num2 slot ++ listOf num1 l })

/-- AMEND WORD (R115). The scope in its reply is the four-byte scope owner of R207 (DESIGN CHOICE, log entry 5). -/
def amendWordEffect (name : WordName) (bs : List WordBreak) : Effect := fun s =>
  match nameEntry s name with
  | .error st => refuse st s
  | .ok e =>
    if e.scope == .house && s.houseLocked then refuse .locked s
    else if !breaksOk e.word.length bs then refuse .range s
    else
      ({ s with dict := s.dict.map fun x => if x.slot == e.slot then { x with breaks := bs } else x },
       { status := .done, payload := num2 e.slot ++ e.scope.bytes ++ num2 e.hits ++ breakBytes bs })

/-- RETIRE WORD (R116). -/
def retireWordEffect (name : WordName) : Effect := fun s =>
  match nameEntry s name with
  | .error st => refuse st s
  | .ok e =>
    if e.scope == .house && s.houseLocked then refuse .locked s
    else (retireWhere (·.slot == e.slot) s, { status := .done, payload := e.bytes })

/-- RETIRE WORDS (R117): classes JOB, DESK of a language, DESK, HOUSE of a language. -/
def retireWordsEffect (cls language jobSlot jobId : Nat) : Effect := fun s =>
  let retire := fun p : DictEntry → Bool =>
    let s' := retireWhere p s
    (s', { status := .done, payload := num2 (s.dict.countP p) ++ num2 s'.dict.length : Answer })
  match cls with
  | 0 => if jobSlot > 3 || jobId == 0 then refuse .range s else retire (isJobWord jobSlot jobId)
  | 1 => if language > 3 then refuse .range s else retire fun e => e.scope == .desk && e.language == language
  | 2 => retire fun e => e.scope == .desk
  | 3 =>
    if language > 3 then refuse .range s
    else if s.houseLocked then refuse .locked s
    else retire fun e => e.scope == .house && e.language == language
  | _ => refuse .range s

/-- PRUNE WORDS (R118): DESK entries below the threshold are retired, the others' counts are halved. -/
def pruneWordsEffect (language threshold : Nat) : Effect := fun s =>
  if language > 3 && language != 255 then refuse .range s
  else
    let judged := fun e : DictEntry => e.scope == .desk && (language == 255 || e.language == language)
    let gone := fun e : DictEntry => judged e && e.hits < threshold
    let s' := retireWhere gone s
    ({ s' with dict := s'.dict.map fun e => if judged e then { e with hits := e.hits / 2 } else e },
     { status := .done, payload := num2 (s.dict.countP gone) ++ num2 (s'.dict.countP judged) })

/-- QUERY WORD (R120). -/
def queryWordEffect (q : WordQuery) : Effect := fun s =>
  let report := fun r : Except Status DictEntry =>
    match r with
    | .error st => refuse st s
    | .ok e => (s, { status := .done, payload := e.bytes : Answer })
  match q with
  | .bySlot n => report (nameEntry s (.bySlot n))
  | .byKey language w owner => report (nameEntry s (.byKey language w owner))
  | .asSeenBy jobSlot language w =>
    if jobSlot > 3 then refuse .range s
    else if !(s.job jobSlot).composing then refuse .state s
    else match foldChecked s language w true with
      | .error st => refuse st s
      | .ok l =>
        match choose s.dict language l jobSlot (s.job jobSlot).id with
        | none => refuse .absent s
        | some e => (s, { status := .done, payload := e.bytes ++ e.scope.bytes.take 1 })

/-- The filter of LIST WORDS (R121): any scope, HOUSE, DESK, JOB of any job, JOB of one job. -/
def listFilter (language cls jobSlot jobId : Nat) (e : DictEntry) : Bool :=
  (language == 255 || e.language == language) &&
  match cls, e.scope with
  | 0, _ => true
  | 1, .house => true
  | 2, .desk => true
  | 3, .job _ _ => true
  | 4, .job slot id => slot == jobSlot && id == jobId
  | _, _ => false

/-- LIST WORDS (R121). -/
def listWordsEffect (cursor language cls jobSlot jobId : Nat) : Effect := fun s =>
  if cursor > Config.dictSlots || (language > 3 && language != 255) || cls > 4 ||
      (cls == 4 && (jobSlot > 3 || jobId == 0)) then refuse .range s
  else
    let found := (s.dict.filter fun e => cursor ≤ e.slot && listFilter language cls jobSlot jobId e).take 16
    let next := match found[15]? with
      | some e => e.slot + 1
      | none => Config.dictSlots
    (s, { status := .done, part := next < Config.dictSlots
          payload := listOf DictEntry.bytes found ++ num2 next ++ num2 s.dict.length ++
            num2 (Config.dictSlots - s.dict.length) })

end Sys2Proof.Machine
end

