-- ==== Sys2Proof/Machine/ProofLines.lean ====
section
/-! DEFINITION. The built lines of the Proof Controller: proof lines, mark lines, gap lines and spoil lines, and their bytes
(R182 to R187); and the print list they stand in (R180, R181, R186, R187). -/

namespace Sys2Proof.Machine

open Sys2Proof

/-! ### Text -/

/-- The decimal digits of a number, without leading zeros (R186): at most `fuel` of them. -/
def digits : Nat → Nat → List Byte
  | 0, _ => []
  | fuel + 1, n => (if n < 10 then [] else digits fuel (n / 10)) ++ [BitVec.ofNat 8 (0x30 + n % 10)]

/-- A number in decimal. -/
def decimal (n : Nat) : List Byte := digits 8 n

/-- The bytes of a text of printable codes. -/
def ascii (s : String) : List Byte := s.toList.map fun c => BitVec.ofNat 8 c.toNat

/-- The byte of a space. -/
def spaceByte : Byte := 0x20#8

/-- A text set right in a width, with leading spaces (R182). -/
def rightAligned (w : Nat) (t : List Byte) : List Byte := List.replicate (w - t.length) spaceByte ++ t

/-- A text set left in a width, with spaces after it (R182). -/
def leftAligned (w : Nat) (t : List Byte) : List Byte := t ++ List.replicate (w - t.length) spaceByte

/-! ### The text columns of a proof line -/

/-- A column: its character and the proof face it is marked with. -/
structure Column where
  char : Byte
  face : ProofFace
  deriving DecidableEq, Repr

/-- A blank column. -/
def Column.blank : Column := { char := spaceByte, face := .plain }

/-- A glyph with its x position and the record of its run's font. -/
structure ProofGlyph where
  code : Byte
  x    : Nat
  face : ProofFace
  map  : Option (List (Byte × Byte))

/-- The character a placed glyph prints as, none where it is substituted by '?' (R184). -/
def printedCode (g : ProofGlyph) : Option Byte :=
  if g.code.toNat ≤ 0x7E then some g.code
  else (g.map.bind fun l => l.find? fun p => p.1 == g.code).map (·.2)

/-- The first free text column from `c` on, of columns of which `taken` are not free. -/
def freeFrom (taken : List (Nat × Column)) (c : Nat) : Nat → Nat
  | 0 => c
  | fuel + 1 => if taken.any (fun p => p.1 == c) then freeFrom taken (c + 1) fuel else c

/-- Place the glyphs in the text columns (R183): the columns taken, and whether any placed glyph was substituted by '?' (R184), one
whose column the overflow mark then takes among them (DESIGN CHOICE, log entry 36). -/
def placeGlyphs (measure : Nat) : List ProofGlyph → List (Nat × Column) → Bool → List (Nat × Column) × Bool
  | [], taken, q => (taken, q)
  | g :: gs, taken, q =>
    let c := if measure == 0 then 0 else g.x * 120 / measure
    let c' := freeFrom taken c 120
    if g.x ≥ measure || c' > 119 then
      ((119, { char := 0x3E#8, face := .plain }) :: taken.filter (fun p => p.1 != 119), q)
    else
      let ch := printedCode g
      placeGlyphs measure gs (taken ++ [(c', { char := ch.getD 0x3F#8, face := g.face })]) (q || ch.isNone)

/-- The 120 text columns. -/
def textColumns (taken : List (Nat × Column)) : List Column :=
  (List.range 120).map fun c => ((taken.find? fun p => p.1 == c).map (·.2)).getD Column.blank

/-- The flag letters of a proof line (R182). -/
def flagLetters (flags : List LineFlag) (substituted : Bool) : List Byte :=
  let has := flags.contains
  (if has .hyphD then ascii "HD" else if has .hyphX then ascii "HX" else if has .hyphA then ascii "HA" else []) ++
  (if has .loose || has .letterspaced then ascii "L" else []) ++
  (if has .short || has .forced then ascii "S" else []) ++
  (if has .overset then ascii "O" else []) ++
  (if has .missing || substituted then ascii "M" else [])

/-! ### Passes (R185) -/

/-- A pass's characters from column 0 to its last column that is not a space. -/
def trimRight (l : List Byte) : List Byte := (l.reverse.dropWhile (· == spaceByte)).reverse

/-- A line's bytes: the character pass, the bold pass, the underline pass, the line feed. -/
def passes (cols : List Column) : List Byte :=
  let bold := fun c : Column => c.face == .bold || c.face == .boldUnderline
  let under := fun c : Column => c.face == .underline || c.face == .boldUnderline
  let pass := fun l : List Byte => trimRight l ++ [0x0D#8]
  pass (cols.map (·.char)) ++
  (if cols.any bold then pass (cols.map fun c => if bold c then c.char else spaceByte) else []) ++
  (if cols.any under then pass (cols.map fun c => if under c then 0x5F#8 else spaceByte) else []) ++ [0x0A#8]

/-- Plain columns of a text. -/
def plainColumns (t : List Byte) : List Column := t.map fun b => { char := b, face := .plain }

/-! ### The built lines -/

/-- The glyphs of a LINE entry with what their run's font record prints them by (R181, R184). -/
def State.proofGlyphs (s : State) : List Run → List (Byte × Nat) → List ProofGlyph
  | [], _ => []
  | r :: rs, gs =>
    let f := s.font r.font
    ((gs.take r.count).map fun g =>
      { code := g.1, x := g.2, face := (f.map (·.face)).getD .plain, map := f.bind (·.map) }) ++
    s.proofGlyphs rs (gs.drop r.count)

/-- A proof line (R182 to R185). -/
def State.proofLine (s : State) (b : LineBody) : List Byte :=
  let (taken, q) := placeGlyphs b.measure (s.proofGlyphs b.runs b.glyphs) [] false
  let margin := rightAligned 5 (decimal b.lineNumber) ++ (if b.flags.contains .spoiled then ascii "*" else ascii " ") ++
    leftAligned 5 (flagLetters b.flags q) ++ [spaceByte]
  passes (plainColumns margin ++ textColumns taken)

/-- A plain line with a blank margin but for column 5, and its text from text column 0 (R186, R187). -/
def noteLine (star : Bool) (t : List Byte) : List Byte :=
  passes (plainColumns (List.replicate 5 spaceByte ++ (if star then ascii "*" else ascii " ") ++
    List.replicate 6 spaceByte ++ t))

/-- A gap line (R186). -/
def gapLine (count : Nat) : PrintLine :=
  { kind := .gap count, bytes := noteLine false (decimal count ++ ascii " LINES NOT PROOFED") }

/-- A mark line (R187). -/
def markLine (jobId : Nat) : List Byte := noteLine false (ascii "JOB " ++ decimal jobId ++ ascii " ABORTED")

/-- A spoil line (R187). -/
def spoilLine (lineNumber jobId : Nat) : PrintLine :=
  { kind := .spoil lineNumber jobId
    bytes := noteLine true (ascii "LINE " ++ decimal lineNumber ++ ascii ", JOB " ++ decimal jobId ++ ascii " SPOILED") }

/-! ### The print list -/

/-- A built line is an entry line. -/
def PrintLine.isEntry (l : PrintLine) : Bool := match l.kind with | .entry _ => true | _ => false
/-- A built line is a gap line. -/
def PrintLine.isGap (l : PrintLine) : Bool := match l.kind with | .gap _ => true | _ => false
/-- A built line is a spoil line. -/
def PrintLine.isSpoil (l : PrintLine) : Bool := match l.kind with | .spoil _ _ => true | _ => false

/-- The proof state follows from the print list (R180). -/
def Proof.follow (p : Proof) : Proof :=
  if !p.list.isEmpty then { p with state := .printing }
  else if p.disablePending then { p with state := .disabled, disablePending := false }
  else if p.state == .disabled then p
  else { p with state := .idle }

/-- The head line leaves the list, and the next begins at its first byte (R188). -/
def Proof.dropHead (p : Proof) : Proof :=
  { p with list := p.list.drop 1, sent := 0, lead := 0, begun := false, reprint := false }.follow

/-- Printing is enabled and lines may be taken (R181, R187). -/
def Proof.taking (p : Proof) : Bool := (p.state == .idle || p.state == .printing) && !p.disablePending

/-- A spoil report builds a spoil line, or is lost (R187). -/
def Proof.spoilNote (p : Proof) (lineNumber jobId : Nat) : Proof :=
  if p.taking && p.list.countP PrintLine.isSpoil < 8 then { p with list := p.list ++ [spoilLine lineNumber jobId] }.follow
  else { p with notesLost := bump p.notesLost }

/-- An entry line not yet begun whose entry is cancelled leaves the list (R188). -/
def Proof.cancelLine (p : Proof) (serial : Nat) : Proof :=
  match p.list with
  | [] => p
  | h :: rest =>
    if h.kind == PrintKind.entry serial then (if p.begun then p else p.dropHead)
    else { p with list := h :: rest.filter fun l => l.kind != PrintKind.entry serial }.follow

/-- The gap count put on the paper as an entry is taken (R181, 1): added to a gap line not yet begun, built into a new one, or kept. A gap
line whose first byte is in transit counts as begun (DEDUCED, log entry 9). -/
def Proof.gapTaken (p : Proof) : Proof :=
  if p.gapCount == 0 then p
  else
    match p.list.find? PrintLine.isGap with
    | none => { p with list := p.list ++ [gapLine p.gapCount], gapCount := 0 }
    | some g =>
      if (p.list.head?.map PrintLine.isGap).getD false && p.begun then p
      else
        let old := match g.kind with | .gap n => n | _ => 0
        let new := gapLine (min Config.counterTop (old + p.gapCount))
        { p with list := p.list.map fun l => if l.isGap then new else l, gapCount := 0 }

/-- The printing of a line is stopped: the paper is OUT or stalled is set (R180). -/
def Proof.stopped (p : Proof) : Bool := p.paperOut || p.stalled

/-- The three conditions of the stall timer (R189). -/
def Proof.stallCondition (p : Proof) : Bool := !p.flowOn && !p.paperOut && !p.list.isEmpty

/-- The next byte is begun when the flow is ON, the paper PRESENT and a line waits (R188). The rate of a line is taken as its first
byte is begun, and that of a reprint as the carriage return before it is (DESIGN CHOICE, log entry 9); a line under way keeps its
rate (R191). -/
def Proof.sendNext (p : Proof) : Proof :=
  if p.flowOn && !p.paperOut && !p.list.isEmpty && p.transit == .none then
    { p with transit := .counted, begun := true, lineRate := if !p.begun || p.lead == 2 then p.rate else p.lineRate }
  else p

end Sys2Proof.Machine
end

