-- ==== Sys2Proof/Machine/LineQueue.lean ====
section
/-! DEFINITION. The Line Queue and what hangs on it: the heads (R44), admission and append (R130, R131), release and cancellation
(R138, R139), water marks (R133), flow pause (R134), references, claims and pins of lines (R10, R24, R25), and the return of a job
to FREE (R50). -/

namespace Sys2Proof.Machine

open Sys2Proof

/-! ### References and claims of a line -/

/-- The kind of an entry. -/
def Body.kind : Body → Kind
  | .line _ => .line
  | .move _ _ => .move
  | .cut => .cut
  | .mark => .mark

/-- The runs of an entry; kinds other than LINE have none (R129). -/
def Body.runs : Body → List Run
  | .line b => b.runs
  | _ => []

/-- The glyph slots an entry takes (R128, R129). -/
def Body.glyphCount : Body → Nat
  | .line b => b.glyphs.length
  | _ => 0

/-- The fonts an entry has a run in, each once (R8). -/
def Body.fonts (b : Body) : List Nat := distinct (b.runs.map (·.font))
/-- The stations an entry's runs use, each once (R25). -/
def Body.stations (b : Body) : List Nat := distinct (b.runs.map (·.station))

/-- The fonts a line in progress has a run in: of its placed words, or of a held LINE entry (R10, R69). -/
def LineInProgress.fonts (l : LineInProgress) : List Nat :=
  match l.held with
  | some b => b.fonts
  | none => distinct (l.glyphs.map (·.font))

/-- The stations a line in progress has a run on (R24). -/
def LineInProgress.stations (l : LineInProgress) : List Nat :=
  match l.held with
  | some b => b.stations
  | none => distinct (l.glyphs.map (·.station))

/-- References to fonts are given up by the line part (R10). -/
def State.dropLineRefs (s : State) (fonts : List Nat) : State :=
  fonts.foldl (fun s n => s.onFont n fun r => { r with linePart := r.linePart - 1 }) s
/-- References pass from the line part to the entry part (R10). -/
def State.passRefs (s : State) (fonts : List Nat) : State :=
  fonts.foldl (fun s n => s.onFont n fun r => { r with linePart := r.linePart - 1, entryPart := r.entryPart + 1 }) s
/-- References are given up by the entry part (R10). -/
def State.dropEntryRefs (s : State) (fonts : List Nat) : State :=
  fonts.foldl (fun s n => s.onFont n fun r => { r with entryPart := r.entryPart - 1 }) s
/-- Setting claims are given up (R24). -/
def State.dropClaims (s : State) (stations : List Nat) : State :=
  stations.foldl (fun s n => s.onStation n fun st => { st with claims := st.claims - 1 }) s
/-- Setting claims become pins (R24, R25). -/
def State.pinStations (s : State) (stations : List Nat) : State :=
  stations.foldl (fun s n => s.onStation n fun st => { st with claims := st.claims - 1, pins := st.pins + 1 }) s
/-- Pins are removed (R25). -/
def State.dropPins (s : State) (stations : List Nat) : State :=
  stations.foldl (fun s n => s.onStation n fun st => { st with pins := st.pins - 1 }) s

/-- A line in progress is discarded whole, and gives up its references and claims (R88). -/
def State.discardLine (s : State) (slot : Nat) : State :=
  let l := (s.job slot).line
  ((s.dropLineRefs l.fonts).dropClaims l.stations).onLine slot fun _ => LineInProgress.empty

/-! ### Counts and marks -/

/-- Entry slots in use (R126). -/
def Queue.inUse (q : Queue) : Nat := q.entries.length
/-- Glyph slots in use (R126). -/
def Queue.glyphsInUse (q : Queue) : Nat := (q.entries.map fun e => e.body.glyphCount).sum

/-- The entry of a serial. -/
def Queue.find (q : Queue) (serial : Nat) : Option Entry := q.entries.find? (·.serial == serial)

/-- Either count stands at or above its high mark (R133). -/
def Queue.atHigh (q : Queue) : Bool := q.inUse ≥ q.entryHigh || q.glyphsInUse ≥ q.glyphHigh
/-- Both counts stand at or below their low marks (R133). -/
def Queue.atLow (q : Queue) : Bool := q.inUse ≤ q.entryLow && q.glyphsInUse ≤ q.glyphLow

/-- The test after an append: the condition may set, raising QUEUE HIGH (R133). -/
def State.testHigh (s : State) : State :=
  if !s.queue.highWater && s.queue.atHigh then (s.onQueue fun q => { q with highWater := true }).raise .queueHigh else s
/-- The test after a release or removal: the condition may clear (R133). -/
def State.testLow (s : State) : State := s.onQueue fun q => { q with highWater := q.highWater && !q.atLow }

/-! ### Jobs and heads -/

/-- An entry is attributed to the job now in a slot (R44). -/
def State.ownedBy (s : State) (slot : Nat) (e : Entry) : Bool :=
  e.attributed && e.slot == slot && e.jobId == (s.job slot).id

/-- Exposure complete (R44). -/
def State.exposureComplete (s : State) (slot : Nat) : Bool :=
  let j := s.job slot
  ((j.state == .closing && j.finished) || j.state == .aborting) &&
  s.queue.entries.all fun e => !(s.ownedBy slot e) || e.expo == .done

/-- Proofing complete (R44). -/
def State.proofingComplete (s : State) (slot : Nat) : Bool :=
  let j := s.job slot
  j.params.policy == .none ||
  (((j.state == .closing && j.finished) || (j.state == .aborting && !j.markPending)) &&
    s.queue.entries.all fun e => !(s.ownedBy slot e) || e.proof == .done)

/-- The exposure head by R44. -/
def State.headForExposure (s : State) : Option Nat := s.galleyOrder.find? fun n => !s.exposureComplete n
/-- The proof head by R44. -/
def State.headForProof (s : State) : Option Nat := s.galleyOrder.find? fun n => !s.proofingComplete n

/-- The entry named for exposure: the oldest WAITING entry of the exposure head (R135). -/
def State.nextForExposure (s : State) : Option Nat :=
  s.exposureHead.bind fun n =>
    (s.queue.entries.find? fun e => s.ownedBy n e && e.expo == .waiting).map (·.serial)
/-- The entry named for proof: the oldest NOT TAKEN entry of the proof head (R135). -/
def State.nextForProof (s : State) : Option Nat :=
  s.proofHead.bind fun n =>
    (s.queue.entries.find? fun e => s.ownedBy n e && e.proof == .notTaken).map (·.serial)

/-- The heads are recomputed and reported, and the entries named again (R44, R135, R144, R180). -/
def State.recomputeHeads (s : State) : State :=
  let s := { s with exposureHead := s.headForExposure, proofHead := s.headForProof }
  let s := s.onExpo fun x => { x with named := s.nextForExposure }
  s.onProof fun p => { p with head := s.proofHead.map fun n => (n, (s.job n).id), named := s.nextForProof }

/-- Flow pause (R134). -/
def State.flowPause (s : State) : Bool :=
  s.queue.highWater &&
  match s.exposureHead with
  | none => true
  | some n => s.queue.entries.any (s.ownedBy n)

/-! ### Admission and append -/

/-- The room an item's class needs, in entry slots and glyph slots (R130). -/
def State.roomNeeded (s : State) (slot : Nat) (b : Body) : Nat × Nat :=
  if b.kind == .mark && s.proofHead == some slot then (1, 0)
  else if s.exposureHead == some slot then (2, b.glyphCount)
  else (3, if b.kind == .line then b.glyphCount + 240 else 0)

/-- The Line Queue admits an item (R130). -/
def State.admits (s : State) (slot : Nat) (b : Body) : Bool :=
  let (e, g) := s.roomNeeded slot b
  s.queue.inUse + e ≤ Config.queueSlots && (b.kind != .line || s.queue.glyphsInUse + g ≤ Config.glyphSlots)

/-- The serial of the next append (R127): the counter's value. Where a present entry still carries that value, 65,536 appends after its
own, the next value that none carries, so that the serials of present entries are distinct (DESIGN CHOICE, log entry 30). -/
def Queue.nextFree (q : Queue) : Nat :=
  (((List.range 65).map fun k => (q.nextSerial + k) % 65536).find? fun n => !q.entries.any (·.serial == n)).getD
    q.nextSerial

/-- The number after a job line number (R40). -/
def nextLineNumber (n : Nat) : Nat := if n ≥ 65535 then 1 else n + 1

/-- An entry carries a hyphen flag (R102). -/
def hasHyphen (flags : List LineFlag) : Bool := flags.contains .hyphD || flags.contains .hyphX || flags.contains .hyphA

/-- A job's counters at the append of a LINE entry (R40, R102). -/
def Job.countLine (flags : List LineFlag) (j : Job) : Job :=
  { j with
    lineNumber := nextLineNumber j.lineNumber
    linesSet := bump j.linesSet
    hyphenated := if hasHyphen flags then bump j.hyphenated else j.hyphenated
    looseLines := if flags.contains .loose then bump j.looseLines else j.looseLines
    consecutive :=
      if hasHyphen flags then j.consecutive + 1
      else if flags.contains .forced || flags.contains .overset then j.consecutive else 0 }

/-- An admitted item is appended at the tail (R131): its serial and initial fields (R127), its claims made pins, its references
passed on, its job's counters moved, and the high-water condition tested. -/
def State.appendEntry (s : State) (slot : Nat) (b : Body) : State :=
  let j := s.job slot
  let b := match b with
    | .line l => Body.line { l with lineNumber := j.lineNumber }
    | b => b
  let mark := b.kind == .mark
  let e : Entry :=
    { serial := s.queue.nextFree, slot := slot, jobId := j.id, attributed := true,
      expo := if mark then .done else .waiting,
      proof := if b.kind == .line || mark then .notTaken else .done,
      required := mark || j.params.policy == .required, body := b }
  let s := s.onQueue fun q => { q with entries := q.entries ++ [e], nextSerial := (q.nextFree + 1) % 65536 }
  let s := (s.passRefs b.fonts).pinStations b.stations
  let s := match b with
    | .line l => s.onJob slot (Job.countLine l.flags)
    | .mark => s.onJob slot fun j => { j with markPending := false }
    | _ => s
  s.testHigh

/-! ### Release and cancellation -/

/-- An entry leaves the collection, with the font references it held, and with its pins where its exposure is not done (R10, R25). -/
def State.removeEntry (s : State) (e : Entry) : State :=
  let s := s.onQueue fun q => { q with entries := q.entries.filter (·.serial != e.serial) }
  let s := s.dropEntryRefs e.body.fonts
  if e.expo == .done then s else s.dropPins e.body.stations

/-- An entry may be released (R138, R140). -/
def Entry.releasable (e : Entry) : Bool := e.expo == .done && (!e.attributed || !e.required || e.proof == .done)

/-- The policy of the job an entry is attributed to, NONE for the unattributed (R186). -/
def State.policyOf (s : State) (e : Entry) : ProofPolicy :=
  if s.ownedBy e.slot e then (s.job e.slot).params.policy else .none

/-- The entry of a serial is released when R138 allows: it leaves, the Proof Controller counts it where its job wanted a proof
(R186), and the high-water condition is tested. -/
def State.releaseIfDone (s : State) (serial : Nat) : State :=
  match s.queue.find serial with
  | none => s
  | some e =>
    if e.releasable then
      let counted := s.policyOf e == .bestEffort && e.proof == .notTaken
      let s := s.removeEntry e
      (if counted then s.onProof fun p => { p with gapCount := bump p.gapCount } else s).testLow
    else s

/-- A WAITING entry is cancelled (R139): removed, and its line not yet begun taken from the print list (R188). An entry has a line there
exactly while it is IN PRINT (R181, R137): a line of its serial otherwise is that of an entry that left 65,536 appends before. -/
def State.cancelEntry (s : State) (e : Entry) : State :=
  let s := s.removeEntry e
  if e.proof == .inPrint then s.onProof fun p => p.cancelLine e.serial else s

/-- Change the entry of a serial. -/
def Queue.modify (q : Queue) (serial : Nat) (f : Entry → Entry) : Queue :=
  { q with entries := q.entries.map fun e => if e.serial == serial then f e else e }

/-- The flag SPOILED joins a LINE entry (R128). -/
def Body.spoil : Body → Body
  | .line b => .line { b with flags := b.flags ++ [.spoiled] }
  | b => b

/-- The flag REVERSE CLAMPED of a MOVE entry (R129). -/
def Body.clamp (clamped : Bool) : Body → Body
  | .move d _ => .move d clamped
  | b => b

/-- The exposure of the entry of a serial is reported done (R136): its pins are removed, SPOILED or REVERSE CLAMPED set where
reported, the spoil report made (R187), and the entry released when R138 allows. A spoil report that builds no line, of an entry NOT
TAKEN that stays in the queue, counts no note lost (DESIGN CHOICE, log entry 36). -/
def State.exposureDone (s : State) (serial : Nat) (spoiled clamped : Bool) : State :=
  match s.queue.find serial with
  | none => s
  | some e =>
    let s := s.dropPins e.body.stations
    let s := s.onQueue fun q => q.modify serial fun e =>
      { e with expo := .done, body := if spoiled then e.body.spoil else e.body.clamp clamped }
    let note := spoiled &&
      (e.proof != .notTaken ||
        (s.policyOf e == .bestEffort && { e with expo := ExpoProgress.done : Entry }.releasable))
    let s := match e.body with
      | .line b => if note then s.onProof fun p => p.spoilNote b.lineNumber e.jobId else s
      | _ => s
    s.releaseIfDone serial

/-- The proof of the entry of a serial is reported done (R137). A report for an entry no longer present changes nothing: the entry
reported is IN PRINT, and one that carries its serial and is not IN PRINT was appended after it left. -/
def State.proofDone (s : State) (serial : Nat) : State :=
  match s.queue.find serial with
  | none => s
  | some e =>
    if e.proof == .inPrint then (s.onQueue fun q => q.modify serial fun e => { e with proof := .done }).releaseIfDone serial
    else s

/-! ### Return to FREE -/

/-- The condition of R50. -/
def State.freeable (s : State) (slot : Nat) : Bool :=
  let j := s.job slot
  ((j.state == .closing && j.finished) || (j.state == .aborting && !j.markPending)) &&
  !s.queue.entries.any (s.ownedBy slot)

/-- A job returns to FREE (R50), and its galley's owner becomes ENDED (R169). -/
def State.freeJob (s : State) (slot : Nat) : State :=
  let j := s.job slot
  let s := if j.state == .closing then retireWhere (isJobWord slot j.id) s else s
  let s := { s with galleyOrder := s.galleyOrder.filter (· != slot) }
  let s := s.onJob slot fun j =>
    { Job.free with
      id := j.id, lineNumber := j.lineNumber, consecutive := j.consecutive, linesSet := j.linesSet,
      hyphenated := j.hyphenated, looseLines := j.looseLines, missingChars := j.missingChars,
      ignoredBytes := j.ignoredBytes, clampedCodes := j.clampedCodes }
  let s := s.onFilm fun f => { f with owner := if f.owner == .job slot j.id then .ended else f.owner }
  s.raise .jobDrained

end Sys2Proof.Machine
end

