-- ==== Sys2Proof/Machine/Film.lean ====
section
/-! DEFINITION. The Film Transport's geometry (R164 to R172), and the Exposure Controller's part in the end of an entry in flight:
line done, abandonment, the end of a film operation (R147, R151 to R154). -/

namespace Sys2Proof.Machine

open Sys2Proof

/-! ### Geometry -/

/-- The job of an entry owns the galley on the film (R168). -/
def Film.ownedBy (f : Film) (e : Entry) : Bool := f.owner == .job e.slot e.jobId

/-- A galley gap is due before an entry's lead or positive move (R168). -/
def Film.gapDue (f : Film) (e : Entry) : Bool := e.attributed && f.owner != .none && !f.ownedBy e

/-- The target of a lead or positive move by a distance, with the gap taken when one is due (R167, R170). -/
def Film.leadTarget (f : Film) (gap : Option Nat) (distance : Nat) : Nat :=
  match gap with
  | some g => f.highMark + g + distance
  | none => f.baseline + distance

/-- The reverse move made for a request of `r` (R171). -/
def Film.reverseMove (f : Film) (r : Nat) : Nat :=
  min r (min (Config.reverseAllowance + f.baseline - f.highMark) (f.baseline - f.origin))

/-- The film-out test fails (R146, R172). -/
def Film.filmOut (f : Film) (target : Nat) : Bool := target + Config.cutReserve > f.loaded

/-- The target of a feed (R175). -/
def Film.cutTarget (f : Film) : Nat := min (f.highMark + Config.cutReserve) f.loaded

/-- The low-film condition as R172 judges it. -/
def Film.low (f : Film) : Bool := f.loaded > 0 && f.loaded < f.highMark + f.lowThreshold

/-- The low-film condition is judged; its setting raises FILM LOW (R172). A condition that stood set already and is judged set again, at
LOAD FILM too, raises nothing (DESIGN CHOICE, log entry 32). -/
def State.judgeLow (s : State) : State :=
  let was := s.film.lowCondition
  (s.onFilm fun f => { f with lowCondition := f.low }).raiseIf (!was && s.film.low) .filmLow

/-- The geometry a jam leaves (R166). -/
def Film.jam (f : Film) : Film :=
  let y := min (max f.measured (max f.origin (f.highMark - Config.reverseAllowance) - 1)) (f.loaded + 1)
  { f with state := .jammed, mover := .none, jams := bump f.jams, baseline := y, highMark := max f.highMark (min y f.loaded) }

/-! ### The turret's line-open condition and the LINE EXPOSED timers -/

/-- The line ends at the turret, or at the arrival of the EXPOSURE rotation still under way (R27). -/
def Turret.lineEnd (t : Turret) : Turret :=
  match t.motion with
  | .rotating .exposure _ => { t with lineEndDue := true }
  | _ => { t with lineOpen := false, lineEndDue := false }

/-- A line done restarts the LINE EXPOSED delay, or delivers at once with a delay or limit of 0 (R203). -/
def State.lineExposedDelay (s : State) : State :=
  if s.link.delayMs == 0 || s.link.limitMs == 0 then
    (s.onLink fun l => { l with delayTimer := none, absTimer := none }).raise .lineExposed
  else
    s.onLink fun l =>
      { l with delayTimer := some l.delayMs, absTimer := l.absTimer.orElse fun _ => some l.limitMs }

/-! ### Stops and ends -/

/-- Reasons join the stop-reason set, which is empty outside STOPPED (R154). -/
def Exposure.stop (x : Exposure) (cover lamp filmOut jam : Bool) : Exposure :=
  let old := if x.state == .stopped then x.stops else Stops.none
  { x with
    state := .stopped
    stops := { cover := old.cover || cover, lamp := old.lamp || lamp, filmOut := old.filmOut || filmOut,
               jam := old.jam || jam } }

/-- A clean end: HELD with its notice when the hold request is set, else IDLE (R151, R153). -/
def State.cleanEnd (s : State) : State :=
  let s := s.onExpo fun x => { x with flight := none }
  if s.expo.holdRequest then (s.onExpo fun x => { x with holdRequest := false, state := .held }).raise .held
  else s.onExpo fun x => { x with state := .idle }

/-- An end in STOPPED, with the conditions recorded against the entry; the hold request is cleared without HELD (R152, R155). -/
def State.stoppedEnd (s : State) (fl : Flight) (cover lamp jam : Bool) : State :=
  s.onExpo fun x =>
    { x with flight := none, holdRequest := false }.stop (fl.coverSeen || cover) (fl.lampSeen || lamp) false jam

/-- A line is done (R151). -/
def State.lineDone (s : State) (fl : Flight) : State :=
  let s := s.exposureDone fl.serial false false
  let s := s.onTurret Turret.lineEnd
  let s := s.onExpo fun x =>
    { x with carriage := 0, carriageTarget := none, lastExposed := some fl.serial, linesExposed := bump x.linesExposed }
  s.lineExposedDelay.cleanEnd

/-- A line is abandoned (R152). A flash under way is left to end at its FLASH COMPLETE, which takes its sample (DESIGN CHOICE, log
entry 34). -/
def State.abandon (s : State) (fl : Flight) (cover lamp : Bool) : State :=
  let s := s.exposureDone fl.serial true false
  let s := s.onTurret Turret.lineEnd
  let s := s.onExpo fun x => { x with carriage := 0, carriageTarget := none, linesSpoiled := bump x.linesSpoiled }
  (s.stoppedEnd fl cover lamp false).raise .lineSpoiled

/-- A film operation ends: the entry is reported done, and the state follows from what was recorded (R153). -/
def State.operationEnd (s : State) (fl : Flight) (clamped jam : Bool) : State :=
  let s := s.exposureDone fl.serial false clamped
  if jam || fl.coverSeen || fl.lampSeen then s.stoppedEnd fl false false jam else s.cleanEnd

/-- A lead that ended jammed: the entry returns to WAITING, and the line ends at the turret (R147). -/
def State.undispatch (s : State) (fl : Flight) : State :=
  let s := s.onQueue fun q => q.modify fl.serial fun e => { e with expo := .waiting }
  let s := s.onTurret Turret.lineEnd
  s.stoppedEnd fl false false true

/-! ### Runs -/

/-- The LINE contents of the entry in flight. -/
def State.flightLine (s : State) (fl : Flight) : Option LineBody :=
  (s.queue.find fl.serial).bind fun e =>
    match e.body with
    | .line b => some b
    | _ => none

/-- The run reached. -/
def State.flightRun (s : State) (fl : Flight) : Option Run := (s.flightLine fl).bind fun b => b.runs[fl.run]?

/-- The x position of the glyph reached. -/
def State.flightX (s : State) (fl : Flight) : Nat :=
  match s.flightLine fl with
  | none => 0
  | some b => ((b.glyphs[((b.runs.take fl.run).map (·.count)).sum + fl.glyph]?).map (·.2)).getD 0

/-- The lens's target when a size is needed: that of a move under way, which runs to its arrival; else none where the lens stands at
the size (R148, R152). -/
def Exposure.lensFor (x : Exposure) (size : Nat) : Option Nat :=
  x.lensTarget.orElse fun _ => if x.lens == some size then none else some size

/-- A run is begun: its station is selected unless it rests in the optical path, its size is asked of the lens unless the lens
stands at it (R148). A lens move under way runs to its arrival (R152), and the size is asked after it (`reactRun`). -/
def State.startRun (s : State) (fl : Flight) : State :=
  match s.flightRun fl with
  | none => s
  | some r =>
    let here := s.turret.motion == .atRest && s.turret.position == r.station
    s.onExpo fun x =>
      { x with
        state := .selecting
        flight := some { fl with selecting := !here }
        lensTarget := x.lensFor r.size }

/-- The lead has ended verified: the line is abandoned for what was recorded, or its first run begun (R147). -/
def State.leadEnd (s : State) (fl : Flight) : State :=
  if fl.coverSeen || fl.lampSeen then s.abandon fl false false else s.startRun { fl with leadDone := true }

/-! ### Moves -/

/-- The galley owner and origin at the verified end of a lead or positive move (R167, R170). -/
def Film.recordGalley (f : Film) (oldHigh : Nat) (gap : Option Nat) (e : Option Entry) : Film :=
  let job := match e with
    | some e => if e.attributed then Owner.job e.slot e.jobId else f.owner
    | none => f.owner
  match gap with
  | some g => { f with origin := oldHigh + g, owner := job }
  | none => if f.owner == .none then { f with owner := job } else f

/-- A move has ended verified (R165): Y takes the target, and the block that asked for it goes on (R167, R170, R171, R175). The low-film
condition is judged here, for a cut at the end of its feed and not at the completion of the cut (R172; DEDUCED, log entry 35). -/
def State.moveVerified (s : State) : State :=
  let f := s.film
  let target := f.target.getD f.baseline
  let rest := { f with baseline := target, highMark := max f.highMark target, state := .atRest, mover := .none }
  let entry := s.expo.flight.bind fun fl => s.queue.find fl.serial
  match f.mover with
  | .lead gap =>
    let s := (s.onFilm fun _ => rest.recordGalley f.highMark gap entry).judgeLow
    match s.expo.flight with
    | some fl => s.leadEnd fl
    | none => s
  | .forward gap =>
    let s := (s.onFilm fun _ => rest.recordGalley f.highMark gap entry).judgeLow
    match s.expo.flight with
    | some fl => s.operationEnd fl false false
    | none => s
  | .reverse clamped =>
    let s := ((s.onFilm fun _ => rest).judgeLow).raiseIf clamped .reverseClamped
    match s.expo.flight with
    | some fl => s.operationEnd fl clamped false
    | none => s
  | .cutEntry => (s.onFilm fun _ => { rest with state := .cutting, mover := .cutEntry }).judgeLow
  | .hostCut w => (s.onFilm fun _ => { rest with state := .cutting, mover := .hostCut w }).judgeLow
  | .none => s.onFilm fun _ => rest

/-- A jam of the host's feed and cut reaches the Exposure Controller (R154). -/
def State.hostJam (s : State) : State :=
  s.onExpo fun x =>
    if x.state == .idle || x.state == .waitingLamp || x.state == .stopped then x.stop false false false true else x

/-- The block that asked for the work is told that it ended jammed (R147, R153, R154). -/
def State.tellJam (s : State) (m : Mover) : State :=
  match m, s.expo.flight with
  | .lead _, some fl => s.undispatch fl
  | .forward _, some fl => s.operationEnd fl false true
  | .reverse clamped, some fl => (s.raiseIf clamped .reverseClamped).operationEnd fl clamped true
  | .cutEntry, some fl => s.operationEnd fl false true
  | .hostCut _, _ => s.hostJam
  | _, _ => s

/-- A move ends in a jam (R166). -/
def State.moveJam (s : State) : State := ((s.onFilm Film.jam).raise .filmJam).tellJam s.film.mover

/-- A film move is begun (R165): jammed at once on an ABSENT reading, verified at once when no motion is needed. A feed begun in JAMMED
leaves it here, at its beginning (R165, R175), and not at its verified end (R166; DEDUCED, log entry 35). -/
def State.beginMove (s : State) (m : Mover) (target : Nat) (feed : Bool) : State :=
  let s := s.onFilm fun f => { f with mover := m, target := some target, trims := 0 }
  if !s.film.present then s.moveJam
  else if target == s.film.baseline then s.moveVerified
  else s.onFilm fun f => { f with state := if feed then .feeding else .moving }

/-- A move or one of its trims is under way (R166). -/
def Film.inMove (f : Film) : Bool := f.state == .moving || f.state == .trimming || f.state == .feeding

/-- Two positions lie within 1 eu (R165). -/
def within1 (a b : Nat) : Bool := a ≤ b + 1 && b ≤ a + 1

/-- DRIVE STOP with the encoder's reading (R165). -/
def driveStopEffect (reading : Nat) (s : State) : State :=
  if s.film.inMove then
    let s := s.onFilm fun f => { f with measured := reading }
    let target := s.film.target.getD s.film.baseline
    if within1 reading target then s.moveVerified
    else if s.film.trims < 5 then
      s.onFilm fun f =>
        { f with trims := f.trims + 1, state := if f.state == .feeding then .feeding else .trimming }
    else s.moveJam
  else s

/-- FILM PRESENT CHANGE (R166). -/
def filmPresentChangeEffect (present : Bool) (s : State) : State :=
  let s := s.onFilm fun f => { f with present := present }
  if !present && s.film.inMove then s.moveJam else s

/-- CUTTER HOME: the cut is complete (R175). -/
def cutterHomeEffect (s : State) : State :=
  if s.film.state == .cutting then
    let p := s.film.target.getD s.film.baseline
    let m := s.film.mover
    let s := s.onFilm fun f =>
      { f with origin := p, baseline := p, highMark := p, owner := .none, cuts := bump f.cuts, lastCut := some p,
               state := .atRest, mover := .none }
    let s := (s.raise .cutDone).judgeLow
    match m, s.expo.flight with
    | .cutEntry, some fl => s.operationEnd fl false false
    | .hostCut true, _ => s.onExpo fun x => { x with stops := { x.stops with jam := false } }
    | _, _ => s
  else s

/-- CUTTER TIMEOUT: the film is fed but not cut (R175). -/
def cutterTimeoutEffect (s : State) : State :=
  if s.film.state == .cutting then
    let m := s.film.mover
    let s := s.onFilm fun f => { f with state := .jammed, mover := .none, jams := bump f.jams }
    (s.raise .filmJam).tellJam m
  else s

/-! ### Dispatch -/

/-- An entry is put in flight (R145), and its film work asked for (R147, R153). -/
def State.putInFlight (s : State) (e : Entry) (gap : Option Nat) : State :=
  let s := s.onQueue fun q => q.modify e.serial fun e => { e with expo := .inFlight }
  let fl : Flight :=
    { serial := e.serial, kind := e.body.kind, attributed := e.attributed, run := 0, glyph := 0, leadDone := false,
      selecting := false, coverSeen := false, lampSeen := false }
  let s := s.onExpo fun x => { x with flight := some fl, state := if fl.kind == .line then .leading else .filmOperation }
  match e.body with
  | .line b =>
    let s := s.onTurret fun t => { t with lineOpen := true, lineEndDue := false }
    s.beginMove (.lead gap) (s.film.leadTarget gap b.depth) false
  | .move d _ =>
    if d < 0 then
      let c := s.film.reverseMove d.natAbs
      s.beginMove (.reverse (c < d.natAbs)) (s.film.baseline - c) false
    else s.beginMove (.forward gap) (s.film.leadTarget gap d.natAbs) false
  | .cut => s.beginMove .cutEntry s.film.cutTarget true
  | .mark => s

/-- The distance of an entry's film-out test, none where none is made (R146). -/
def Body.testDistance : Body → Option Nat
  | .line b => some b.depth
  | .move d _ => if d > 0 then some d.natAbs else none
  | _ => none

/-- DISPATCH (R145, R146): taken from IDLE, or from WAITING LAMP once the lamp is READY, when an entry is named and the transport is
AT REST; otherwise it is no occasion for a dispatch. The entry named is a WAITING one (R135). -/
def dispatchEffect (s : State) : State :=
  match s.expo.named.bind s.queue.find with
  | none => s
  | some e =>
    let lampOk := e.body.kind != .line || s.lamp.state == .ready
    if (s.expo.state == .idle || s.expo.state == .waitingLamp) && s.film.state == .atRest && e.expo == .waiting && lampOk then
      match e.body.testDistance with
      | none => s.putInFlight e none
      | some d =>
        let gap := if s.film.gapDue e then some s.galleyGap else none
        if s.film.filmOut (s.film.leadTarget gap d) then
          (s.onExpo fun x => x.stop false false true false).raise .filmOut
        else s.putInFlight e gap
    else s

end Sys2Proof.Machine
end

