-- ==== Sys2Proof/Machine/Lamp.lean ====
section
/-! DEFINITION. The Lamp Monitor (R157 to R161), the flashing of glyphs (R148 to R150), and the requests and query of the Exposure
chapter (R155, R156, R159, R161, R162). -/

namespace Sys2Proof.Machine

open Sys2Proof

/-! ### Cover and lamp reaching the Exposure Controller -/

/-- A cover-open event or a lamp fault reaches the Exposure Controller (R147, R152, R153, R154). -/
def State.exposureEvent (s : State) (cover lamp : Bool) : State :=
  match s.expo.state, s.expo.flight with
  | .idle, _ | .waitingLamp, _ | .stopped, _ => s.onExpo fun x => x.stop cover lamp false false
  | .leading, some fl | .filmOperation, some fl =>
    s.onExpo fun x =>
      { x with flight := some { fl with coverSeen := fl.coverSeen || cover, lampSeen := fl.lampSeen || lamp } }
  | .selecting, some fl | .waitingTurret, some fl | .flashing, some fl => s.abandon fl cover lamp
  | _, _ => s

/-! ### Lamp states -/

/-- The lamp enters FAULT: it is switched off, LAMP FAULT is raised and the fault reported (R158). -/
def State.faultLamp (s : State) (r : LampFault) : State :=
  let s := s.onLamp fun l =>
    { l with state := .fault r, ignitionTimer := false, economyTimer := none, recoveryTimer := false, validityTimer := false }
  (s.raise .lampFault).exposureEvent false true

/-- The weak flag by L (R158). -/
def Lamp.judgeWeak (l : Lamp) : Bool :=
  if l.index < l.weakLimit then true
  else if l.weakLimit + Config.weakHysteresis ≤ l.index then false
  else l.weak

/-- The weak flag and the fail limit judge L in READY and RECOVERING (R158). -/
def State.judgeLamp (s : State) : State :=
  if s.lamp.state == .ready || s.lamp.state == .recovering then
    let was := s.lamp.weak
    let s := (s.onLamp fun l => { l with weak := l.judgeWeak }).raiseIf (!was && s.lamp.judgeWeak) .lampWeak
    if s.lamp.index < s.lamp.failLimit then s.faultLamp .output else s
  else s

/-- The lamp enters READY: LAMP leaves the stop-reason set (R154), and L is judged (R158). -/
def State.lampReady (s : State) : State :=
  let s := s.onLamp fun l => { l with state := .ready, ignitionTimer := false, recoveryTimer := false }
  (s.onExpo fun x => { x with stops := { x.stops with lamp := false } }).judgeLamp

/-- A valid sample folds into L (R157). -/
def foldIndex (l s : Nat) : Nat := (7 * l + s + 4) / 8

/-- A photocell sample reaches the Lamp Monitor (R157). -/
def State.takeSample (s : State) (sample : Nat) : State :=
  let valid := 1 ≤ sample && sample ≤ 4094
  match s.lamp.state with
  | .off => s
  | .fault _ =>
    s.onLamp fun l =>
      if valid then { l with index := foldIndex l.index sample } else { l with invalid := min 3 (l.invalid + 1) }
  | .economy =>
    if valid then s.onLamp fun l => { l with invalid := 0 }
    else
      let s := s.onLamp fun l => { l with invalid := min 3 (l.invalid + 1) }
      if s.lamp.invalid ≥ 3 then s.faultLamp .sensor else s
  | _ =>
    if valid then (s.onLamp fun l => { l with index := foldIndex l.index sample, invalid := 0 }).judgeLamp
    else
      let s := s.onLamp fun l => { l with invalid := min 3 (l.invalid + 1) }
      if s.lamp.invalid ≥ 3 then s.faultLamp .sensor else s

/-- PHOTOCELL SAMPLE: the samples taken every 100 ms while the lamp is not OFF (R157). -/
def photocellSampleEffect (sample : Nat) (s : State) : State := s.takeSample sample

/-- IGNITION TIMER EXPIRY (R159); the validity timer starts with READY (R157). -/
def ignitionExpiryEffect (s : State) : State :=
  if s.lamp.ignitionTimer && s.lamp.state == .igniting then
    if s.lamp.weakLimit ≤ s.lamp.index then
      ((s.onLamp fun l => { l with validityTimer := true }).raise .lampReady).lampReady
    else s.faultLamp .output
  else s

/-- ECONOMY TIMER EXPIRY (R160). -/
def economyExpiryEffect (s : State) : State :=
  if s.lamp.economyTimer.isSome && s.lamp.state == .ready then
    s.onLamp fun l => { l with state := .economy, economyTimer := none }
  else s

/-- RECOVERY TIMER EXPIRY (R160). -/
def recoveryExpiryEffect (s : State) : State :=
  if s.lamp.recoveryTimer && s.lamp.state == .recovering then s.lampReady else s

/-- VALIDITY TIMER EXPIRY (R157). -/
def validityExpiryEffect (s : State) : State :=
  if s.lamp.validityTimer && (s.lamp.state == .ready || s.lamp.state == .economy || s.lamp.state == .recovering) then
    s.faultLamp .sensor
  else s

/-! ### Flashes -/

/-- The base duration of a size (R150). -/
def flashBase (size : Nat) : Nat := 24 + size * 3 / 16
/-- The density correction, rounded half up (R150). -/
def flashDensity (base : Nat) (g : Int) : Int := (base * (128 + 2 * g) + 64).ediv 128
/-- The lamp correction, rounded half up (R150). -/
def flashLamp (d : Int) (l : Nat) : Int := (d * 2048 + (l / 2 : Nat)).ediv l
/-- The duration before its clamp (R150). -/
def rawDuration (size : Nat) (g o : Int) (l : Nat) : Int := flashLamp (flashDensity (flashBase size) g) l + o
/-- The duration of a flash (R150). -/
def flashDuration (size : Nat) (g o : Int) (l : Nat) : Nat := (min 320 (max 10 (rawDuration size g o l))).toNat

/-- CARRIAGE ARRIVAL: the carriage rests at the glyph's position; the duration is computed and the lamp flashed (R149, R150). -/
def carriageArrivalEffect (s : State) : State :=
  match s.expo.carriageTarget, s.expo.flight with
  | some x, some fl =>
    if s.expo.state == .flashing then
      match s.flightRun fl with
      | none => s
      | some r =>
        let f := s.font r.font
        let g := (f.map (·.gain)).getD 0
        let o := (f.map (·.offset)).getD 0
        let raw := rawDuration r.size g o s.lamp.index
        s.onExpo fun e =>
          { e with carriage := x, carriageTarget := none, flashing := true,
                   lastDuration := some (flashDuration r.size g o s.lamp.index),
                   lastClamped := raw < 10 || 320 < raw }
    else s
  | _, _ => s

/-- LENS ARRIVAL (R148). -/
def lensArrivalEffect (s : State) : State :=
  match s.expo.lensTarget with
  | none => s
  | some z => s.onExpo fun x => { x with lens := some z, lensTarget := none }

/-- After a flash: the next glyph of the run, the next run, or the line's end (R149). -/
def State.nextGlyph (s : State) (fl : Flight) : State :=
  match s.flightLine fl with
  | none => s
  | some b =>
    let count := ((b.runs[fl.run]?).map (·.count)).getD 0
    if fl.glyph + 1 < count then
      let fl := { fl with glyph := fl.glyph + 1 }
      s.onExpo fun x => { x with flight := some fl, carriageTarget := some (s.flightX fl) }
    else if fl.run + 1 < b.runs.length then s.startRun { fl with run := fl.run + 1, glyph := 0 }
    else s.lineDone fl

/-- FLASH COMPLETE: the flash ends, its sample is taken, and, unless the sample's fault has abandoned the line, the glyph reached
advances (R149, R157). -/
def flashCompleteEffect (sample : Nat) (s : State) : State :=
  if s.expo.flashing then
    let s := (s.onExpo fun x => { x with flashing := false }).takeSample sample
    match s.expo.flight with
    | none => s
    | some fl => if s.expo.state == .flashing then s.nextGlyph fl else s
  else s

/-! ### Codes and requests -/

/-- The byte of an exposure state, in the order of the Exposure Controller's table. -/
def ExpoState.code : ExpoState → Nat
  | .idle => 0 | .waitingLamp => 1 | .leading => 2 | .selecting => 3 | .waitingTurret => 4 | .flashing => 5
  | .filmOperation => 6 | .held => 7 | .stopped => 8

/-- The byte of a lamp state, in the Lamp Monitor's order. -/
def LampState.code : LampState → Nat
  | .off => 0 | .igniting => 1 | .ready => 2 | .economy => 3 | .recovering => 4 | .fault _ => 5

/-- The fault reason of a lamp state. -/
def LampState.reason : LampState → Option Nat
  | .fault .output => some 0
  | .fault .sensor => some 1
  | _ => none

/-- The lamp state with any fault reason. -/
def LampState.bytes (l : LampState) : List Byte := num1 l.code ++ optOf num1 l.reason

/-- The stop-reason set as a bit set (R207). It stands in a reply in every exposure state, with no presence byte, and is empty outside
STOPPED (R154), though the controller's table has it present while STOPPED (DESIGN CHOICE, log entry 5). -/
def Stops.bytes (x : Stops) : List Byte := num1 (bitSet [x.cover, x.lamp, x.filmOut, x.jam])

/-- The stop-reason set is empty. -/
def Stops.isEmpty (x : Stops) : Bool := !(x.cover || x.lamp || x.filmOut || x.jam)

/-- The byte of a kind, in the order of R127. -/
def Kind.code : Kind → Nat
  | .line => 0 | .move => 1 | .cut => 2 | .mark => 3

/-- HOLD EXPOSURE (R155). -/
def holdExposureEffect : Effect := fun s =>
  match s.expo.state with
  | .idle | .waitingLamp => done ((s.onExpo fun x => { x with state := .held }).raise .held)
  | .held => done s
  | .stopped => refuse .state s
  | _ => (s.onExpo fun x => { x with holdRequest := true }, { status := .started })

/-- The lamp bars a release: OFF, IGNITING or FAULT (R156). -/
def LampState.barsRelease : LampState → Bool
  | .off | .igniting | .fault _ => true
  | _ => false

/-- RELEASE EXPOSURE (R156). The lamp state in the reply of one refused carries its fault reason, behind a presence byte, as that of QUERY
EXPOSURE does (DESIGN CHOICE, log entry 37). -/
def releaseExposureEffect : Effect := fun s =>
  match s.expo.state with
  | .held | .stopped =>
    if !s.expo.stops.isEmpty || s.film.coverOpen || s.film.state == .jammed || s.lamp.state.barsRelease then
      (s, { status := .state, payload := s.expo.stops.bytes ++ s.lamp.state.bytes })
    else done (s.onExpo fun x => { x with state := .idle })
  | .idle | .waitingLamp => done s
  | _ => done (s.onExpo fun x => { x with holdRequest := false })

/-- LAMP ON (R159). -/
def lampOnEffect : Effect := fun s =>
  match s.lamp.state with
  | .off =>
    (s.onLamp fun l => { l with state := .igniting, invalid := 0, ignitionTimer := true }, { status := .started })
  | .fault _ => refuse .state s
  | _ => done s

/-- A LINE entry is in flight. -/
def Exposure.lineInFlight (x : Exposure) : Bool := (x.flight.map fun fl => fl.kind == .line).getD false

/-- LAMP OFF (R158, R159). -/
def lampOffEffect : Effect := fun s =>
  if s.expo.lineInFlight then refuse .busy s
  else match s.lamp.state with
    | .off => done s
    | _ =>
      done (s.onLamp fun l =>
        { l with state := .off, invalid := 0, weak := false, ignitionTimer := false, economyTimer := none,
                 recoveryTimer := false, validityTimer := false })

/-- SET LAMP (R161). -/
def setLampEffect (w f timeout : Nat) : Effect := fun s =>
  if !(2 ≤ w && w ≤ 4031 && 1 ≤ f && f ≤ w - 1 && timeout ≤ 255) then refuse .range s
  else
    done (s.onLamp fun l =>
      { l with weakLimit := w, failLimit := f, economyTimeout := timeout,
               economyTimer := if l.economyTimer.isSome && timeout > 0 then some timeout else none }).judgeLamp

/-- QUERY EXPOSURE (R162). The lens's motion is one byte, AT REST 0 and MOVING 1, with the target of the move behind a presence byte;
the run reached is numbered from 0 in the entry, and the glyph reached from 0 in its run (DESIGN CHOICE, log entry 31); the size of a
lens that is UNDETERMINED is given as absent (DESIGN CHOICE, log entry 37). -/
def queryExposureEffect : Effect := fun s =>
  let x := s.expo
  let l := s.lamp
  (s, { status := .done
        payload := num1 x.state.code ++ x.stops.bytes ++ flag1 x.holdRequest ++
          optOf (fun fl : Flight => num2 fl.serial ++ num1 fl.kind.code ++
            flag1 (((s.queue.find fl.serial).map (·.attributed)).getD fl.attributed) ++ num1 fl.run ++ num1 fl.glyph ++
            flag1 fl.leadDone) x.flight ++
          optOf num2 x.named ++ optOf num2 x.lastExposed ++ num2 x.linesExposed ++ num2 x.linesSpoiled ++
          optOf num2 x.lens ++ flag1 x.lensTarget.isSome ++ optOf num2 x.lensTarget ++ num2 x.carriage ++
          optOf num2 x.lastDuration ++ flag1 x.lastClamped ++ l.state.bytes ++ num2 l.index ++ num2 l.weakLimit ++ num2 l.failLimit ++ flag1 l.weak ++
          num1 l.invalid ++ num1 l.economyTimeout ++
          num1 (bitSet [l.ignitionTimer, l.economyTimer.isSome, l.recoveryTimer, l.validityTimer]) })

end Sys2Proof.Machine
end

