-- ==== Sys2Proof/Machine/Measure.lean ====
section
/-! DEFINITION. Measurement and justification: runs, advances, gaps and pairs, the fit test, the distributions, the positions
(R71 to R76, R80 to R84). All sums are in fine units. -/

namespace Sys2Proof.Machine

open Sys2Proof

/-! ### Runs and advances -/

/-- Two neighbouring glyphs belong to one run: one font and one size (R71). -/
def sameRun (a b : Glyph) : Bool := a.font == b.font && a.size == b.size

/-- The runs of a line (R71, R85). -/
def runsOf : List Glyph → List Run
  | [] => []
  | g :: gs =>
    match gs.head?, runsOf gs with
    | some h, r :: rs =>
      if sameRun g h then { r with count := r.count + 1 } :: rs
      else { station := g.station, font := g.font, size := g.size, count := 1 } :: r :: rs
    | _, rs => { station := g.station, font := g.font, size := g.size, count := 1 } :: rs

/-- The width of a glyph in its font's record. -/
def State.glyphWidth (s : State) (g : Glyph) : Nat := ((s.font g.font).map (·.width g.code)).getD 0

/-- The unadjusted advance: width times size times 5 (R73). -/
def State.plainAdvance (s : State) (g : Glyph) : Nat := s.glyphWidth g * g.size * 5

/-- The advance of a glyph followed by `h` in the same run with no gap between (R73). -/
def State.kernedAdvance (s : State) (g h : Glyph) : Nat :=
  let k := ((s.font g.font).map (·.kern g.code h.code)).getD 0
  ((s.plainAdvance g : Int) + k * g.size * 5).toNat

/-- The advances of a line, each from its final neighbour (R73). -/
def State.advances (s : State) : List Glyph → List Nat
  | [] => []
  | g :: gs =>
    (match gs.head? with
      | some h => if sameRun g h && !h.gap then s.kernedAdvance g h else s.plainAdvance g
      | none => s.plainAdvance g) :: s.advances gs

/-- The sizes of a line's gaps, from the glyph before each (R74). -/
def gapSizes : List Glyph → List Nat
  | [] => []
  | g :: gs =>
    match gs.head? with
    | some h => if h.gap then g.size :: gapSizes gs else gapSizes gs
    | none => gapSizes gs

/-- The sizes of a line's letter pairs, from the first glyph of each (R74). -/
def pairSizes : List Glyph → List Nat
  | [] => []
  | g :: gs =>
    match gs.head? with
    | some h => if h.gap then pairSizes gs else g.size :: pairSizes gs
    | none => pairSizes gs

/-- A number of width units at each of some sizes, in fu (R74). -/
def atSizes (wu : Nat) (sizes : List Nat) : List Nat := sizes.map fun z => wu * (z * 5)

/-- The available width W (R75). -/
def LineParams.width (p : LineParams) : Nat := (p.measure - p.effLeft - p.right) * 128

/-- The fit test (R76). -/
def State.fits (s : State) (p : LineParams) (gs : List Glyph) : Bool :=
  (s.advances gs).sum + (atSizes p.spaceMin (gapSizes gs)).sum ≤ p.width &&
  gs.length ≤ Config.lineGlyphs && (runsOf gs).length ≤ Config.lineRuns

/-! ### Distributions -/

/-- Proportional shares, the remainder one unit each to the first shares from the left (R80). -/
def share (total : Nat) (sizes : List Nat) : List Nat :=
  let floors := sizes.map fun z => total * z / sizes.sum
  let r := total - floors.sum
  floors.zipIdx.map fun x => if x.2 < r then x.1 + 1 else x.1

/-- One unit each to the shares below their cap, from the left (R81). -/
def topUp : Nat → List (Nat × Nat) → List Nat
  | _, [] => []
  | r, (x, cap) :: l => if 0 < r && x < cap then (x + 1) :: topUp (r - 1) l else x :: topUp r l

/-- Shares lowered to their caps, with the remainder topped up (R81). -/
def cappedShare (total : Nat) (sizes caps : List Nat) : List Nat :=
  let shares := (sizes.zip caps).map fun p => min (total * p.1 / sizes.sum) p.2
  topUp (total - shares.sum) (shares.zip caps)

/-- The spacing of a line: the widths of its gaps, the letterspace of its pairs, its offset and the flags of its mode. -/
structure Spacing where
  gaps   : List Nat
  pairs  : List Nat
  offset : Nat
  flags  : List LineFlag
  deriving DecidableEq, Repr

/-- LETTERSPACED when any pair received more than 0. -/
def spacedFlag (pairs : List Nat) : List LineFlag := if pairs.any (· > 0) then [.letterspaced] else []

/-- Justification of a line with gaps (R80, R81). -/
def justifyGaps (p : LineParams) (space : Nat) (gaps pairs : List Nat) : Spacing :=
  let widths := share space gaps
  let maxes := atSizes p.spaceMax gaps
  if (widths.zip maxes).all fun x => x.1 ≤ x.2 then
    { gaps := widths, pairs := pairs.map fun _ => 0, offset := 0, flags := [] }
  else
    let excess := space - maxes.sum
    let caps := atSizes p.letterMax pairs
    if excess ≤ caps.sum then
      let ps := cappedShare excess pairs caps
      { gaps := maxes, pairs := ps, offset := 0, flags := spacedFlag ps }
    else
      { gaps := List.zipWith (· + ·) maxes (share (excess - caps.sum) gaps), pairs := caps, offset := 0,
        flags := .loose :: spacedFlag caps }

/-- Justification of a single word (R82). -/
def justifyWord (p : LineParams) (space : Nat) (pairs : List Nat) : Spacing :=
  let caps := atSizes p.letterMax pairs
  if !pairs.isEmpty && space ≤ caps.sum then
    let ps := cappedShare space pairs caps
    { gaps := [], pairs := ps, offset := 0, flags := spacedFlag ps }
  else { gaps := [], pairs := caps, offset := 0, flags := .short :: spacedFlag caps }

/-- A ragged line (R83). -/
def setRagged (p : LineParams) (mode : QuadMode) (space : Nat) (gaps pairs : List Nat) : Spacing :=
  let opts := atSizes p.spaceOpt gaps
  let zero := pairs.map fun _ => 0
  if space < opts.sum then { gaps := share space gaps, pairs := zero, offset := 0, flags := [] }
  else
    let free := space - opts.sum
    let offset := match mode with
      | .justify | .left => 0
      | .right => free
      | .center => free / 2
    { gaps := opts, pairs := zero, offset := offset, flags := [] }

/-- The spacing of a set line (R80 to R83). -/
def State.spacing (s : State) (p : LineParams) (gs : List Glyph) (last overset : Bool) : Spacing :=
  let space := p.width - (s.advances gs).sum
  let gaps := gapSizes gs
  let pairs := pairSizes gs
  if overset then { gaps := gaps.map fun _ => 0, pairs := pairs.map fun _ => 0, offset := 0, flags := [] }
  else if p.quad == .justify && !last then
    if gaps.isEmpty then justifyWord p space pairs else justifyGaps p space gaps pairs
  else setRagged p p.quad space gaps pairs

/-! ### Positions -/

/-- The codes and x positions of a line's glyphs (R84); `before` is the sum, in fu, of all that stands before the glyph. -/
def placeAt : List Glyph → List Nat → List Nat → List Nat → Nat → List (Byte × Nat)
  | [], _, _, _, _ => []
  | g :: gs, advs, gaps, pairs, before =>
    let after := before + advs.headD 0
    (g.code, (before + 64) / 128) ::
    (match gs.head? with
      | some h =>
        if h.gap then placeAt gs (advs.drop 1) (gaps.drop 1) pairs (after + gaps.headD 0)
        else placeAt gs (advs.drop 1) gaps (pairs.drop 1) (after + pairs.headD 0)
      | none => [])

/-- A depth in eu from a leading in tenths, rounded half up (R61). -/
def toEu (tenths : Nat) : Nat := (5 * tenths + 1) / 2

/-- The LINE entry of a set line (R85), its number given at the append. -/
def State.lineBody (s : State) (p : LineParams) (gs : List Glyph) (flags : List LineFlag) (last : Bool) : LineBody :=
  let sp := s.spacing p gs last (flags.contains .overset)
  { lineNumber := 0, depth := toEu p.leading, measure := p.measure, effLeft := p.effLeft, mode := p.quad, runs := runsOf gs,
    glyphs := placeAt gs (s.advances gs) sp.gaps sp.pairs (p.effLeft * 128 + sp.offset), flags := flags ++ sp.flags }

end Sys2Proof.Machine
end

