-- ==== Sys2Proof/Machine/Hyphen.lean ====
section
/-! DEFINITION. The Hyphenation Unit: the hyphenable core, the candidates of a word, the language requests and TRY WORD
(R89 to R100, R104). -/

namespace Sys2Proof.Machine

open Sys2Proof

/-! ### The word and its core -/

/-- A character of an offered word: its code, and whether it is an explicit hyphen of its own font (R90). -/
structure CoreChar where
  code     : Byte
  explicit : Bool
  deriving DecidableEq, Repr

/-- The index a character folds to, 0 where it is no letter (R90). -/
def letterIndex (t : Option LanguageTable) (c : CoreChar) : Nat :=
  if c.explicit then 0 else ((t.map fun t => tableAt t.letterMap c.code).getD 0)

/-- The classes of R95, with those of R104 for a word of class LETTERS. -/
inductive WordClass
  | discretionary | noLetters | explicit | unhyphenable | dictionary | never | rules | noRules
  deriving DecidableEq, Repr

/-- The sources of a candidate, in the order of R104. -/
inductive Source
  | discretionary | explicit | dictionary | prefixRule | suffix | cluster | single
  deriving DecidableEq, Repr

/-- A break candidate: its position in the core, its grade, its source. -/
structure Candidate where
  position : Nat
  grade    : Nat
  source   : Source
  deriving DecidableEq, Repr

/-- What the unit finds of a word: the class, the core's start and length, the dictionary entry chosen, the candidates in ascending
position. -/
structure Analysis where
  cls        : WordClass
  start      : Nat
  length     : Nat
  entry      : Option DictEntry
  candidates : List Candidate
  deriving DecidableEq, Repr

/-! ### Rule candidates (R91, R99, R100) -/

/-- The candidates of the affix rules (R91). -/
def affixCandidates (rules : List AffixRule) (l : List Nat) : List Candidate :=
  rules.filterMap fun r =>
    let k := r.letters.length
    if k < l.length then
      if r.suffix then
        if l.drop (l.length - k) == r.letters then some { position := l.length - k, grade := r.grade, source := .suffix }
        else none
      else if l.take k == r.letters then some { position := k, grade := r.grade, source := .prefixRule }
      else none
    else none

/-- The cluster and single candidates at a position (R99). -/
def syllableAt (vowel : Nat → Bool) (n p : Nat) : List Candidate :=
  (if 2 ≤ p && p + 2 ≤ n && vowel (p - 2) && vowel (p + 1) && !vowel (p - 1) && !vowel p then
    [{ position := p, grade := 2, source := .cluster : Candidate }] else []) ++
  (if 1 ≤ p && p + 2 ≤ n && vowel (p - 1) && !vowel p && vowel (p + 1) then
    [{ position := p, grade := 3, source := .single : Candidate }] else [])

/-- The positions of a core of n characters (R95), from 1 to n − 1. -/
def inner (n : Nat) : List Nat := (List.range n).drop 1

/-- The better of two candidates at one position: the lower grade (R100). Of equal grades it is the first, in the order PREFIX, SUFFIX,
cluster, single: R104 does not say whose source is given then (DESIGN CHOICE, log entry 28). -/
def better (a b : Candidate) : Candidate := if b.grade < a.grade then b else a

/-- The rule candidates of a core of folded letters (R99, R100). -/
def ruleCandidates (t : LanguageTable) (l : List Nat) (minPrefix minSuffix : Nat) : List Candidate :=
  let n := l.length
  let vowel := fun i => t.vowels.contains (l.getD i 0)
  if n < minPrefix + minSuffix then []
  else
    let affixes := affixCandidates t.rules l
    (inner n).filterMap fun p =>
      if minPrefix ≤ p && p + minSuffix ≤ n then
        match affixes.filter (fun c => c.position == p && c.source == .prefixRule) ++
            affixes.filter (fun c => c.position == p && c.source == .suffix) ++ syllableAt vowel n p with
        | [] => none
        | c :: cs => some (cs.foldl better c)
      else none

/-! ### Analysis -/

/-- The class, core and candidates of a word (R95 to R100). `marks` are the places of the discretionary marks, each as the number of
characters before it. A word of class NO LETTERS has no core: its start and length are 0 (DESIGN CHOICE, log entry 28). -/
def analyse (s : State) (slot language minPrefix minSuffix : Nat) (chars : List CoreChar) (marks : List Nat) : Analysis :=
  let table := s.language language
  let isLetter := fun c => letterIndex table c != 0
  if !marks.isEmpty then
    let n := chars.length
    { cls := .discretionary, start := 0, length := n, entry := none,
      candidates := ((inner n).filter marks.contains).map fun p =>
        { position := p, grade := 1, source := .discretionary } }
  else if !chars.any isLetter then { cls := .noLetters, start := 0, length := 0, entry := none, candidates := [] }
  else
    let start := (chars.takeWhile fun c => !isLetter c).length
    let core := ((chars.drop start).reverse.dropWhile fun c => !isLetter c).reverse
    let n := core.length
    if core.any (·.explicit) then
      { cls := .explicit, start := start, length := n, entry := none,
        candidates := ((inner n).filter fun p => ((core[p - 1]?).map (·.explicit)).getD false).map fun p =>
          { position := p, grade := 1, source := .explicit } }
    else if !core.all isLetter then
      { cls := .unhyphenable, start := start, length := n, entry := none, candidates := [] }
    else
      let l := core.map (letterIndex table)
      let found := if 2 ≤ n && n ≤ 31 then choose s.dict language l slot (s.job slot).id else none
      match found with
      | some e =>
        let cands := (e.breaks.filter fun b => minPrefix ≤ b.position && b.position + minSuffix ≤ n).map fun b =>
          { position := b.position, grade := b.grade, source := .dictionary : Candidate }
        { cls := if cands.isEmpty then .never else .dictionary, start := start, length := n, entry := some e,
          candidates := cands }
      | none =>
        match table with
        | none => { cls := .noRules, start := start, length := n, entry := none, candidates := [] }
        | some t =>
          { cls := if n < minPrefix + minSuffix then .noRules else .rules, start := start, length := n, entry := none,
            candidates := ruleCandidates t l minPrefix minSuffix }

/-! ### Language requests -/

/-- The checks of R92, row 2. -/
def languageOk (t : LanguageDef) : Bool :=
  t.letterMap.all (· ≤ 48) && t.vowels.all (fun v => 1 ≤ v && v ≤ 48) && noRepeats t.vowels && t.rules.length ≤ 48 &&
  t.rules.all (fun r =>
    2 ≤ r.letters.length && r.letters.length ≤ 8 && r.letters.all (fun i => 1 ≤ i && i ≤ 48) && 1 ≤ r.grade && r.grade ≤ 3) &&
  noRepeats (t.rules.map fun r => (r.suffix, r.letters))

/-- DEFINE LANGUAGE (R92). -/
def defineLanguageEffect (language : Nat) (t : LanguageDef) : Effect := fun s =>
  if s.houseLocked then refuse .locked s
  else if !(language ≤ 3 && languageOk t) then refuse .range s
  else
    done { s with
      languages := s.languages.set language (some { letterMap := t.letterMap, vowels := t.vowels, rules := t.rules }) }

/-- Six-bit indices packed, the first in the most significant bits (R207), in whole bytes. The unused low bits of the
last byte, which R207 has ignored in DEFINE LANGUAGE, are sent as 0 in the reply of QUERY LANGUAGE (DESIGN CHOICE, log entry 5). -/
def packIndices (l : List Nat) : List Byte :=
  let bytes := (6 * l.length + 7) / 8
  let v := (l.foldl (fun acc i => acc * 64 + i) 0) * 2 ^ (8 * bytes - 6 * l.length)
  (List.range bytes).map fun k => BitVec.ofNat 8 (v / 256 ^ (bytes - 1 - k))

/-- An affix rule in the reply of QUERY LANGUAGE: its header byte and its packed string, in the form R207 gives for DEFINE LANGUAGE,
with bit 6 of the header, to which R207 gives no meaning, sent as 0 (both DESIGN CHOICE, log entry 5). -/
def ruleBytes (r : AffixRule) : List Byte :=
  num1 ((if r.suffix then 128 else 0) + r.grade * 16 + r.letters.length) ++ packIndices r.letters

/-- QUERY LANGUAGE (R93). -/
def queryLanguageEffect (language : Nat) : Effect := fun s =>
  if language > 3 then refuse .range s
  else match s.language language with
    | none => refuse .absent s
    | some t =>
      (s, { status := .done
            payload := t.letterMap.flatMap num1 ++
              listOf num1 ((List.range 49).filter t.vowels.contains) ++ listOf ruleBytes t.rules ++
              num1 (t.letterMap.countP (· != 0)) ++ num1 t.rules.length })

/-- The byte of a class, in the order R95 and R104 list them. -/
def WordClass.code : WordClass → Nat
  | .discretionary => 0 | .noLetters => 1 | .explicit => 2 | .unhyphenable => 3 | .dictionary => 4 | .never => 5
  | .rules => 6 | .noRules => 7

/-- The byte of a source, in the order R104 lists them. -/
def Source.code : Source → Nat
  | .discretionary => 0 | .explicit => 1 | .dictionary => 2 | .prefixRule => 3 | .suffix => 4 | .cluster => 5 | .single => 6

/-- The places of the marks among bytes, each as the number of characters before it. -/
def markPlaces : Nat → List Byte → List Nat
  | _, [] => []
  | n, b :: bs => if b == 0x1F#8 then n :: markPlaces n bs else markPlaces (n + 1) bs

/-- TRY WORD (R104). The chosen entry's slot and scope stand behind one presence byte, the scope in its one byte
(DESIGN CHOICE, log entry 5). -/
def tryWordEffect (slot : Nat) (text : List Byte) : Effect := fun s =>
  if !(slot ≤ 3 && !text.isEmpty && text.length ≤ 240 && text.all fun b => isCharCode b || b == 0x1F#8) then refuse .range s
  else
    let j := s.job slot
    if !j.composing then refuse .state s
    else
      let f := s.font j.params.font
      let kept := text.filter fun b => b == 0x1F#8 || (f.map fun f => f.width b != 0).getD true
      let hyphen := (f.map (·.hyphen)).getD 0x2D#8
      let chars := (kept.filter (· != 0x1F#8)).map fun b => { code := b, explicit := b == hyphen : CoreChar }
      let a := analyse s slot j.params.language j.params.minPrefix j.params.minSuffix chars (markPlaces 0 kept)
      (s, { status := .done
            payload := num1 a.start ++ num1 a.length ++ num1 a.cls.code ++
              optOf (fun e : DictEntry => num2 e.slot ++ e.scope.bytes.take 1) a.entry ++
              listOf (fun c : Candidate =>
                num1 c.position ++ num1 c.grade ++ num1 c.source.code ++ flag1 (c.grade ≤ j.params.grade)) a.candidates ++
              flag1 j.params.hyphenate ++ num1 j.consecutive ++ num1 j.params.ladder })

end Sys2Proof.Machine
end

