-- ==== Sys2Proof/Machine/Jobs.lean ====
section
/-! DEFINITION. The Job Table: clamps (R46, R47), the text buffer and what can be taken from it, composition status (R87), the end of
a turn (R67), and the requests of the chapter (R45 to R56). -/

namespace Sys2Proof.Machine

open Sys2Proof

/-! ### Clamps -/

/-- A value raised to the lower end of a range, or lowered to its upper end (R46). -/
def clampTo (lo hi x : Nat) : Nat := min hi (max lo x)

/-- Quad modes from their byte (R207). -/
def quadOf : Nat → Option QuadMode
  | 0 => some .justify
  | 1 => some .left
  | 2 => some .right
  | 3 => some .center
  | _ => none

/-- Proof policies from their byte (R207). -/
def policyFrom : Nat → Option ProofPolicy
  | 0 => some .required
  | 1 => some .bestEffort
  | 2 => some .none
  | _ => none

/-- The byte of a quad mode. -/
def QuadMode.code : QuadMode → Nat
  | .justify => 0 | .left => 1 | .right => 2 | .center => 3

/-- The byte of a proof policy. -/
def ProofPolicy.code : ProofPolicy → Nat
  | .required => 0 | .bestEffort => 1 | .none => 2

/-- The size clamped to its job range and the house size range (R46). -/
def clampSize (h : HouseStyle) (x : Nat) : Nat := clampTo h.sizeLow h.sizeHigh (clampTo 50 720 x)

/-- The measure clamped to its job range and the house measure range (R46). -/
def clampMeasure (h : HouseStyle) (x : Nat) : Nat := clampTo h.measureLow h.measureHigh (clampTo 900 13500 x)

/-- The leading, reverse lead or vertical space clamped to its range (R46, R63). -/
def clampLeading (x : Nat) : Nat := min 1440 x

/-- The three space values in the order of R46. -/
def clampSpaces (h : HouseStyle) (mn op mx : Nat) : Nat × Nat × Nat :=
  let mn := min (max (min 127 mn) h.spaceFloor) h.spaceCeiling
  let mx := max (min (min 127 mx) h.spaceCeiling) mn
  let op := min (max (min 127 op) mn) mx
  (mn, op, mx)

/-- The indents clamped together against the measure (R47). -/
def clampIndents (measure left right : Nat) : Nat × Nat :=
  if measure < left + right + 900 then
    let right := measure - 900 - left
    if measure < left + right + 900 then (measure - 900, right) else (left, right)
  else (left, right)

/-- The parameters OPEN JOB records (R45 to R47), none when an enumerated value lies outside its set. -/
def clampParams (h : HouseStyle) (p : OpenParams) : Option Params :=
  match quadOf p.quad, policyFrom p.policy with
  | some quad, some policy =>
    if 1 ≤ p.font && p.font ≤ 999 && p.hyphenate ≤ 1 && p.language ≤ 3 then
      let measure := clampMeasure h p.measure
      let (left, right) := clampIndents measure (min 12600 p.left) (min 12600 p.right)
      let (mn, op, mx) := clampSpaces h p.spaceMin p.spaceOpt p.spaceMax
      some
        { font := p.font, size := clampSize h p.size, leading := clampLeading p.leading, measure := measure, left := left,
          right := right, paragraph := min 12600 p.paragraph, spaceMin := mn, spaceOpt := op, spaceMax := mx,
          letterMax := min (min 8 p.letterMax) h.letterCeiling,
          minPrefix := max (clampTo 2 6 p.minPrefix) h.prefixFloor, minSuffix := max (clampTo 2 6 p.minSuffix) h.suffixFloor,
          ladder := min (clampTo 1 9 p.ladder) h.ladderCeiling, grade := clampTo 1 3 p.grade, zone := min 13500 p.zone,
          quad := quad, hyphenate := p.hyphenate == 1, language := p.language, policy := policy }
    else none
  | _, _ => none

/-- The parameters in the order and sizes of OPEN JOB (R207). -/
def Params.bytes (p : Params) : List Byte :=
  num2 p.font ++ num2 p.size ++ num2 p.leading ++ num2 p.measure ++ num2 p.left ++ num2 p.right ++ num2 p.paragraph ++
  num1 p.spaceMin ++ num1 p.spaceOpt ++ num1 p.spaceMax ++ num1 p.letterMax ++ num1 p.minPrefix ++ num1 p.minSuffix ++
  num1 p.ladder ++ num1 p.grade ++ num2 p.zone ++ num1 p.quad.code ++ flag1 p.hyphenate ++ num1 p.language ++
  num1 p.policy.code

/-- The numeric parameters as given. -/
def givenNumbers (p : OpenParams) : List Nat :=
  [p.size, p.leading, p.measure, p.left, p.right, p.paragraph, p.spaceMin, p.spaceOpt, p.spaceMax, p.letterMax, p.minPrefix,
   p.minSuffix, p.ladder, p.grade, p.zone]

/-- The numeric parameters as recorded. -/
def Params.numbers (p : Params) : List Nat :=
  [p.size, p.leading, p.measure, p.left, p.right, p.paragraph, p.spaceMin, p.spaceOpt, p.spaceMax, p.letterMax, p.minPrefix,
   p.minSuffix, p.ladder, p.grade, p.zone]

/-! ### The text buffer -/

/-- The parameter bytes of a composition code's letter, none for an unknown letter (R59, R208). -/
def codeLength (letter : Byte) : Option Nat :=
  match letter.toNat with
  | 0x46 | 0x50 | 0x4C | 0x4D | 0x42 | 0x56 => some 2
  | 0x53 => some 3
  | 0x48 | 0x47 | 0x51 => some 1
  | 0x49 => some 4
  | 0x43 => some 0
  | _ => none

/-- The buffer holds a byte the engine can take: not a composition code whose parameters have not all arrived (R59, R87). -/
def canTake : List Byte → Bool
  | [] => false
  | b :: rest =>
    if b == 0x1B#8 then
      match rest with
      | [] => false
      | c :: ps => ((codeLength c).map fun n => decide (n ≤ ps.length)).getD true
    else true

/-- The characters of a word. -/
def countChars (l : List WordItem) : Nat := l.countP (· != .mark)

/-- The pending word ends at its place; marks alone are no word (R70). -/
def LineInProgress.endWord (l : LineInProgress) : LineInProgress :=
  if countChars l.pending == 0 then { l with pending := [], pendingCont := false }
  else
    { l with ended := some { items := l.pending, cont := l.pendingCont, hasCont := false }, pending := [],
             pendingCont := false }

/-- An ending becomes due, and the pending word ends (R70, R79). -/
def LineInProgress.makeEnding (paragraph : Bool) (a : CodeAction) (l : LineInProgress) : LineInProgress :=
  { l.endWord with ending := some { paragraph := paragraph, action := a, lineSet := false } }

/-- The line in progress is empty (R69). -/
def LineInProgress.isEmpty (l : LineInProgress) : Bool :=
  l.glyphs.isEmpty && l.pending.isEmpty && l.ended.isNone && l.placing.isNone && l.carry.isNone && !l.missing &&
  l.ending.isNone && l.held.isNone

/-- The paragraph end of an exhausted buffer becomes due (R49, R70, R79). A word that has ended is placed before the pending word. -/
def LineInProgress.exhaust (l : LineInProgress) : LineInProgress :=
  if l.ended.isSome then { l with ending := some { paragraph := true, action := .nothing, lineSet := false } }
  else l.makeEnding true .nothing

/-- At the event that leaves a CLOSING job's buffer exhausted its paragraph end becomes due, unless an ending is due already, or
nothing but a held item stands in the line (R49, R79). In these two cases R70 and R79 would have a paragraph end due as well, which over an
empty line sets the paragraph mark (R58), where R49 finishes composition at that event: no ending is made, and the paragraph mark stays
as it stands (DESIGN CHOICE, log entry 39). -/
def Job.exhaust (j : Job) : Job :=
  if j.state == .closing && !j.finished && j.text.isEmpty && j.line.ending.isNone &&
      !({ j.line with held := none } : LineInProgress).isEmpty then
    { j with line := j.line.exhaust }
  else j

/-- The next step of a turn (R67): to place a word, to set a line or carry an ending on, or to take a byte. -/
inductive Work
  | place | set | take | none
  deriving DecidableEq, Repr

/-- The next step the engine can take for a job (R70, R77, R79). -/
def Job.work (j : Job) : Work :=
  if j.line.held.isSome then .none
  else if j.line.placing.isSome || j.line.carry.isSome || j.line.ended.isSome ||
      (j.line.ending.isSome && 0 < countChars j.line.pending) then .place
  else if j.line.ending.isSome then .set
  else if canTake j.text || (j.state == .closing && !j.finished && !j.text.isEmpty) then .take
  else .none

/-- A job's composition status recomputed (R87); a stall that holds is kept. A CLOSING job whose composition is finished keeps the
status it last had (DESIGN CHOICE, log entry 29). -/
def State.restatus (s : State) (slot : Nat) : State :=
  let j := s.job slot
  if !j.composing || j.finished then s
  else if j.line.held.isSome then s.setStatus slot (.stalled .queueFull)
  else if j.status == .stalled .fontUnavailable || j.status == .stalled .fontChanging then s
  else if j.work != .none then s.setStatus slot .ready
  else s.setStatus slot .waitingText

/-- A CLOSING job with an empty buffer and an empty line in progress has its composition finished (R49). -/
def State.finishComposition (s : State) (slot : Nat) : State :=
  let j := s.job slot
  if j.state == .closing && !j.finished && j.text.isEmpty && j.line.isEmpty then s.onJob slot fun j => { j with finished := true }
  else s

/-- A turn ends: the pointer moves past the served slot, and the job's status is recomputed (R67, R87). -/
def State.endTurn (s : State) (slot : Nat) : State :=
  (s.onEngine fun _ => { serving := none, pointer := (slot + 1) % 4 }).restatus slot

/-! ### Requests -/

/-- OPEN JOB (R45). -/
def openJobEffect (slot jobId : Nat) (p : OpenParams) : Effect := fun s =>
  if slot > 3 || jobId == 0 then refuse .range s
  else match clampParams s.house p with
    | none => refuse .range s
    | some ps =>
      if (s.job slot).state != .free then refuse .state s
      else
        let s := s.onJob slot fun _ =>
          { Job.free with
            id := jobId, state := .active, status := .waitingText, params := ps, paragraphMark := true, lineNumber := 1 }
        ({ s with galleyOrder := s.galleyOrder ++ [slot] },
         { status := .done, payload := ps.bytes, clamped := ps.numbers != givenNumbers p })

/-- SEND TEXT (R48); bytes the engine can take make a WAITING TEXT job READY (R41). -/
def sendTextEffect (slot : Nat) (text : List Byte) : Effect := fun s =>
  if slot > 3 then refuse .range s
  else
    let j := s.job slot
    if j.state != .active then refuse .state s
    else
      let free := Config.textBytes - j.text.length
      if text.length > free then (s, { status := .full, payload := num2 free })
      else
        let s := s.onJob slot fun j => { j with text := j.text ++ text }
        let s := if j.status == .waitingText && (s.job slot).work != .none then s.setStatus slot .ready else s
        (s, { status := .done, payload := num2 (free - text.length) })

/-- CLOSE JOB (R49). A job whose buffer is empty already has its paragraph end due at once. The status of a job that the request itself
finishes stays as it was (DESIGN CHOICE, log entry 29). -/
def closeJobEffect (slot jobId : Nat) : Effect := fun s =>
  if slot > 3 then refuse .range s
  else if (s.job slot).state != .active || (s.job slot).id != jobId then refuse .state s
  else done (((s.onJob slot fun j => { j with state := .closing : Job }.exhaust).finishComposition slot).restatus slot)

/-- A pending abort mark is offered to the Line Queue (R52, R130). -/
def State.offerMark (s : State) (slot : Nat) : State :=
  if (s.job slot).markPending && s.admits slot .mark then s.appendEntry slot .mark else s

/-- The entries of the job in a slot that an abort cancels (R51, R139). -/
def State.cancellable (s : State) (slot : Nat) : List Entry :=
  s.queue.entries.filter fun e => s.ownedBy slot e && e.expo == .waiting

/-- ABORT JOB (R51, R52, R139), but for its reply's fields (`abortReply`). The composition status and the paragraph mark have lapsed in
an ABORTING job (R40); State holds them as WAITING TEXT and clear, and no reply gives them (DESIGN CHOICE, log entry 29). -/
def abortJobEffect (slot jobId : Nat) : Effect := fun s =>
  if slot > 3 then refuse .range s
  else
    let j := s.job slot
    if !j.composing || j.id != jobId then refuse .state s
    else
      let gone := s.cancellable slot
      let s := s.discardLine slot
      let s := gone.foldl State.cancelEntry s
      let s := retireWhere (isJobWord slot j.id) s
      let marked := j.params.policy != .none
      let s := s.onJob slot fun j =>
        { j with state := .aborting, status := .waitingText, finished := false, text := [], paragraphMark := false,
                 markPending := marked }
      let s := if s.engine.serving == some slot then s.onEngine fun _ => { serving := none, pointer := (slot + 1) % 4 } else s
      done ((s.testLow.recomputeHeads).offerMark slot)

/-- The fields of the reply of ABORT JOB (R51), of the states before the request and at the end of its event: the entries cancelled, the
JOB words removed, and, for a job with a proof policy, whether its mark has been appended (0) or is pending (1). A mark held at the
request is appended within the same event when an item offered before it is admitted there (R52, R131). -/
def abortReply (slot : Nat) (s t : State) : List Byte :=
  num1 (s.cancellable slot).length ++ num2 (s.dict.countP (isJobWord slot (s.job slot).id)) ++
  optOf num1 (if (s.job slot).params.policy != .none then some (if (t.job slot).markPending then 1 else 0) else none)

/-- The byte of a job state, in the order of R40. -/
def JobState.code : JobState → Nat
  | .free => 0 | .active => 1 | .closing => 2 | .aborting => 3

/-- A composition status and stall reason, in the order of R40. -/
def CompStatus.bytes : CompStatus → List Byte
  | .ready => num1 0 ++ num1 0
  | .waitingText => num1 1 ++ num1 0
  | .stalled r => num1 2 ++ num1 1 ++ num1 (match r with | .fontUnavailable => 0 | .fontChanging => 1 | .queueFull => 2)

/-- The counters of a job, in the order of R40. -/
def Job.counterBytes (j : Job) : List Byte :=
  num1 j.consecutive ++ num2 j.linesSet ++ num2 j.hyphenated ++ num2 j.looseLines ++ num2 j.missingChars ++
  num2 j.ignoredBytes ++ num2 j.clampedCodes

/-- The glyph and run counts of a line in progress: of its placed words, or of a held LINE entry (R69). -/
def LineInProgress.countBytes (l : LineInProgress) : List Byte :=
  match l.held with
  | some b => num1 b.glyphCount ++ num1 b.runs.length
  | none => num1 l.glyphs.length ++ num1 (runsOf l.glyphs).length

/-- The house style in the order of R54. -/
def houseBytes (h : HouseStyle) : List Byte :=
  num1 h.spaceFloor ++ num1 h.spaceCeiling ++ num1 h.letterCeiling ++ num1 h.prefixFloor ++ num1 h.suffixFloor ++
  num1 h.ladderCeiling ++ num2 h.sizeLow ++ num2 h.sizeHigh ++ num2 h.measureLow ++ num2 h.measureHigh

/-- The paragraph mark, the buffer and the line in progress of a job in composition (R53). -/
def Job.progressBytes (j : Job) : List Byte :=
  flag1 j.paragraphMark ++ num2 j.text.length ++ num2 (Config.textBytes - j.text.length) ++ j.line.countBytes ++
  optOf (fun b : Body => num1 b.kind.code) j.line.held

/-- QUERY JOB (R53). One layout serves every state of a slot: what R40 gives in some states alone stands behind a presence byte
(R207); that layout for a FREE slot is the model's, and so is numbering the slot's position in the galley order list from 0 (DESIGN
CHOICE, log entry 5). -/
def queryJobEffect (slot : Nat) : Effect := fun s =>
  if slot > 3 then
    (s, { status := .done
          payload := listOf num1 s.galleyOrder ++ optOf num1 s.exposureHead ++ optOf num1 s.proofHead ++
            s.jobs.flatMap (fun j => num1 j.state.code ++ num2 j.id) ++ houseBytes s.house ++ flag1 s.houseLocked ++
            num2 s.galleyGap })
  else
    let j := s.job slot
    (s, { status := .done
          payload := num1 j.state.code ++ num2 j.id ++ presentIf j.composing j.status.bytes ++
            presentIf (j.state == .closing) (flag1 j.finished) ++ presentIf (j.state == .aborting) (flag1 j.markPending) ++
            presentIf (j.state != .free) j.params.bytes ++ presentIf j.composing j.progressBytes ++ num2 j.lineNumber ++
            j.counterBytes ++ optOf num1 (s.galleyOrder.findIdx? (· == slot)) ++ flag1 (s.exposureHead == some slot) ++
            flag1 (s.proofHead == some slot) })

/-- A house style within the ranges and orders of R54. -/
def houseOk (h : HouseStyle) : Bool :=
  h.spaceFloor ≤ 127 && 1 ≤ h.spaceCeiling && h.spaceCeiling ≤ 127 && h.spaceFloor ≤ h.spaceCeiling && h.letterCeiling ≤ 8 &&
  2 ≤ h.prefixFloor && h.prefixFloor ≤ 6 && 2 ≤ h.suffixFloor && h.suffixFloor ≤ 6 && 1 ≤ h.ladderCeiling &&
  h.ladderCeiling ≤ 9 && 50 ≤ h.sizeLow && h.sizeLow ≤ h.sizeHigh && h.sizeHigh ≤ 720 && 900 ≤ h.measureLow &&
  h.measureLow ≤ h.measureHigh && h.measureHigh ≤ 13500

/-- SET HOUSE STYLE (R54). -/
def setHouseStyleEffect (h : HouseStyle) : Effect := fun s =>
  if s.houseLocked then refuse .locked s
  else if !houseOk h then refuse .range s
  else done { s with house := h }

/-- LOCK HOUSE (R55). -/
def lockHouseEffect : Effect := fun s => done { s with houseLocked := true }

/-- SET GALLEY GAP (R56). -/
def setGalleyGapEffect (g : Nat) : Effect := fun s =>
  if g > 36000 then refuse .range s else done { s with galleyGap := g }

end Sys2Proof.Machine
end

