-- ==== Sys2Proof/Machine/Setting.lean ====
section
/-! DEFINITION. The Setting Engine's three steps: taking a byte (R57 to R63, R70), placing a word (R71, R72, R75, R76), setting a
line with its break and its ending (R77 to R79, R85, R94, R101, R103); and the admission of waiting items (R132). -/

namespace Sys2Proof.Machine

open Sys2Proof

/-! ### Taking a byte -/

/-- A character joins the pending word, or begins a continuation of one that holds 240 (R70). -/
def LineInProgress.takeChar (l : LineInProgress) (c : WordItem) : LineInProgress :=
  if countChars l.pending ≥ Config.lineGlyphs then
    { l with ended := some { items := l.pending, cont := l.pendingCont, hasCont := true }, pending := [c], pendingCont := true }
  else { l with pending := l.pending ++ [c] }

/-- Bytes skipped and counted (R57, R59). -/
def Job.ignore (n : Nat) (j : Job) : Job := { j with ignoredBytes := min Config.counterTop (j.ignoredBytes + n) }

/-- A code counted as clamped (R59). -/
def Job.clampedIf (b : Bool) (j : Job) : Job := if b then { j with clampedCodes := bump j.clampedCodes } else j

/-- A two-byte parameter. -/
def pair (a b : Byte) : Nat := a.toNat * 256 + b.toNat

/-- The measure and the indents re-clamped against it (R47, R62). -/
def Params.withMeasure (m : Nat) (p : Params) : Params :=
  let (l, r) := clampIndents m p.left p.right
  { p with measure := m, left := l, right := r }

/-- A code of R62: its value is recorded, after an ending where it differs from the value in force. -/
def Job.lineCode (changed : Bool) (a : CodeAction) (set : Params → Params) (j : Job) : Job :=
  if changed then { j with line := j.line.makeEnding false a } else { j with params := set j.params }

/-- The action of a whole composition code (R59 to R63); a value outside an enumeration's set makes it skipped. -/
def Job.takeCode (h : HouseStyle) (letter : Byte) (ps : List Byte) (j : Job) : Job :=
  let a := ps.getD 0 0
  let b := ps.getD 1 0
  let c := ps.getD 2 0
  let d := ps.getD 3 0
  let v := pair a b
  let skip := j.ignore (2 + ps.length)
  let set := fun (f : Params → Params) => { j with params := f j.params }
  match letter.toNat with
  | 0x46 => if 1 ≤ v && v ≤ 999 then set fun p => { p with font := v } else skip
  | 0x50 => (set fun p => { p with size := clampSize h v }).clampedIf (clampSize h v != v)
  | 0x4C => (set fun p => { p with leading := clampLeading v }).clampedIf (clampLeading v != v)
  | 0x53 =>
    let (mn, op, mx) := clampSpaces h a.toNat b.toNat c.toNat
    (set fun p => { p with spaceMin := mn, spaceOpt := op, spaceMax := mx }).clampedIf
      ((mn, op, mx) != (a.toNat, b.toNat, c.toNat))
  | 0x48 => if a.toNat ≤ 1 then set fun p => { p with hyphenate := a.toNat == 1 } else skip
  | 0x47 => if a.toNat ≤ 3 then set fun p => { p with language := a.toNat } else skip
  | 0x4D =>
    let m := clampMeasure h v
    let p' := Params.withMeasure m j.params
    (j.lineCode (m != j.params.measure) (.measure m) (Params.withMeasure m)).clampedIf
      (m != v || p'.left != j.params.left || p'.right != j.params.right)
  | 0x49 =>
    let given := (v, pair c d)
    let lr := clampIndents j.params.measure (min 12600 given.1) (min 12600 given.2)
    (j.lineCode (lr != (j.params.left, j.params.right)) (.indents lr.1 lr.2)
      fun p => { p with left := lr.1, right := lr.2 }).clampedIf (lr != given)
  | 0x51 =>
    match quadOf a.toNat with
    | none => skip
    | some q => j.lineCode (q != j.params.quad) (.quad q) (fun p => p)
  | 0x42 =>
    let e := toEu (clampLeading v)
    { j with line := j.line.makeEnding false (if e == 0 then .nothing else .move (-(e : Int))) }.clampedIf
      (clampLeading v != v)
  | 0x56 =>
    let e := toEu (clampLeading v)
    { j with line := j.line.makeEnding false (if e == 0 then .nothing else .move e) }.clampedIf (clampLeading v != v)
  | 0x43 => { j with line := j.line.makeEnding false .cut }
  | _ => skip

/-- The head of the buffer is taken and its class applied (R57, R58, R59, R70). A code that the end of a CLOSING job's buffer cuts short
is skipped (R49). -/
def Job.applyByte (h : HouseStyle) (j : Job) : Job :=
  match j.text with
  | [] => j
  | b :: rest =>
    let onLine := fun (f : LineInProgress → LineInProgress) => { j with text := rest, line := f j.line }
    if isCharCode b then onLine fun l => l.takeChar (.char b j.params.font j.params.size)
    else if b == 0x20#8 then onLine LineInProgress.endWord
    else if b == 0x1F#8 then onLine fun l => { l with pending := l.pending ++ [.mark] }
    else if b == 0x0D#8 then onLine (LineInProgress.makeEnding true .nothing)
    else if b == 0x0B#8 then onLine (LineInProgress.makeEnding false .nothing)
    else if b == 0x1B#8 then
      match rest with
      | [] => { j with text := [] }.ignore 1
      | c :: ps =>
        match codeLength c with
        | none => { j with text := ps }.ignore 2
        | some n =>
          if n ≤ ps.length then { j with text := ps.drop n }.takeCode h c (ps.take n)
          else { j with text := [] }.ignore (2 + ps.length)
    else { j with text := rest }.ignore 1

/-- A byte is taken; the last of a CLOSING job's buffer makes the paragraph end due (R49, R70). -/
def Job.takeByte (h : HouseStyle) (j : Job) : Job := (j.applyByte h).exhaust

/-! ### The end of a step -/

/-- After a step that ended no turn: composition may be finished, and a job with nothing more to take ends the turn (R67). -/
def State.afterStep (s : State) (slot : Nat) : State :=
  let s := s.finishComposition slot
  if (s.job slot).work == .none then s.endTurn slot else s

/-- The slot whose next step is of a kind, while a turn serves it. -/
def State.serves (s : State) (w : Work) : Option Nat :=
  s.engine.serving.filter fun n => (s.job n).composing && (s.job n).work == w

/-- TAKE BYTE (R70). -/
def takeByteEffect (s : State) : State :=
  match s.serves .take with
  | none => s
  | some slot => (s.onJob slot (Job.takeByte s.house)).afterStep slot

/-! ### Placing a word -/

/-- How the placing of a word ends (R71): every character placed, an overflow, a stall for a font, or flow pause before the line is
opened (R68). -/
inductive Placed
  | finished | overflow | stall (reason : StallReason) (font : Nat) | paused
  deriving DecidableEq, Repr

/-- The parameters a line is opened with (R75). -/
def Job.openLine (j : Job) : LineParams :=
  let p := j.params
  let indent := if j.paragraphMark then min p.paragraph (p.measure - 900 - (p.left + p.right)) else 0
  { measure := p.measure, effLeft := p.left + indent, right := p.right, quad := p.quad, spaceMin := p.spaceMin,
    spaceOpt := p.spaceOpt, spaceMax := p.spaceMax, letterMax := p.letterMax, hyphenate := p.hyphenate,
    language := p.language, leading := p.leading, paragraph := j.paragraphMark }

/-- A glyph is placed: the first opens the line, the first of a font takes a reference, the first on a station a claim
(R10, R24, R71, R75). -/
def State.placeGlyph (s : State) (slot : Nat) (code : Byte) (font size station : Nat) : State :=
  let j := s.job slot
  let s := if j.line.glyphs.any (·.font == font) then s else s.onFont font fun r => { r with linePart := r.linePart + 1 }
  let s :=
    if j.line.glyphs.any (·.station == station) then s
    else s.onStation station fun st => { st with claims := st.claims + 1 }
  let opening := j.line.glyphs.isEmpty
  let g : Glyph := { code := code, font := font, size := size, station := station, gap := j.line.gapDue && !opening }
  let s := s.onLine slot fun l =>
    { l with glyphs := l.glyphs ++ [g], gapDue := false, params := if opening then some j.openLine else l.params }
  if opening then s.onJob slot fun j => { j with paragraphMark := false } else s

/-- The station of a character's run: of the line's run in the same font, else of the Turret Controller's answer (R71). -/
def State.stationFor (s : State) (slot : Nat) (r : FontRecord) : FontAnswer :=
  match (s.job slot).line.glyphs.find? (·.font == r.number) with
  | some g => .station g.station
  | none => s.askTurret r

/-- The items of a word placed in order (R71, R72); also the items that stay in the word, the dropped characters removed, and how many
of these are dealt with. -/
def placeItems (slot : Nat) : List WordItem → List WordItem → State → State × List WordItem × Nat × Placed
  | [], kept, s => (s, kept, kept.length, .finished)
  | .mark :: rest, kept, s => placeItems slot rest (kept ++ [.mark]) s
  | .char c f z :: rest, kept, s =>
    let stop := fun (r : Placed) => (s, kept ++ .char c f z :: rest, kept.length, r)
    match s.font f with
    | none => stop (.stall .fontUnavailable f)
    | some r =>
      if r.width c == 0 then
        placeItems slot rest kept
          (s.onJob slot fun j =>
            { j with missingChars := bump j.missingChars, line := { j.line with missing := true } })
      else
        let l := (s.job slot).line
        let joins := (l.glyphs.getLast?.map fun g => g.font == f && g.size == z).getD false
        if l.glyphs.isEmpty && s.flowPause && l.ending.isNone then stop .paused
        else if l.glyphs.length ≥ Config.lineGlyphs then stop .overflow
        else if !joins && (runsOf l.glyphs).length ≥ Config.lineRuns then stop .overflow
        else match s.stationFor slot r with
          | .station n => placeItems slot rest (kept ++ [.char c f z]) (s.placeGlyph slot c f z n)
          | .changing => stop (.stall .fontChanging f)
          | .unavailable => stop (.stall .fontUnavailable f)

/-- The word to place: the one whose placing a stall interrupted, else the carry, else the ended word, else the pending word of an
ending due (R71, R79). -/
def LineInProgress.beginPlacing (l : LineInProgress) : LineInProgress :=
  match l.placing, l.carry, l.ended with
  | some _, _, _ => l
  | none, some w, _ =>
    { l with placing := some { word := w, upto := 0, start := l.glyphs.length }, carry := none,
             gapDue := !w.cont || l.gapDue }
  | none, none, some w =>
    { l with placing := some { word := w, upto := 0, start := l.glyphs.length }, ended := none,
             gapDue := !w.cont || l.gapDue }
  | none, none, none =>
    if l.ending.isSome && 0 < countChars l.pending then
      { l with
        placing := some
          { word := { items := l.pending, cont := l.pendingCont, hasCont := false }, upto := 0, start := l.glyphs.length }
        pending := [], pendingCont := false, gapDue := !l.pendingCont || l.gapDue }
    else l

/-- A word whose characters are all placed stays where it fits, else it overflows (R76). -/
def State.judgeFit (s : State) (slot : Nat) (how : Placed) : Placed :=
  let l := (s.job slot).line
  match how, l.params with
  | .finished, some p => if s.fits p l.glyphs then .finished else .overflow
  | h, _ => h

/-- The word to place is placed as far as it goes, and judged (R71, R76). -/
def State.placeNext (s : State) (slot : Nat) : State × Placed :=
  let s := s.onLine slot LineInProgress.beginPlacing
  match (s.job slot).line.placing with
  | none => (s, .finished)
  | some p =>
    let (s, items, upto, how) := placeItems slot (p.word.items.drop p.upto) (p.word.items.take p.upto) s
    let s := s.onLine slot fun l =>
      { l with placing := some { p with word := { p.word with items := items }, upto := upto } }
    (s, s.judgeFit slot how)

/-! ### Breaking -/

/-- The characters of a word with their explicit hyphens (R90, R95). -/
def State.wordChars (s : State) (items : List WordItem) : List CoreChar :=
  items.filterMap fun i =>
    match i with
    | .char c f _ => some { code := c, explicit := ((s.font f).map (·.hyphen == c)).getD false }
    | .mark => none

/-- The places of a word's discretionary marks, each as the number of characters before it (R96). -/
def markPositions : Nat → List WordItem → List Nat
  | _, [] => []
  | n, .mark :: l => n :: markPositions n l
  | n, .char _ _ _ :: l => markPositions (n + 1) l

/-- The items after the first k characters. -/
def itemsAfter : Nat → List WordItem → List WordItem
  | 0, l => l
  | _ + 1, [] => []
  | k + 1, .mark :: l => itemsAfter (k + 1) l
  | k + 1, .char _ _ _ :: l => itemsAfter k l

/-- The prefix of a word with the hyphen glyph a break after it adds (R77): none after an explicit hyphen. -/
def State.withHyphen (s : State) (base word : List Glyph) (k : Nat) (explicit : Bool) : List Glyph :=
  let kept := base ++ word.take k
  if explicit then kept
  else match kept.getLast? with
    | none => kept
    | some g => kept ++ [{ g with code := ((s.font g.font).map (·.hyphen)).getD 0x2D#8, gap := false }]

/-- The flag of a break's class (R96 to R98, R100). -/
def WordClass.flag : WordClass → LineFlag
  | .discretionary | .explicit => .hyphD
  | .dictionary | .never => .hyphX
  | _ => .hyphA

/-- The conditions of an attempt (R94). -/
def State.attempts (s : State) (slot : Nat) (p : LineParams) (pl : Placing) (base : List Glyph) : Bool :=
  let j := s.job slot
  let used := (s.advances base).sum + (atSizes p.spaceOpt (gapSizes base)).sum
  !pl.word.cont && !pl.word.hasCont && p.hyphenate && j.consecutive < j.params.ladder &&
  (p.quad == .justify || j.params.zone * 128 + used < p.width)

/-- A break: the glyphs that stay, the flags it gives, the carry (R77, R78, R103). -/
structure Break where
  kept  : List Glyph
  flags : List LineFlag
  carry : Option Word
  deriving DecidableEq, Repr

/-- The rest of a broken word; none where no character is left, since marks alone are no word (R70, R78). -/
def restOf (items : List WordItem) (hasCont : Bool) : Option Word :=
  if countChars items == 0 then none else some { items := items, cont := false, hasCont := hasCont }

/-- The largest fitting position within the grade limit (R101). -/
def State.chooseBreak (s : State) (p : LineParams) (a : Analysis) (limit : Nat) (chars : List CoreChar)
    (base word : List Glyph) : Option (List Glyph × Nat) :=
  (a.candidates.reverse.filter fun c => c.grade ≤ limit).findSome? fun c =>
    let k := a.start + c.position
    let gs := s.withHyphen base word k (((chars[k - 1]?).map (·.explicit)).getD false)
    if k ≤ word.length && s.fits p gs then some (gs, k) else none

/-- The largest k from 1 whose first k glyphs fit (R78). -/
def State.largestFit (s : State) (p : LineParams) (word : List Glyph) : Nat :=
  ((List.range (word.length + 1)).filter fun k => 1 ≤ k && s.fits p (word.take k)).foldl max 0

/-- The break of an overflowing word (R77, R78), with the state its consultation of the dictionary leaves (R98). -/
def State.breakLine (s : State) (slot : Nat) (p : LineParams) (pl : Placing) (glyphs : List Glyph) : State × Break :=
  let j := s.job slot
  let base := glyphs.take pl.start
  let word := glyphs.drop pl.start
  let items := pl.word.items
  let chars := s.wordChars items
  let attempt := s.attempts slot p pl base
  let a := analyse s slot p.language j.params.minPrefix j.params.minSuffix chars (markPositions 0 items)
  let s := match attempt, a.entry with
    | true, some e => { s with dict := raiseHits e.slot s.dict }
    | _, _ => s
  match if attempt then s.chooseBreak p a j.params.grade chars base word else none with
  | some (kept, k) =>
    (s, { kept := kept, flags := [a.cls.flag],
          carry := restOf ((itemsAfter k items).dropWhile (· == .mark)) false })
  | none =>
    if pl.start > 0 then (s, { kept := base, flags := [], carry := some pl.word })
    else
      let k := s.largestFit p word
      (s, { kept := word.take (max 1 k), flags := [if k ≥ 1 then .forced else .overset],
            carry := restOf (itemsAfter (max 1 k) items) pl.word.hasCont })

/-! ### Setting the line and carrying an ending on -/

/-- Steps 3 and 4 of an ending without an entry to make (R79, R58, R62). -/
def Job.completeEnding (e : Ending) (j : Job) : Job :=
  let params := match e.action with
    | .measure m => Params.withMeasure m j.params
    | .indents l r => { j.params with left := l, right := r }
    | .quad q => { j.params with quad := q }
    | _ => j.params
  { j with
    params := params
    paragraphMark := if e.lineSet then e.paragraph else j.paragraphMark || e.paragraph
    line := { j.line with ending := none } }

/-- The entry an ending makes (R63). -/
def CodeAction.entry : CodeAction → Option Body
  | .move d => some (.move d false)
  | .cut => some .cut
  | _ => none

/-- An ending whose line has been set and admitted, and which makes no entry, completes at the admission (R49, R79). -/
def State.resumeEnding (s : State) (slot : Nat) : State :=
  match (s.job slot).line.ending with
  | some e => if e.lineSet && e.action.entry.isNone then s.onJob slot (Job.completeEnding e) else s
  | none => s

/-- An item has been admitted: what follows for its job (R79, R87, R131). A job that leaves STALLED QUEUE FULL here is READY, also a
CLOSING job whose composition the admission finishes, for which R87 gives no status (DESIGN CHOICE, log entry 29). -/
def State.admitted (s : State) (slot : Nat) (b : Body) : State :=
  let s := s.onLine slot fun l => { l with held := none }
  let s := match b with
    | .line _ => s.resumeEnding slot
    | _ => s.onLine slot fun l => { l with ending := none }
  let s := s.finishComposition slot
  if (s.job slot).status == .stalled .queueFull then
    (s.setStatus slot .ready).restatus slot
  else s

/-- A completed item is offered: admitted, or held with the job STALLED QUEUE FULL; either ends the turn (R67, R85). -/
def State.offer (s : State) (slot : Nat) (b : Body) : State :=
  if s.admits slot b then ((s.appendEntry slot b).admitted slot b).endTurn slot
  else (s.onLine slot fun l => { l with held := some b }).endTurn slot

/-- The glyphs that leave the line give up the references and claims that no kept glyph holds (R10, R24). -/
def State.leaveLine (s : State) (old kept : List Glyph) : State :=
  let fonts := (distinct (old.map (·.font))).filter fun n => !kept.any (·.font == n)
  let stations := (distinct (old.map (·.station))).filter fun n => !kept.any (·.station == n)
  (s.dropLineRefs fonts).dropClaims stations

/-- The line is set and offered (R80 to R85): its flags, its spacing and its positions are fixed, and the line in progress keeps its
carry, its pending word and any ending due. -/
def State.setLineWith (s : State) (slot : Nat) (p : LineParams) (kept : List Glyph) (flags : List LineFlag) (last : Bool)
    (carry : Option Word) : State :=
  let flags := flags ++ if (s.job slot).line.missing then [.missing] else []
  let body := Body.line (s.lineBody p kept flags last)
  let s := s.onLine slot fun l =>
    { l with glyphs := [], params := none, placing := none, missing := false, gapDue := false,
             carry := carry, ending := l.ending.map fun e => { e with lineSet := e.lineSet || last } }
  s.offer slot body

/-- The break of the word that overflows, with the setting and the offer of its line (R76, R77, R78). -/
def State.breakAndSet (s : State) (slot : Nat) : State :=
  let l := (s.job slot).line
  match l.placing, l.params with
  | some pl, some p =>
    let (s, b) := s.breakLine slot p pl l.glyphs
    (s.leaveLine l.glyphs b.kept).setLineWith slot p b.kept b.flags false b.carry
  | _, _ => s

/-- PLACE WORD (R71, R76): a word that fits stays; one that overflows has its line broken, set and offered within the same step; a
stall and flow pause end the turn. -/
def placeWordEffect (s : State) : State :=
  match s.serves .place with
  | none => s
  | some slot =>
    let (s, how) := s.placeNext slot
    match how with
    | .finished => (s.onLine slot fun l => { l with placing := none }).afterStep slot
    | .overflow => s.breakAndSet slot
    | .stall r f => ((s.onJob slot fun j => { j with stallFont := f }).setStatus slot (.stalled r)).endTurn slot
    | .paused => s.endTurn slot

/-- An ending is carried on with no word left to place: its last line is set (step 2), or its action taken (steps 3 and 4) (R79). -/
def State.carryEnding (s : State) (slot : Nat) : State :=
  let l := (s.job slot).line
  match l.params, l.ending with
  | some p, some e =>
    if l.glyphs.isEmpty then s
    else if e.lineSet then s
    else s.setLineWith slot p l.glyphs [.last] true none
  | none, some e =>
    let s := s.onLine slot fun l => { l with missing := l.missing && e.lineSet }
    match e.action.entry with
    | none => (s.onJob slot (Job.completeEnding e)).afterStep slot
    | some b =>
      let s := s.onJob slot fun j =>
        { j with paragraphMark := if e.lineSet then e.paragraph else j.paragraphMark || e.paragraph }
      s.offer slot b
  | _, none => s

/-- SET LINE (R77, R79, R85): the line of a word that overflows is broken, set and offered, from the break decision on; an ending is
carried on. The break of an overflow is one step of the turn, under either command (R76, log entry 11). -/
def setLineEffect (s : State) : State :=
  match s.serves .place, s.serves .set with
  | some slot, _ =>
    let (t, how) := s.placeNext slot
    if how == .overflow then t.breakAndSet slot else s
  | none, some slot => s.carryEnding slot
  | none, none => s

/-! ### The waiting list -/

/-- The waiting item of a slot: the held item, or the pending abort mark (R132). -/
def Job.waiting (j : Job) : Option Body :=
  if j.markPending then some .mark else j.line.held

/-- The first waiting item, in the order of the galley order list, that finds room is admitted (R132). -/
def State.offerWaiting (s : State) : Option State :=
  s.galleyOrder.findSome? fun slot =>
    match (s.job slot).waiting with
    | none => none
    | some b =>
      if s.admits slot b then
        some (if (s.job slot).markPending then s.appendEntry slot b else (s.appendEntry slot b).admitted slot b)
      else none

/-- A slot is eligible for a turn (R66, R68). -/
def State.eligible (s : State) (slot : Nat) : Bool :=
  let j := s.job slot
  j.composing && !(j.state == .closing && j.finished) && j.status == .ready &&
  (!s.flowPause || !j.line.glyphs.isEmpty || j.line.ending.isSome)

/-- The engine's choice while IDLE: the first eligible slot from the pointer (R66). -/
def State.chooseTurn (s : State) : Option State :=
  match s.engine.serving with
  | some _ => none
  | none =>
    ([0, 1, 2, 3].map fun k => (s.engine.pointer + k) % 4).find? s.eligible |>.map fun n =>
      s.onEngine fun e => { e with serving := some n }

end Sys2Proof.Machine
end

