-- ==== Sys2Proof/Machine/Settle.lean ====
section
/-! DEFINITION. The closing part of a step: what the blocks do of their own within the event of a command (95_what_each_step_holds.md):
jobs returning to FREE, the heads, the waiting list, the engine's choice, the taking of an entry for proof, the waiting for the lamp,
selections and the beginning of flashes, exchange positioning, the next byte to the printer; then the economy condition and the
stall timer, judged against the state before the command. -/

namespace Sys2Proof.Machine

open Sys2Proof

/-! ### Reactions -/

/-- R50. -/
def State.reactFree (s : State) : Option State := (s.galleyOrder.find? s.freeable).map s.freeJob

/-- R44, R135. -/
def State.reactHeads (s : State) : Option State :=
  let s' := s.recomputeHeads
  if s'.exposureHead == s.exposureHead && s'.proofHead == s.proofHead && s'.expo.named == s.expo.named &&
      s'.proof.head == s.proof.head && s'.proof.named == s.proof.named then none
  else some s'

/-- The line of an entry taken for proof (R181, 2). -/
def State.entryLine (s : State) (e : Entry) : PrintLine :=
  { kind := .entry e.serial
    bytes := match e.body with
      | .line b => s.proofLine b
      | _ => markLine e.jobId }

/-- The Proof Controller takes an entry (R181). -/
def State.takeEntry (s : State) (e : Entry) : State :=
  let l := s.entryLine e
  let s := s.onProof fun p => { p.gapTaken with list := p.gapTaken.list ++ [l] }.follow
  s.onQueue fun q => q.modify e.serial fun e => { e with proof := .inPrint }

/-- R181: an entry is named, taking is enabled, and the print list holds no entry line. -/
def State.reactProof (s : State) : Option State :=
  if s.proof.taking && !s.proof.list.any PrintLine.isEntry then
    (s.proof.named.bind s.queue.find).map s.takeEntry
  else none

/-- R144, R145: IDLE with a LINE named, the transport AT REST and the lamp not READY waits for the lamp; WAITING LAMP with none or
another kind named returns to IDLE. -/
def State.reactLamp (s : State) : Option State :=
  let line := ((s.expo.named.bind s.queue.find).map fun e => e.body.kind == .line).getD false
  match s.expo.state with
  | .idle =>
    if line && s.film.state == .atRest && s.lamp.state != .ready then
      some (s.onExpo fun x => { x with state := .waitingLamp })
    else none
  | .waitingLamp => if line then none else some (s.onExpo fun x => { x with state := .idle })
  | _ => none

/-- A selection taken by the table of R26. -/
def State.select (s : State) (fl : Flight) (r : Run) : Option State :=
  match s.turret.motion with
  | .rotating _ _ => none
  | .atRest =>
    if s.turret.position == r.station then 
      some (s.onExpo fun x => { x with state := .selecting, flight := some { fl with selecting := false } })
    else if s.turret.locked then
      if s.expo.state == .waitingTurret then none else some (s.onExpo fun x => { x with state := .waitingTurret })
    else
      some ((s.onTurret (Turret.rotate .exposure r.station)).onExpo fun x =>
        { x with state := .selecting })

/-- R26, R148: the lens at rest at another size is sent to the run's; a selection is taken again; with it granted and the lens at the
run's size, flashing begins. -/
def State.reactRun (s : State) : Option State :=
  match s.expo.state, s.expo.flight with
  | .selecting, some fl | .waitingTurret, some fl =>
    match s.flightRun fl with
    | none => none
    | some r =>
      if s.expo.lensFor r.size != s.expo.lensTarget then
        some (s.onExpo fun x => { x with lensTarget := x.lensFor r.size })
      else if fl.selecting then s.select fl r
      else if s.expo.lensTarget.isNone && s.turret.motion == .atRest then
        some (s.onExpo fun x => { x with state := .flashing, carriageTarget := some (s.flightX fl) })
      else none
  | _, _ => none

/-- R29. -/
def State.reactExchange (s : State) : Option State := s.turret.positioningDue.map s.beginPositioning

/-- R188. -/
def State.reactSend (s : State) : Option State :=
  if s.proof.sendNext == s.proof then none else some (s.onProof Proof.sendNext)

/-- The first reaction that is due. -/
def State.react (s : State) : Option State :=
  (s.reactFree).orElse fun _ => (s.reactHeads).orElse fun _ => (s.offerWaiting).orElse fun _ =>
  (s.chooseTurn).orElse fun _ => (s.reactProof).orElse fun _ => (s.reactLamp).orElse fun _ =>
  (s.reactRun).orElse fun _ => (s.reactExchange).orElse fun _ => s.reactSend

/-- Reactions until none is due: at most `n` of them. -/
def reactAll : Nat → State → State
  | 0, s => s
  | n + 1, s =>
    match s.react with
    | none => s
    | some s' => reactAll n s'

/-! ### Timers judged against the state before -/

/-- Something waits to be exposed (R160). -/
def State.waits (s : State) : Bool :=
  s.expo.flight.isSome || (s.expo.named.isSome && s.expo.state != .held && s.expo.state != .stopped)

/-- The economy timer and the return from ECONOMY (R160), at every event: a composition reset that makes nothing wait starts the timer
too, where R163 has it keep the Lamp Monitor (DESIGN CHOICE, log entry 34). -/
def State.judgeEconomy (before s : State) : State :=
  match s.lamp.state with
  | .ready =>
    s.onLamp fun l =>
      { l with
        economyTimer :=
          if s.waits then none
          else if before.waits || before.lamp.state != .ready then
            (if l.economyTimeout > 0 then some l.economyTimeout else none)
          else l.economyTimer }
  | .economy =>
    if s.waits then (s.onLamp fun l => { l with state := .recovering, recoveryTimer := true }).judgeLamp else s
  | _ => s

/-- The stall timer starts as its three conditions come to hold together, and stops as one fails (R189), judged by the states before and
after an event: a list that empties and is filled again within it changes nothing, and a composition reset, which by R193 keeps the stall
timer, stops it when it empties the list (DESIGN CHOICE, log entry 33). -/
def Proof.judgeStall (before p : Proof) : Proof :=
  { p with stallTimer := p.stallCondition && (p.stallTimer || !before.stallCondition) }

/-- The closing part of a step. -/
def settle (before s : State) : State :=
  (before.judgeEconomy (reactAll 100 s)).onProof before.proof.judgeStall

/-- A request whose event the blocks react to. -/
def settled (e : Effect) : Effect := fun s =>
  let (s', a) := e s
  (settle s s', a)

/-- A request whose DONE carries fields read at the end of its event, of the states before and after it. -/
def settledReply (e : Effect) (payload : State → State → List Byte) : Effect := fun s =>
  let (s', a) := e s
  let t := settle s s'
  (t, if a.status == .done then { a with payload := payload s t } else a)

/-- An event the blocks react to. -/
def settledEvent (f : State → State) (s : State) : State := settle s (f s)

end Sys2Proof.Machine
end

