-- ==== Sys2Proof/Machine/ProofControl.lean ====
section
/-! DEFINITION. The Proof Controller's events and requests (R188 to R192). -/

namespace Sys2Proof.Machine

open Sys2Proof

/-- The head line completes (R188): it leaves the list, is counted, and its entry is reported proof-done. -/
def State.lineSent (s : State) : State :=
  match s.proof.list with
  | [] => s
  | l :: _ =>
    let s := s.onProof Proof.dropHead
    match l.kind with
    | .entry serial => (s.onProof fun p => { p with linesPrinted := bump p.linesPrinted }).proofDone serial
    | .gap _ => s.onProof fun p => { p with gapsPrinted := bump p.gapsPrinted }
    | .spoil _ _ => s

/-- PROOF BYTE SENT (R188): a byte of a sending set back by paper out is not counted (R190). -/
def proofByteSentEffect (s : State) : State :=
  match s.proof.transit with
  | .none => s
  | .stale => s.onProof fun p => { p with transit := .none }
  | .counted =>
    let s := s.onProof fun p => { p with transit := .none }
    if s.proof.lead > 0 then s.onProof fun p => { p with lead := p.lead - 1 }
    else
      let s := s.onProof fun p => { p with sent := p.sent + 1 }
      if ((s.proof.list.head?).map fun l => decide (l.bytes.length ≤ s.proof.sent)).getD false then s.lineSent else s

/-- XOFF RECEIVED (R189): while the flow is OFF it changes nothing. -/
def xoffEffect (s : State) : State :=
  if s.proof.flowOn then s.onProof fun p => p.judgeStall { p with flowOn := false } else s

/-- XON RECEIVED (R189): while the flow is ON it changes nothing. -/
def xonEffect (s : State) : State :=
  if s.proof.flowOn then s
  else
    (s.onProof fun p => p.judgeStall ({ p with flowOn := true, stalled := false }.sendNext)).raiseIf
      (s.proof.stalled && !s.proof.paperOut) .proofResumed

/-- STALL TIMER EXPIRY (R189). -/
def stallExpiryEffect (s : State) : State :=
  if s.proof.stallTimer then (s.onProof fun p => { p with stalled := true, stallTimer := false }).raise .proofStopped else s

/-- PAPER OUT (R190). While the carriage return and line feed before a reprint are owed or in transit, no line has a byte sent: nothing
is marked anew, and after PAPER PRESENT the bytes still owed go out with no further reprint counted (DEDUCED, log entry 9). A line set back has had
bytes sent and stays begun, at send position 0: a composition reset completes it, an ABORT JOB keeps it, and a gap line set back takes no
further count (DEDUCED, log entry 9). -/
def paperOutEffect (s : State) : State :=
  let before := s.proof
  if before.paperOut then s
  else
    let back := before.sent > 0
    (s.onProof fun p =>
      { p with paperOut := true, stallTimer := false, reprint := p.reprint || back, sent := 0,
               transit := if back && p.transit == .counted then .stale else p.transit }).raiseIf
      (!before.stopped) .proofStopped

/-- PAPER PRESENT (R190). -/
def paperPresentEffect (s : State) : State :=
  let before := s.proof
  if before.paperOut then
    (s.onProof fun p =>
      let p := { p with paperOut := false }
      let p := if p.reprint then { p with reprint := false, lead := 2, sent := 0, reprints := bump p.reprints } else p
      before.judgeStall p.sendNext).raiseIf (!before.stalled) .proofResumed
  else s

/-- A printer rate of R180. -/
def rateOk (r : Nat) : Bool := [300, 600, 1200, 2400, 4800, 9600].contains r

/-- The byte of a proof state. -/
def ProofState.code : ProofState → Nat
  | .disabled => 0 | .idle => 1 | .printing => 2

/-- The state, disable pending and the rate, as the reply of SET PROOF carries them (R191). The rate goes as a number of two bytes and not
as an enumeration of its six values (DESIGN CHOICE, log entry 5). -/
def Proof.settingBytes (p : Proof) : List Byte := num1 p.state.code ++ flag1 p.disablePending ++ num2 p.rate

/-- SET PROOF (R191); its reply is made when the entry named, if any, has been taken. -/
def setProofEffect (enable rate : Nat) : Effect := fun s =>
  if !(enable ≤ 1 && rateOk rate) then refuse .range s
  else
    let s := s.onProof fun p =>
      let p := { p with rate := rate }
      match p.state, enable with
      | .disabled, 1 => { p with state := .idle }
      | .idle, 0 => { p with state := .disabled }
      | .printing, 1 => { p with disablePending := false }
      | .printing, 0 => { p with disablePending := true }
      | _, _ => p
    done s

/-- The byte of the printer link state, in the order of R180: PAPER OUT, PRINTER STALLED, XOFF, READY. -/
def Proof.linkState (p : Proof) : Nat :=
  if p.paperOut then 0 else if p.stalled then 1 else if !p.flowOn then 2 else 3

/-- A built line in the reply of QUERY PROOF (R192). -/
def PrintLine.bytesInReply (l : PrintLine) : List Byte :=
  match l.kind with
  | .entry serial => num1 0 ++ num2 serial
  | .gap n => num1 1 ++ num2 n
  | .spoil n j => num1 2 ++ num2 n ++ num2 j

/-- QUERY PROOF (R192). The time the stall timer has run is a free value while it runs (log entry 1), 0 while it is stopped. The send
position and the reprint mark stand in the reply also where the print list is empty, as 0 and no (DESIGN CHOICE, log entry 37). The
printer rate is a number of two bytes (DESIGN CHOICE, log entry 5). -/
def queryProofEffect : Effect := fun s =>
  let p := s.proof
  (if p.stallTimer then { s with freeCount := s.freeCount + 1 } else s,
   { status := .done
     payload := num1 p.state.code ++ flag1 p.disablePending ++ optOf (fun h : Nat × Nat => num1 h.1 ++ num2 h.2) p.head ++
       optOf num2 p.named ++ listOf PrintLine.bytesInReply p.list ++ num2 p.sent ++ flag1 p.reprint ++ num2 p.gapCount ++
       num2 p.rate ++ flag1 (!p.flowOn) ++ flag1 p.paperOut ++ flag1 p.stalled ++ num1 p.linkState ++ flag1 p.stopped ++
       flag1 p.stallTimer ++ num1 (if p.stallTimer then min 30 (Config.stallElapsed s.freeCount) else 0) ++ num2 p.linesPrinted ++
       num2 p.gapsPrinted ++ num2 p.reprints ++ num2 p.notesLost })

end Sys2Proof.Machine
end

