-- ==== Sys2Proof/Machine/QueueFilm.lean ====
section
/-! DEFINITION. The requests of the Line Queue (R141, R142) and of the Film Transport (R173, R174, R177, R178), and the cover events
(R176). -/

namespace Sys2Proof.Machine

open Sys2Proof

/-! ### Line Queue -/

/-- SET QUEUE MARKS (R141). -/
def setQueueMarksEffect (entryHigh entryLow glyphHigh glyphLow : Nat) : Effect := fun s =>
  if !(entryLow < entryHigh && 1 ≤ entryHigh && entryHigh ≤ 64 && glyphLow < glyphHigh && 1 ≤ glyphHigh && glyphHigh ≤ 6144) then
    refuse .range s
  else
    let s := s.onQueue fun q =>
      { q with entryHigh := entryHigh, entryLow := entryLow, glyphHigh := glyphHigh, glyphLow := glyphLow }
    done (if s.queue.atHigh then s.testHigh else s.testLow)

/-- The byte of an exposure progress. -/
def ExpoProgress.code : ExpoProgress → Nat
  | .waiting => 0 | .inFlight => 1 | .done => 2

/-- The byte of a proof progress. -/
def ProofProgress.code : ProofProgress → Nat
  | .notTaken => 0 | .inPrint => 1 | .done => 2

/-- The flags of a LINE entry as a bit set, in the order of R128. -/
def flagBytes (fs : List LineFlag) : List Byte :=
  num2 (bitSet ([.last, .hyphD, .hyphX, .hyphA, .loose, .letterspaced, .short, .forced, .overset, .missing, .spoiled].map
    fs.contains))

/-- An entry's common fields (R127, R142). -/
def Entry.commonBytes (e : Entry) : List Byte :=
  num2 e.serial ++ num1 e.body.kind.code ++ num1 e.slot ++ num2 e.jobId ++ flag1 e.attributed ++ num1 e.expo.code ++
  num1 e.proof.code ++ flag1 e.required

/-- An entry in the summary (R142): the fields of a LINE alone stand behind one presence byte (R207, log entry 5). -/
def Entry.summaryBytes (e : Entry) : List Byte :=
  e.commonBytes ++
  match e.body with
  | .line b => presentIf true (num2 b.lineNumber ++ num1 b.glyphs.length ++ flagBytes b.flags)
  | _ => num1 0

/-- The contents of a LINE entry in the order of R128, with its glyphs from a start (R142). -/
def LineBody.wholeBytes (b : LineBody) (start : Nat) : List Byte :=
  num2 b.lineNumber ++ num2 b.depth ++ num2 b.measure ++ num2 b.effLeft ++ num1 b.mode.code ++
  listOf (fun r : Run => num1 r.station ++ num2 r.font ++ num2 r.size ++ num1 r.count) b.runs ++
  listOf (fun g : Byte × Nat => [g.1] ++ num2 g.2) ((b.glyphs.drop start).take 120) ++ flagBytes b.flags

/-- The whole entry with its glyphs from a start (R128, R129, R142). Three presence bytes tell whether the contents of a LINE, of a
MOVE and of a MARK follow, so an entry of another kind than LINE has no run list and no glyph list; and the flags of a LINE stand
last, as R128 lists them (DESIGN CHOICE, log entry 31). -/
def Entry.wholeBytes (e : Entry) (start : Nat) : List Byte :=
  e.commonBytes ++
  match e.body with
  | .line b => presentIf true (b.wholeBytes start) ++ num1 0 ++ num1 0
  | .move d c => num1 0 ++ presentIf true (int2 d ++ flag1 c) ++ num1 0
  | .cut => num1 0 ++ num1 0 ++ num1 0
  | .mark => num1 0 ++ num1 0 ++ presentIf true (num1 0)

/-- QUERY QUEUE (R142). In its summary the exposure head and the proof head are each given as the slot alone; in its entry form a glyph
start out of range is refused RANGE before the serial is looked for (DESIGN CHOICE, log entry 31). -/
def queryQueueEffect (q : QueueQuery) : Effect := fun s =>
  match q with
  | .summary start =>
    if start > 63 then refuse .range s
    else
      let k := s.queue
      let waiting := s.galleyOrder.filterMap fun n => ((s.job n).waiting).map fun b => (n, b)
      (s, { status := .done, part := start + 32 < k.entries.length
            payload := num1 k.inUse ++ num2 k.glyphsInUse ++ num1 k.entryHigh ++ num1 k.entryLow ++ num2 k.glyphHigh ++
              num2 k.glyphLow ++ flag1 k.highWater ++ flag1 s.flowPause ++ num2 k.nextSerial ++ optOf num1 s.exposureHead ++
              optOf num1 s.proofHead ++ optOf num2 s.expo.named ++ optOf num2 s.proof.named ++
              listOf (fun w : Nat × Body => num1 w.1 ++ num1 w.2.kind.code ++ num1 w.2.glyphCount) waiting ++
              listOf Entry.summaryBytes ((k.entries.drop start).take 32) })
  | .entry serial start =>
    if start > 239 then refuse .range s
    else match s.queue.find serial with
      | none => refuse .absent s
      | some e => (s, { status := .done, payload := e.wholeBytes start, part := start + 120 < e.body.glyphCount })

/-! ### Film Transport -/

/-- The transport works: MOVING, TRIMMING, FEEDING or CUTTING. -/
def Film.working (f : Film) : Bool := f.inMove || f.state == .cutting

/-- LOAD FILM (R173). The position of the last cut, which R173 does not name, stays as it was (DESIGN CHOICE, log entry 40). -/
def loadFilmEffect (length : Nat) : Effect := fun s =>
  if length > Config.maxFilm then refuse .range s
  else if s.expo.flight.isSome || s.film.working || (length > 0 && !s.film.present) then refuse .state s
  else
    let s := s.onFilm fun f =>
      { f with loaded := length, baseline := 0, highMark := 0, origin := 0, owner := .none, state := .atRest, mover := .none,
               measured := 0, target := none, trims := 0 }
    done (s.judgeLow.onExpo fun x => { x with stops := { x.stops with filmOut := false, jam := false } })

/-- FEED AND CUT (R174). -/
def feedAndCutEffect : Effect := fun s =>
  if !(s.expo.state == .idle || s.expo.state == .held || s.expo.state == .stopped) || s.expo.flight.isSome then
    refuse .state s
  else if s.film.loaded == 0 || s.film.coverOpen then refuse .state s
  else if s.film.working then refuse .busy s
  else (s.beginMove (.hostCut (s.expo.state == .stopped)) s.film.cutTarget true, { status := .started })

/-- SET LOW FILM (R177). -/
def setLowFilmEffect (threshold : Nat) : Effect := fun s =>
  if threshold > Config.maxFilm then refuse .range s
  else
    let s := (s.onFilm fun f => { f with lowThreshold := threshold }).judgeLow
    (s, { status := .done, payload := flag1 s.film.lowCondition })

/-- The byte of a transport state, in the order of R164. -/
def FilmState.code : FilmState → Nat
  | .atRest => 0 | .moving => 1 | .trimming => 2 | .feeding => 3 | .cutting => 4 | .jammed => 5

/-- The byte of a galley owner, in the order of R164. -/
def Owner.code : Owner → Nat
  | .none => 0 | .job _ _ => 1 | .ended => 2

/-- The job of a galley owner. -/
def Owner.jobNamed : Owner → Option (Nat × Nat)
  | .job slot id => some (slot, id)
  | Owner.none | .ended => Option.none

/-- A galley owner, with its job's slot and id behind one presence byte (R207, log entry 5). -/
def Owner.bytes (o : Owner) : List Byte := num1 o.code ++ optOf (fun j : Nat × Nat => num1 j.1 ++ num2 j.2) o.jobNamed

/-- The reverse room (R178), 0 where a jam has left Y below Yc; Y may stand 1 eu past Ymax then, so it may pass 18,000. -/
def Film.reverseRoom (f : Film) : Nat := min (Config.reverseAllowance + f.baseline - f.highMark) (f.baseline - f.origin)

/-- QUERY FILM (R178). Whether a debounce of the cover is under way is a free value (log entry 2). -/
def queryFilmEffect : Effect := fun s =>
  let f := s.film
  ({ s with freeCount := s.freeCount + 1 },
   { status := .done
     payload := num3 f.loaded ++ num3 f.baseline ++ num3 f.highMark ++ num3 f.origin ++ num3 (f.loaded - f.highMark) ++
       num2 f.reverseRoom ++ num3 f.lowThreshold ++ flag1 f.lowCondition ++ num1 f.state.code ++
       optOf num3 f.target ++ num1 f.trims ++ num3 f.measured ++ flag1 (!f.present) ++ flag1 (!f.coverOpen) ++
       flag1 (Config.coverDebounce s.freeCount) ++ f.owner.bytes ++ num2 s.galleyGap ++ optOf num3 f.lastCut ++
       num2 f.cuts ++ num2 f.jams })

/-- COVER OPENED (R176). -/
def coverOpenedEffect (s : State) : State :=
  ((s.onFilm fun f => { f with coverOpen := true }).raise .coverOpen).exposureEvent true false

/-- COVER CLOSED (R154, R176). -/
def coverClosedEffect (s : State) : State :=
  (s.onFilm fun f => { f with coverOpen := false }).onExpo fun x => { x with stops := { x.stops with cover := false } }

end Sys2Proof.Machine
end

