-- ==== Sys2Proof/Machine/LinkPort.lean ====
section
/-! DEFINITION. The Link Port: IDENTIFY, STATUS, notices and their timers (R198 to R203), and the three resets (R204 to R206). -/

namespace Sys2Proof.Machine

open Sys2Proof

/-! ### Identity and status -/

/-- A name as printable codes with a count. -/
def nameBytes (t : String) : List Byte := listOf (fun b => [b]) (ascii t)

/-- IDENTIFY (R198). -/
def identifyEffect : Effect := fun s =>
  (s, { status := .done
        payload := nameBytes "MADRIKEL" ++ nameBytes "SOLZARA 6" ++ num1 1 ++ num1 32 ++ num1 8 ++ num1 4 ++ num1 4 ++
          num2 4096 ++ num2 256 ++ num1 64 ++ num2 6144 ++ num1 240 ++ num1 16 ++ num2 2048 ++ num2 620 ++ num2 1020 })

/-- A set of notice causes in three bytes (R207). -/
def causeBytes (c : BitVec 24) : List Byte := num3 c.toNat

/-- The source of a LINK reset (R206). -/
def ResetCause.source : ResetCause → Option Nat
  | .linkRequest => some 0
  | .linkFraming => some 1
  | .power | .composition => none

/-- The kind of a reset (R206). -/
def ResetCause.code : ResetCause → Nat
  | .power => 0 | .composition => 1 | .linkRequest | .linkFraming => 2

/-- The reset-cause record (R206): the kind, and the source, which only LINK has (R207). -/
def ResetCause.bytes (c : ResetCause) : List Byte := num1 c.code ++ optOf num1 c.source

/-- STATUS (R199). -/
def statusEffect : Effect := fun s =>
  let l := s.link
  (s, { status := .done
        payload := l.cause.bytes ++ causeBytes l.summary ++ causeBytes l.mask ++ flag1 l.attn ++ flag1 l.throttle.isSome ++
          flag1 l.delayTimer.isSome ++ flag1 l.absTimer.isSome ++ num1 l.throttleMs ++ num1 l.delayMs ++ num2 l.limitMs ++
          num1 l.replies.length ++ flag1 s.engine.serving.isSome ++ optOf num1 s.engine.serving ++ num1 s.engine.pointer ++
          listOf num1 s.galleyOrder ++ optOf num1 s.exposureHead ++ optOf num1 s.proofHead ++ flag1 s.houseLocked ++
          num1 s.queue.inUse ++ num2 s.queue.glyphsInUse ++ flag1 s.queue.highWater ++ flag1 s.flowPause ++
          num1 s.expo.state.code ++ s.expo.stops.bytes ++ s.lamp.state.bytes ++ num1 s.turret.position ++
          flag1 s.turret.locked ++ optOf num1 s.turret.exchange ++ num1 s.film.state.code ++ flag1 (!s.film.coverOpen) ++
          num1 s.proof.state.code ++ num1 s.proof.linkState })

/-! ### Notices -/

/-- READ NOTICES (R201, R202). -/
def readNoticesEffect : Effect := fun s =>
  (s.onLink fun l =>
    { l with summary := 0#24, throttle := if l.throttleMs == 0 then l.throttle else some l.throttleMs },
   { status := .done, payload := causeBytes s.link.summary ++ causeBytes s.link.mask })

/-- SET NOTICE MASK (R200). -/
def setNoticeMaskEffect (m : BitVec 24) : Effect := fun s =>
  if m &&& 0xF00000#24 != 0#24 then refuse .range s
  else (s.onLink fun l => { l with mask := m }, { status := .done, payload := causeBytes s.link.summary })

/-- SET NOTICE TIMING (R203). -/
def setNoticeTimingEffect (throttle delay limit : Nat) : Effect := fun s =>
  if !(throttle ≤ 100 && delay ≤ 255 && limit ≤ 1000) then refuse .range s
  else done (s.onLink fun l => { l with throttleMs := throttle, delayMs := delay, limitMs := limit })

/-- ATTN THROTTLE EXPIRY (R201). -/
def attnThrottleExpiryEffect (s : State) : State := s.onLink fun l => { l with throttle := none }

/-- The delivery of LINE EXPOSED (R203). -/
def State.deliverExposed (s : State) : State :=
  (s.onLink fun l => { l with delayTimer := none, absTimer := none }).raise .lineExposed

/-- LINE EXPOSED DELAY EXPIRY (R203). -/
def delayExpiryEffect (s : State) : State := if s.link.delayTimer.isSome then s.deliverExposed else s

/-- LINE EXPOSED ABSOLUTE EXPIRY (R203). -/
def absoluteExpiryEffect (s : State) : State := if s.link.absTimer.isSome then s.deliverExposed else s

/-! ### Link reset -/

/-- The Link Port's link reset (R205). -/
def Link.reset (c : ResetCause) (l : Link) : Link :=
  { l with
    summary := Notice.reset.mask, mask := 0x0FFFFF#24, throttleMs := 4, delayMs := 20, limitMs := 200, throttle := none,
    delayTimer := none, absTimer := none, cause := c, replies := [], direction := .hostToController, frameBegun := false }

/-- RESET LINK (R205): DONE is then the first reply. -/
def resetLinkEffect : Effect := fun s => done (s.onLink (Link.reset .linkRequest))

/-! ### Composition reset -/

/-- The Proof Controller's part (R193): the head line is completed when it has been begun, every other line is removed. A
line whose first byte is in transit counts as begun (DEDUCED, log entry 9). -/
def Proof.compositionReset (p : Proof) : Proof :=
  if p.begun then { p with list := p.list.take 1, gapCount := 0 }.follow
  else { p with list := [], gapCount := 0, sent := 0, lead := 0, reprint := false }.follow

/-- The Line Queue's part (R140): every entry but the one IN FLIGHT is removed, and that one loses its attribution. -/
def State.clearQueue (s : State) : State :=
  let s := (s.queue.entries.filter fun e => e.expo != .inFlight).foldl State.removeEntry s
  (s.onQueue fun q => { q with entries := q.entries.map fun e => { e with attributed := false } }).testLow

/-- The entry in flight whose line has been removed from the print list is NOT TAKEN again (R193). -/
def State.withdrawLine (s : State) : State :=
  s.onQueue fun q =>
    { q with entries := q.entries.map fun e =>
        if e.proof == .inPrint && !(s.proof.list.any fun l => l.kind == PrintKind.entry e.serial) then
          { e with proof := .notTaken }
        else e }

/-- RESET COMPOSITION (R204). The last duration and its clamped flag, which R163 does not name, stay as they were (DESIGN CHOICE, log
entry 34). -/
def resetCompositionEffect : Effect := fun s =>
  let s := [0, 1, 2, 3].foldl State.discardLine s
  let s := s.clearQueue
  let s := retireWhere (fun e => match e.scope with | .job _ _ => true | _ => false) s
  let s := { s with jobs := s.jobs.map fun _ => Job.free, galleyOrder := [], engine := { serving := none, pointer := 0 } }
  let s := (s.onProof Proof.compositionReset).withdrawLine
  let s := s.onExpo fun x =>
    { x with state := if x.state == .waitingLamp then .idle else x.state
             flight := x.flight.map fun fl => { fl with attributed := false } }
  let s := s.onFilm fun f => { f with owner := match f.owner with | .job _ _ => .ended | o => o }
  let s := s.onLink fun l => { l with cause := .composition }
  done (s.raise .reset).recomputeHeads

/-! ### Power-on reset -/

/-- POWER ON RESET (R206, R18, R36, R64, R88, R105, R125, R140, R163, R179, R193): every block at its power-on values, with the
readings sensed; an open cover raises COVER OPEN, and paper read OUT raises PROOF STOPPED. The frames that wait at the handshake
are dropped (DESIGN CHOICE, log entry 3); the commands of the queue have not come yet and stay. -/
def powerOnResetEffect (r : Readings) (s : State) : State :=
  let s' : State :=
    { State.reset with
      turret := Turret.powerOn r.hatchOpen, film := Film.powerOn r.filmPresent r.coverOpen,
      proof := Proof.powerOn r.paperOut, freeCount := s.freeCount, pending := s.pending }
  (s'.raiseIf r.coverOpen .coverOpen).raiseIf r.paperOut .proofStopped

end Sys2Proof.Machine
end

