-- ==== Sys2Proof/Machine/RequestFrame.lean ====
section
/-! DEFINITION. The form of a request frame (R196, R207): what command a request code and a payload spell, and none where the frame
is answered FORMAT. -/

namespace Sys2Proof.Machine

open Sys2Proof

/-- Reading fields off the front of a payload. -/
abbrev Parse := StateT (List Byte) Option

/-- One byte of the payload. -/
def readByte : Parse Byte := fun l =>
  match l with
  | [] => none
  | b :: bs => some (b, bs)

/-- A number of one byte. -/
def read1 : Parse Nat := do
  let a ← readByte
  return a.toNat

/-- A number of two bytes, the most significant first. -/
def read2 : Parse Nat := do
  let a ← read1
  let b ← read1
  return a * 256 + b

/-- A number of three bytes, the most significant first. -/
def read3 : Parse Nat := do
  let a ← read1
  let b ← read2
  return a * 65536 + b

/-- A signed byte. -/
def readInt : Parse Int := do
  let a ← readByte
  return a.toInt

/-- A field read a number of times. -/
def readMany {α : Type} (p : Parse α) : Nat → Parse (List α)
  | 0 => return []
  | n + 1 => do
    let a ← p
    let l ← readMany p n
    return a :: l

/-- A list preceded by its count. -/
def readList {α : Type} (p : Parse α) : Parse (List α) := do
  let n ← read1
  readMany p n

/-- A field preceded by its presence byte (R207); another presence byte is no form (log entry 5). -/
def readOpt {α : Type} (p : Parse α) : Parse (Option α) := do
  let n ← read1
  match n with
  | 0 => return none
  | 1 => do
    let a ← p
    return some a
  | _ => fun _ => none

/-- The rest of the payload. -/
def readRest : Parse (List Byte) := fun l => some (l, [])

/-- A kern pair. -/
def readKern : Parse KernPair := do
  let a ← readByte
  let b ← readByte
  let k ← readInt
  return { first := a, second := b, adjust := k }

/-- A pair of codes. -/
def readPair : Parse (Byte × Byte) := do
  let a ← readByte
  let b ← readByte
  return (a, b)

/-- A density correction. -/
def readDensity : Parse (Int × Int) := do
  let g ← readInt
  let o ← readInt
  return (g, o)

/-- DEFINE FONT (R12). -/
def readFont : Parse FontDef := do
  let number ← read2
  let master ← read2
  let widths ← readMany read1 190
  let hyphen ← readOpt readByte
  let kerns ← readList readKern
  let (gain, offset) ← readDensity
  let face ← read1
  let map ← readOpt (readList readPair)
  return { number, master, widths, hyphen, kerns, gain, offset, face, map }

/-- The proof map selector: keep, replace or remove (log entry 5). -/
def readMapChange : Parse MapChange := do
  let n ← read1
  match n with
  | 0 => return .keep
  | 1 => do
    let l ← readList readPair
    return .replace l
  | 2 => return .remove
  | _ => fun _ => none

/-- REVISE FONT's selection of changes (R14, R15). -/
def readRevision : Parse FontRevision := do
  let density ← readOpt readDensity
  let face ← readOpt read1
  let map ← readMapChange
  let widths ← readOpt (readList do
    let c ← readByte
    let w ← read1
    return (c, w))
  let kerns ← readOpt (readList readKern)
  let hyphen ← readOpt readByte
  return { density, face, map, widths, kerns, hyphen }

/-- OPEN JOB's parameters (R207). -/
def readParams : Parse OpenParams := do
  let font ← read2
  let size ← read2
  let leading ← read2
  let measure ← read2
  let left ← read2
  let right ← read2
  let paragraph ← read2
  let spaceMin ← read1
  let spaceOpt ← read1
  let spaceMax ← read1
  let letterMax ← read1
  let minPrefix ← read1
  let minSuffix ← read1
  let ladder ← read1
  let grade ← read1
  let zone ← read2
  let quad ← read1
  let hyphenate ← read1
  let language ← read1
  let policy ← read1
  return { font, size, leading, measure, left, right, paragraph, spaceMin, spaceOpt, spaceMax, letterMax, minPrefix, minSuffix,
           ladder, grade, zone, quad, hyphenate, language, policy }

/-- A house style (R54). -/
def readHouse : Parse HouseStyle := do
  let spaceFloor ← read1
  let spaceCeiling ← read1
  let letterCeiling ← read1
  let prefixFloor ← read1
  let suffixFloor ← read1
  let ladderCeiling ← read1
  let sizeLow ← read2
  let sizeHigh ← read2
  let measureLow ← read2
  let measureHigh ← read2
  return { spaceFloor, spaceCeiling, letterCeiling, prefixFloor, suffixFloor, ladderCeiling, sizeLow, sizeHigh, measureLow,
           measureHigh }

/-- Six-bit indices from packed bytes, the first in the most significant bits (R207). -/
def unpackIndices (n : Nat) (bs : List Byte) : List Nat :=
  let v := bs.foldl (fun acc b => acc * 256 + b.toNat) 0
  (List.range n).map fun k => v / 2 ^ (8 * bs.length - 6 * (k + 1)) % 64

/-- An affix rule: header and packed string (R207). Bit 6 of the header, to which R207 gives no meaning, is ignored (DESIGN CHOICE, log
entry 5). -/
def readRule : Parse AffixRule := do
  let h ← read1
  let n := h % 16
  let bs ← readMany readByte ((6 * n + 7) / 8)
  return { suffix := h ≥ 128, grade := h / 16 % 4, letters := unpackIndices n bs }

/-- A language table (R92). -/
def readLanguage : Parse LanguageDef := do
  let letterMap ← readMany read1 190
  let vowels ← readList read1
  let rules ← readList readRule
  return { letterMap, vowels, rules }

/-- A scope owner (R207). -/
def readOwner : Parse ScopeArg := do
  let scope ← read1
  let slot ← read1
  let jobId ← read2
  return { scope, slot, jobId }

/-- A list of breaks (R207). -/
def readBreaks : Parse (List WordBreak) := readList do
  let position ← read1
  let grade ← read1
  return { position, grade }

/-- A naming: its form byte and its fields (R113, R207). -/
def readName : Parse WordName := do
  let form ← read1
  match form with
  | 0 => do
    let n ← read2
    return .bySlot n
  | 1 => do
    let l ← read1
    let w ← readList readByte
    let o ← readOwner
    return .byKey l w o
  | _ => fun _ => none

/-- The forms of QUERY WORD (R120). -/
def readWordQuery : Parse WordQuery := do
  let form ← read1
  match form with
  | 0 => do
    let n ← read2
    return .bySlot n
  | 1 => do
    let l ← read1
    let w ← readList readByte
    let o ← readOwner
    return .byKey l w o
  | 2 => do
    let s ← read1
    let l ← read1
    let w ← readList readByte
    return .asSeenBy s l w
  | _ => fun _ => none

/-- The forms of QUERY QUEUE (R142). -/
def readQueueQuery : Parse QueueQuery := do
  let form ← read1
  match form with
  | 0 => do
    let n ← read1
    return .summary n
  | 1 => do
    let n ← read2
    let g ← read1
    return .entry n g
  | _ => fun _ => none

/-- The payload of a request code (R207). SET PROOF (0x78) carries its printer rate as a number of two bytes (DESIGN CHOICE, log entry 5). -/
def readPayload (code : Nat) (tag : Byte) : Parse Instr :=
  match code with
  | 0x01 => return .identify tag
  | 0x02 => return .status tag
  | 0x03 => return .readNotices tag
  | 0x04 => do let m ← read3; return .setNoticeMask tag (BitVec.ofNat 24 m)
  | 0x05 => do let a ← read1; let b ← read1; let c ← read2; return .setNoticeTiming tag a b c
  | 0x06 => return .resetLink tag
  | 0x07 => return .resetComposition tag
  | 0x10 => do let d ← readFont; return .defineFont tag d
  | 0x11 => do let n ← read2; let r ← readRevision; return .reviseFont tag n r
  | 0x12 => do let n ← read2; return .retireFont tag n
  | 0x13 => do let n ← read2; return .queryFont tag n
  | 0x20 => do let n ← read1; return .prepareExchange tag n
  | 0x21 => do let n ← read1; return .cancelExchange tag n
  | 0x22 => return .queryStations tag
  | 0x23 => do let l ← readList read1; return .setStationProtection tag l
  | 0x30 => do let s ← read1; let j ← read2; let p ← readParams; return .openJob tag s j p
  | 0x31 => do let s ← read1; let t ← readRest; return .sendText tag s t
  | 0x32 => do let s ← read1; let j ← read2; return .closeJob tag s j
  | 0x33 => do let s ← read1; let j ← read2; return .abortJob tag s j
  | 0x34 => do let s ← read1; return .queryJob tag s
  | 0x35 => do let h ← readHouse; return .setHouseStyle tag h
  | 0x36 => return .lockHouse tag
  | 0x37 => do let g ← read2; return .setGalleyGap tag g
  | 0x40 => do let l ← read1; let t ← readLanguage; return .defineLanguage tag l t
  | 0x41 => do let l ← read1; return .queryLanguage tag l
  | 0x42 => do let s ← read1; let t ← readList readByte; return .tryWord tag s t
  | 0x48 => do
    let l ← read1
    let w ← readList readByte
    let b ← readBreaks
    let o ← readOwner
    return .addWord tag l w b o
  | 0x49 => do let n ← readName; let b ← readBreaks; return .amendWord tag n b
  | 0x4A => do let n ← readName; return .retireWord tag n
  | 0x4B => do let c ← read1; let l ← read1; let s ← read1; let j ← read2; return .retireWords tag c l s j
  | 0x4C => do let l ← read1; let t ← read2; return .pruneWords tag l t
  | 0x4D => do let q ← readWordQuery; return .queryWord tag q
  | 0x4E => do let c ← read2; let l ← read1; let k ← read1; let s ← read1; let j ← read2; return .listWords tag c l k s j
  | 0x50 => do let a ← read1; let b ← read1; let c ← read2; let d ← read2; return .setQueueMarks tag a b c d
  | 0x51 => do let q ← readQueueQuery; return .queryQueue tag q
  | 0x60 => return .holdExposure tag
  | 0x61 => return .releaseExposure tag
  | 0x62 => return .lampOn tag
  | 0x63 => return .lampOff tag
  | 0x64 => do let w ← read2; let f ← read2; let t ← read1; return .setLamp tag w f t
  | 0x65 => return .queryExposure tag
  | 0x70 => do let n ← read3; return .loadFilm tag n
  | 0x71 => return .feedAndCut tag
  | 0x72 => do let n ← read3; return .setLowFilm tag n
  | 0x73 => return .queryFilm tag
  | 0x78 => do let e ← read1; let r ← read2; return .setProof tag e r
  | 0x79 => return .queryProof tag
  | _ => fun _ => none

/-- The command a frame spells: its code names a request, its payload has the length its fields and counts require, its form selectors
name forms (R196); none where the Link Port answers FORMAT. -/
def requestOfFrame (code tag : Byte) (payload : List Byte) : Option Instr :=
  match readPayload code.toNat tag payload with
  | some (i, []) => if i.shapeOk then some i else none
  | _ => none

/-- REQUEST FRAME FORMAT (R196): answered FORMAT with its own code and tag, and not delivered. A frame of good form is not this event
(log entry 6). -/
def requestFrameFormatEffect (code tag : Byte) (payload : List Byte) (s : State) : State :=
  s.receive (.requestFrameFormat code tag payload) fun s =>
    if (requestOfFrame code tag payload).isSome then s
    else (s.onLink fun l => { l with frameBegun := false }).pushReply code tag { status := .format }

/-- LENGTH FIELD ERROR (R196): answered FORMAT with code 0 and tag 0, and the port discards. A permitted length is not this event. -/
def lengthFieldErrorEffect (n : Nat) (s : State) : State :=
  s.receive (.lengthFieldError n) fun s =>
    if 2 ≤ n && n ≤ 622 then s
    else (s.onLink fun l => { l with frameBegun := false, discarding := true }).pushReply 0#8 0#8 { status := .format }

/-- DISCARD QUIET TIMEOUT (R196). -/
def discardQuietEffect (s : State) : State := s.onLink fun l => { l with discarding := false }

end Sys2Proof.Machine
end

