-- ==== Sys2Proof/Machine/Requests.lean ====
section
/-! DEFINITION. Every request with its owner's effect, for the frames that wait at the handshake; and the events that take them from
there: REPLY SENT and the loss of framing (R194, R195, R205). -/

namespace Sys2Proof.Machine

open Sys2Proof

/-- The tag and effect of a request; none for an event. -/
def effectOf : Instr → Option (Byte × Effect)
  | .identify tag => some (tag, identifyEffect)
  | .status tag => some (tag, statusEffect)
  | .readNotices tag => some (tag, readNoticesEffect)
  | .setNoticeMask tag mask => some (tag, setNoticeMaskEffect mask)
  | .setNoticeTiming tag throttle delay limit => some (tag, setNoticeTimingEffect throttle delay limit)
  | .resetLink tag => some (tag, resetLinkEffect)
  | .resetComposition tag => some (tag, settled resetCompositionEffect)
  | .defineFont tag font => some (tag, settled (defineFontEffect font))
  | .reviseFont tag number revision => some (tag, reviseFontEffect number revision)
  | .retireFont tag number => some (tag, retireFontEffect number)
  | .queryFont tag number => some (tag, queryFontEffect number)
  | .prepareExchange tag station => some (tag, settled (prepareExchangeEffect station))
  | .cancelExchange tag station => some (tag, settled (cancelExchangeEffect station))
  | .queryStations tag => some (tag, queryStationsEffect)
  | .setStationProtection tag stations => some (tag, setStationProtectionEffect stations)
  | .openJob tag slot jobId params => some (tag, settled (openJobEffect slot jobId params))
  | .sendText tag slot text => some (tag, settled (sendTextEffect slot text))
  | .closeJob tag slot jobId => some (tag, settled (closeJobEffect slot jobId))
  | .abortJob tag slot jobId => some (tag, settledReply (abortJobEffect slot jobId) (abortReply slot))
  | .queryJob tag slot => some (tag, queryJobEffect slot)
  | .setHouseStyle tag style => some (tag, setHouseStyleEffect style)
  | .lockHouse tag => some (tag, lockHouseEffect)
  | .setGalleyGap tag gap => some (tag, setGalleyGapEffect gap)
  | .defineLanguage tag language table => some (tag, defineLanguageEffect language table)
  | .queryLanguage tag language => some (tag, queryLanguageEffect language)
  | .tryWord tag slot text => some (tag, tryWordEffect slot text)
  | .addWord tag language word breaks owner => some (tag, addWordEffect language word breaks owner)
  | .amendWord tag name breaks => some (tag, amendWordEffect name breaks)
  | .retireWord tag name => some (tag, retireWordEffect name)
  | .retireWords tag cls language jobSlot jobId => some (tag, retireWordsEffect cls language jobSlot jobId)
  | .pruneWords tag language threshold => some (tag, pruneWordsEffect language threshold)
  | .queryWord tag query => some (tag, queryWordEffect query)
  | .listWords tag cursor language cls jobSlot jobId => some (tag, listWordsEffect cursor language cls jobSlot jobId)
  | .setQueueMarks tag entryHigh entryLow glyphHigh glyphLow => some (tag, settled (setQueueMarksEffect entryHigh entryLow glyphHigh glyphLow))
  | .queryQueue tag query => some (tag, queryQueueEffect query)
  | .holdExposure tag => some (tag, settled holdExposureEffect)
  | .releaseExposure tag => some (tag, settled releaseExposureEffect)
  | .lampOn tag => some (tag, lampOnEffect)
  | .lampOff tag => some (tag, settled lampOffEffect)
  | .setLamp tag weak fail timeout => some (tag, settled (setLampEffect weak fail timeout))
  | .queryExposure tag => some (tag, queryExposureEffect)
  | .loadFilm tag length => some (tag, settled (loadFilmEffect length))
  | .feedAndCut tag => some (tag, settled feedAndCutEffect)
  | .setLowFilm tag threshold => some (tag, setLowFilmEffect threshold)
  | .queryFilm tag => some (tag, queryFilmEffect)
  | .setProof tag enable rate => some (tag, settledReply (setProofEffect enable rate) fun _ t => t.proof.settingBytes)
  | .queryProof tag => some (tag, queryProofEffect)
  | _ => none

/-- A frame that waited at the handshake comes again. -/
def State.runFrame (s : State) (i : Instr) : State :=
  match effectOf i, i with
  | some (tag, e), _ => s.accept i tag e
  | none, .requestFrameFormat code tag payload => requestFrameFormatEffect code tag payload s
  | none, .lengthFieldError n => lengthFieldErrorEffect n s
  | none, _ => s

/-- Acknowledge is given: the frames that wait come in their order, as far as the reply queue has room (R195). -/
def State.runWithheld (s : State) : State :=
  s.link.withheld.foldl State.runFrame (s.onLink fun l => { l with withheld := [] })

/-- REPLY SENT (R195): the reply leaves the queue; the direction turns back when it is empty, and a withheld frame is acknowledged. -/
def replySentEffect (s : State) : State :=
  match s.link.replies with
  | [] => s
  | _ :: rest =>
    (s.onLink fun l =>
      { l with replies := rest, direction := if rest.isEmpty then .hostToController else l.direction }).runWithheld

/-- FRAMING LOSS TIMEOUT (R194, R205): a link reset without a reply; the reply queue is then empty, and a withheld frame is
acknowledged. It is one in every state, also with no reply waiting and no frame begun (DESIGN CHOICE, log entry 38). -/
def framingLossEffect (s : State) : State := (s.onLink (Link.reset .linkFraming)).runWithheld

end Sys2Proof.Machine
end

