-- ==== Sys2Proof/Machine/CatalogueCommands.lean ====
section
/-! DEFINITION. The meanings of the commands of the Font Catalogue (spec/01). -/

namespace Sys2Proof.Machine

open Sys2Proof

/-- DEFINE FONT (R12). -/
def execDefineFont (tag : Byte) (font : FontDef) (s : State) : Host.Outcome State Fault Refusal :=
  .next (s.accept (.defineFont tag font) tag (settled (defineFontEffect font)))

/-- REVISE FONT (R15). -/
def execReviseFont (tag : Byte) (number : Nat) (revision : FontRevision) (s : State) : Host.Outcome State Fault Refusal :=
  .next (s.accept (.reviseFont tag number revision) tag (reviseFontEffect number revision))

/-- RETIRE FONT (R16). -/
def execRetireFont (tag : Byte) (number : Nat) (s : State) : Host.Outcome State Fault Refusal :=
  .next (s.accept (.retireFont tag number) tag (retireFontEffect number))

/-- QUERY FONT (R17). -/
def execQueryFont (tag : Byte) (number : Nat) (s : State) : Host.Outcome State Fault Refusal :=
  .next (s.accept (.queryFont tag number) tag (queryFontEffect number))

end Sys2Proof.Machine
end

