-- ==== Sys2Proof/Machine/DictionaryCommands.lean ====
section
/-! DEFINITION. The meanings of the commands of the Exception Dictionary (spec/06). -/

namespace Sys2Proof.Machine

open Sys2Proof

/-- ADD WORD (R114). -/
def execAddWord (tag : Byte) (language : Nat) (word : List Byte) (breaks : List WordBreak) (owner : ScopeArg) (s : State) : Host.Outcome State Fault Refusal :=
  .next (s.accept (.addWord tag language word breaks owner) tag (addWordEffect language word breaks owner))

/-- AMEND WORD (R115). -/
def execAmendWord (tag : Byte) (name : WordName) (breaks : List WordBreak) (s : State) : Host.Outcome State Fault Refusal :=
  .next (s.accept (.amendWord tag name breaks) tag (amendWordEffect name breaks))

/-- RETIRE WORD (R116). -/
def execRetireWord (tag : Byte) (name : WordName) (s : State) : Host.Outcome State Fault Refusal :=
  .next (s.accept (.retireWord tag name) tag (retireWordEffect name))

/-- RETIRE WORDS (R117). -/
def execRetireWords (tag : Byte) (cls : Nat) (language : Nat) (jobSlot : Nat) (jobId : Nat) (s : State) : Host.Outcome State Fault Refusal :=
  .next (s.accept (.retireWords tag cls language jobSlot jobId) tag (retireWordsEffect cls language jobSlot jobId))

/-- PRUNE WORDS (R118). -/
def execPruneWords (tag : Byte) (language : Nat) (threshold : Nat) (s : State) : Host.Outcome State Fault Refusal :=
  .next (s.accept (.pruneWords tag language threshold) tag (pruneWordsEffect language threshold))

/-- QUERY WORD (R120). -/
def execQueryWord (tag : Byte) (query : WordQuery) (s : State) : Host.Outcome State Fault Refusal :=
  .next (s.accept (.queryWord tag query) tag (queryWordEffect query))

/-- LIST WORDS (R121). -/
def execListWords (tag : Byte) (cursor : Nat) (language : Nat) (cls : Nat) (jobSlot : Nat) (jobId : Nat) (s : State) : Host.Outcome State Fault Refusal :=
  .next (s.accept (.listWords tag cursor language cls jobSlot jobId) tag (listWordsEffect cursor language cls jobSlot jobId))

end Sys2Proof.Machine
end

