-- ==== Sys2Proof/Machine/ExposureCommands.lean ====
section
/-! DEFINITION. The meanings of the commands of the Exposure Controller and the Lamp Monitor (spec/08). -/

namespace Sys2Proof.Machine

open Sys2Proof

/-- DISPATCH (R145). -/
def execDispatch (s : State) : Host.Outcome State Fault Refusal :=
  .next (settledEvent dispatchEffect s)

/-- CARRIAGE ARRIVAL (R149). -/
def execCarriageArrival (s : State) : Host.Outcome State Fault Refusal :=
  .next (carriageArrivalEffect s)

/-- LENS ARRIVAL (R148). -/
def execLensArrival (s : State) : Host.Outcome State Fault Refusal :=
  .next (settledEvent lensArrivalEffect s)

/-- FLASH COMPLETE (R149). -/
def execFlashComplete (sample : Nat) (s : State) : Host.Outcome State Fault Refusal :=
  .next (settledEvent (flashCompleteEffect sample) s)

/-- HOLD EXPOSURE (R155). -/
def execHoldExposure (tag : Byte) (s : State) : Host.Outcome State Fault Refusal :=
  .next (s.accept (.holdExposure tag) tag (settled holdExposureEffect))

/-- RELEASE EXPOSURE (R156). -/
def execReleaseExposure (tag : Byte) (s : State) : Host.Outcome State Fault Refusal :=
  .next (s.accept (.releaseExposure tag) tag (settled releaseExposureEffect))

/-- LAMP ON (R159). -/
def execLampOn (tag : Byte) (s : State) : Host.Outcome State Fault Refusal :=
  .next (s.accept (.lampOn tag) tag lampOnEffect)

/-- LAMP OFF (R159). -/
def execLampOff (tag : Byte) (s : State) : Host.Outcome State Fault Refusal :=
  .next (s.accept (.lampOff tag) tag (settled lampOffEffect))

/-- SET LAMP (R161). -/
def execSetLamp (tag : Byte) (weak : Nat) (fail : Nat) (timeout : Nat) (s : State) : Host.Outcome State Fault Refusal :=
  .next (s.accept (.setLamp tag weak fail timeout) tag (settled (setLampEffect weak fail timeout)))

/-- QUERY EXPOSURE (R162). -/
def execQueryExposure (tag : Byte) (s : State) : Host.Outcome State Fault Refusal :=
  .next (s.accept (.queryExposure tag) tag queryExposureEffect)

/-- PHOTOCELL SAMPLE (R157). -/
def execPhotocellSample (sample : Nat) (s : State) : Host.Outcome State Fault Refusal :=
  .next (settledEvent (photocellSampleEffect sample) s)

/-- IGNITION TIMER EXPIRY (R159). -/
def execIgnitionTimerExpiry (s : State) : Host.Outcome State Fault Refusal :=
  .next (settledEvent ignitionExpiryEffect s)

/-- ECONOMY TIMER EXPIRY (R160). -/
def execEconomyTimerExpiry (s : State) : Host.Outcome State Fault Refusal :=
  .next (settledEvent economyExpiryEffect s)

/-- RECOVERY TIMER EXPIRY (R160). -/
def execRecoveryTimerExpiry (s : State) : Host.Outcome State Fault Refusal :=
  .next (settledEvent recoveryExpiryEffect s)

/-- VALIDITY TIMER EXPIRY (R157). -/
def execValidityTimerExpiry (s : State) : Host.Outcome State Fault Refusal :=
  .next (settledEvent validityExpiryEffect s)

end Sys2Proof.Machine
end

