-- ==== Sys2Proof/Machine/FilmCommands.lean ====
section
/-! DEFINITION. The meanings of the commands of the Film Transport (spec/09). -/

namespace Sys2Proof.Machine

open Sys2Proof

/-- DRIVE STOP (R165). -/
def execDriveStop (reading : Nat) (s : State) : Host.Outcome State Fault Refusal :=
  .next (settledEvent (driveStopEffect reading) s)

/-- FILM PRESENT CHANGE (R166). -/
def execFilmPresentChange (present : Bool) (s : State) : Host.Outcome State Fault Refusal :=
  .next (settledEvent (filmPresentChangeEffect present) s)

/-- CUTTER HOME (R175). -/
def execCutterHome (s : State) : Host.Outcome State Fault Refusal :=
  .next (settledEvent cutterHomeEffect s)

/-- CUTTER TIMEOUT (R175). -/
def execCutterTimeout (s : State) : Host.Outcome State Fault Refusal :=
  .next (settledEvent cutterTimeoutEffect s)

/-- COVER OPENED (R176). -/
def execCoverOpened (s : State) : Host.Outcome State Fault Refusal :=
  .next (settledEvent coverOpenedEffect s)

/-- COVER CLOSED (R176). -/
def execCoverClosed (s : State) : Host.Outcome State Fault Refusal :=
  .next (coverClosedEffect s)

/-- LOAD FILM (R173). -/
def execLoadFilm (tag : Byte) (length : Nat) (s : State) : Host.Outcome State Fault Refusal :=
  .next (s.accept (.loadFilm tag length) tag (settled (loadFilmEffect length)))

/-- FEED AND CUT (R174). -/
def execFeedAndCut (tag : Byte) (s : State) : Host.Outcome State Fault Refusal :=
  .next (s.accept (.feedAndCut tag) tag (settled feedAndCutEffect))

/-- SET LOW FILM (R177). -/
def execSetLowFilm (tag : Byte) (threshold : Nat) (s : State) : Host.Outcome State Fault Refusal :=
  .next (s.accept (.setLowFilm tag threshold) tag (setLowFilmEffect threshold))

/-- QUERY FILM (R178). -/
def execQueryFilm (tag : Byte) (s : State) : Host.Outcome State Fault Refusal :=
  .next (s.accept (.queryFilm tag) tag queryFilmEffect)

end Sys2Proof.Machine
end

