-- ==== Sys2Proof/Machine/HyphenCommands.lean ====
section
/-! DEFINITION. The meanings of the commands of the Hyphenation Unit (spec/05). -/

namespace Sys2Proof.Machine

open Sys2Proof

/-- DEFINE LANGUAGE (R92). -/
def execDefineLanguage (tag : Byte) (language : Nat) (table : LanguageDef) (s : State) : Host.Outcome State Fault Refusal :=
  .next (s.accept (.defineLanguage tag language table) tag (defineLanguageEffect language table))

/-- QUERY LANGUAGE (R93). -/
def execQueryLanguage (tag : Byte) (language : Nat) (s : State) : Host.Outcome State Fault Refusal :=
  .next (s.accept (.queryLanguage tag language) tag (queryLanguageEffect language))

/-- TRY WORD (R104). -/
def execTryWord (tag : Byte) (slot : Nat) (text : List Byte) (s : State) : Host.Outcome State Fault Refusal :=
  .next (s.accept (.tryWord tag slot text) tag (tryWordEffect slot text))

end Sys2Proof.Machine
end

