-- ==== Sys2Proof/Machine/JobCommands.lean ====
section
/-! DEFINITION. The meanings of the commands of the Job Table (spec/03). -/

namespace Sys2Proof.Machine

open Sys2Proof

/-- OPEN JOB (R45). -/
def execOpenJob (tag : Byte) (slot : Nat) (jobId : Nat) (params : OpenParams) (s : State) : Host.Outcome State Fault Refusal :=
  .next (s.accept (.openJob tag slot jobId params) tag (settled (openJobEffect slot jobId params)))

/-- SEND TEXT (R48). -/
def execSendText (tag : Byte) (slot : Nat) (text : List Byte) (s : State) : Host.Outcome State Fault Refusal :=
  .next (s.accept (.sendText tag slot text) tag (settled (sendTextEffect slot text)))

/-- CLOSE JOB (R49). -/
def execCloseJob (tag : Byte) (slot : Nat) (jobId : Nat) (s : State) : Host.Outcome State Fault Refusal :=
  .next (s.accept (.closeJob tag slot jobId) tag (settled (closeJobEffect slot jobId)))

/-- ABORT JOB (R51). -/
def execAbortJob (tag : Byte) (slot : Nat) (jobId : Nat) (s : State) : Host.Outcome State Fault Refusal :=
  .next (s.accept (.abortJob tag slot jobId) tag (settledReply (abortJobEffect slot jobId) (abortReply slot)))

/-- QUERY JOB (R53). -/
def execQueryJob (tag : Byte) (slot : Nat) (s : State) : Host.Outcome State Fault Refusal :=
  .next (s.accept (.queryJob tag slot) tag (queryJobEffect slot))

/-- SET HOUSE STYLE (R54). -/
def execSetHouseStyle (tag : Byte) (style : HouseStyle) (s : State) : Host.Outcome State Fault Refusal :=
  .next (s.accept (.setHouseStyle tag style) tag (setHouseStyleEffect style))

/-- LOCK HOUSE (R55). -/
def execLockHouse (tag : Byte) (s : State) : Host.Outcome State Fault Refusal :=
  .next (s.accept (.lockHouse tag) tag lockHouseEffect)

/-- SET GALLEY GAP (R56). -/
def execSetGalleyGap (tag : Byte) (gap : Nat) (s : State) : Host.Outcome State Fault Refusal :=
  .next (s.accept (.setGalleyGap tag gap) tag (setGalleyGapEffect gap))

end Sys2Proof.Machine
end

