-- ==== Sys2Proof/Machine/LinkCommands.lean ====
section
/-! DEFINITION. The meanings of the commands of the Link Port (spec/11_the_composition_link.md). -/

namespace Sys2Proof.Machine

open Sys2Proof

/-- POWER ON RESET (R206). -/
def execPowerOnReset (sensed : Readings) (s : State) : Host.Outcome State Fault Refusal :=
  .next (powerOnResetEffect sensed s)

/-- REQUEST FRAME FORMAT (R196). -/
def execRequestFrameFormat (code : Byte) (tag : Byte) (payload : List Byte) (s : State) : Host.Outcome State Fault Refusal :=
  .next (requestFrameFormatEffect code tag payload s)

/-- LENGTH FIELD ERROR (R196). -/
def execLengthFieldError (length : Nat) (s : State) : Host.Outcome State Fault Refusal :=
  .next (lengthFieldErrorEffect length s)

/-- DISCARD QUIET TIMEOUT (R196). -/
def execDiscardQuietTimeout (s : State) : Host.Outcome State Fault Refusal :=
  .next (discardQuietEffect s)

/-- FRAMING LOSS TIMEOUT (R194). -/
def execFramingLossTimeout (s : State) : Host.Outcome State Fault Refusal :=
  .next (framingLossEffect s)

/-- REPLY SENT (R195). -/
def execReplySent (s : State) : Host.Outcome State Fault Refusal :=
  .next (replySentEffect s)

/-- IDENTIFY (R198). -/
def execIdentify (tag : Byte) (s : State) : Host.Outcome State Fault Refusal :=
  .next (s.accept (.identify tag) tag identifyEffect)

/-- STATUS (R199). -/
def execStatus (tag : Byte) (s : State) : Host.Outcome State Fault Refusal :=
  .next (s.accept (.status tag) tag statusEffect)

/-- READ NOTICES (R202). -/
def execReadNotices (tag : Byte) (s : State) : Host.Outcome State Fault Refusal :=
  .next (s.accept (.readNotices tag) tag readNoticesEffect)

/-- SET NOTICE MASK (R200). -/
def execSetNoticeMask (tag : Byte) (mask : BitVec 24) (s : State) : Host.Outcome State Fault Refusal :=
  .next (s.accept (.setNoticeMask tag mask) tag (setNoticeMaskEffect mask))

/-- SET NOTICE TIMING (R203). -/
def execSetNoticeTiming (tag : Byte) (throttle : Nat) (delay : Nat) (limit : Nat) (s : State) : Host.Outcome State Fault Refusal :=
  .next (s.accept (.setNoticeTiming tag throttle delay limit) tag (setNoticeTimingEffect throttle delay limit))

/-- RESET LINK (R205). -/
def execResetLink (tag : Byte) (s : State) : Host.Outcome State Fault Refusal :=
  .next (s.accept (.resetLink tag) tag resetLinkEffect)

/-- RESET COMPOSITION (R204). -/
def execResetComposition (tag : Byte) (s : State) : Host.Outcome State Fault Refusal :=
  .next (s.accept (.resetComposition tag) tag (settled resetCompositionEffect))

/-- ATTN THROTTLE EXPIRY (R201). -/
def execAttnThrottleExpiry (s : State) : Host.Outcome State Fault Refusal :=
  .next (attnThrottleExpiryEffect s)

/-- LINE EXPOSED DELAY EXPIRY (R203). -/
def execLineExposedDelayExpiry (s : State) : Host.Outcome State Fault Refusal :=
  .next (delayExpiryEffect s)

/-- LINE EXPOSED ABSOLUTE EXPIRY (R203). -/
def execLineExposedAbsoluteExpiry (s : State) : Host.Outcome State Fault Refusal :=
  .next (absoluteExpiryEffect s)

end Sys2Proof.Machine
end

