-- ==== Sys2Proof/Machine/ProofCommands.lean ====
section
/-! DEFINITION. The meanings of the commands of the Proof Controller (spec/10). -/

namespace Sys2Proof.Machine

open Sys2Proof

/-- SET PROOF (R191). -/
def execSetProof (tag : Byte) (enable : Nat) (rate : Nat) (s : State) : Host.Outcome State Fault Refusal :=
  .next (s.accept (.setProof tag enable rate) tag (settledReply (setProofEffect enable rate) fun _ t => t.proof.settingBytes))

/-- QUERY PROOF (R192). -/
def execQueryProof (tag : Byte) (s : State) : Host.Outcome State Fault Refusal :=
  .next (s.accept (.queryProof tag) tag queryProofEffect)

/-- PROOF BYTE SENT (R188). -/
def execProofByteSent (s : State) : Host.Outcome State Fault Refusal :=
  .next (settledEvent proofByteSentEffect s)

/-- XOFF RECEIVED (R189). -/
def execXoffReceived (s : State) : Host.Outcome State Fault Refusal :=
  .next (xoffEffect s)

/-- XON RECEIVED (R189). -/
def execXonReceived (s : State) : Host.Outcome State Fault Refusal :=
  .next (xonEffect s)

/-- PRINTER BYTE DISCARDED (R189). -/
def execPrinterByteDiscarded (_byte : Byte) (s : State) : Host.Outcome State Fault Refusal :=
  .next s

/-- STALL TIMER EXPIRY (R189). -/
def execStallTimerExpiry (s : State) : Host.Outcome State Fault Refusal :=
  .next (stallExpiryEffect s)

/-- PAPER OUT (R190). -/
def execPaperOut (s : State) : Host.Outcome State Fault Refusal :=
  .next (paperOutEffect s)

/-- PAPER PRESENT (R190). -/
def execPaperPresent (s : State) : Host.Outcome State Fault Refusal :=
  .next (paperPresentEffect s)

end Sys2Proof.Machine
end

