-- ==== Sys2Proof/Machine/QueueCommands.lean ====
section
/-! DEFINITION. The meanings of the commands of the Line Queue (spec/07). -/

namespace Sys2Proof.Machine

open Sys2Proof

/-- SET QUEUE MARKS (R141). -/
def execSetQueueMarks (tag : Byte) (entryHigh : Nat) (entryLow : Nat) (glyphHigh : Nat) (glyphLow : Nat) (s : State) : Host.Outcome State Fault Refusal :=
  .next (s.accept (.setQueueMarks tag entryHigh entryLow glyphHigh glyphLow) tag (settled (setQueueMarksEffect entryHigh entryLow glyphHigh glyphLow)))

/-- QUERY QUEUE (R142). -/
def execQueryQueue (tag : Byte) (query : QueueQuery) (s : State) : Host.Outcome State Fault Refusal :=
  .next (s.accept (.queryQueue tag query) tag (queryQueueEffect query))

end Sys2Proof.Machine
end

