-- ==== Sys2Proof/Machine/SettingCommands.lean ====
section
/-! DEFINITION. The meanings of the commands of the Setting Engine (spec/04). -/

namespace Sys2Proof.Machine

open Sys2Proof

/-- TAKE BYTE (R70). -/
def execTakeByte (s : State) : Host.Outcome State Fault Refusal :=
  .next (settledEvent takeByteEffect s)

/-- PLACE WORD (R71). -/
def execPlaceWord (s : State) : Host.Outcome State Fault Refusal :=
  .next (settledEvent placeWordEffect s)

/-- SET LINE (R77). -/
def execSetLine (s : State) : Host.Outcome State Fault Refusal :=
  .next (settledEvent setLineEffect s)

end Sys2Proof.Machine
end

