-- ==== Sys2Proof/Machine/TurretCommands.lean ====
section
/-! DEFINITION. The meanings of the commands of the Turret Controller (spec/02). -/

namespace Sys2Proof.Machine

open Sys2Proof

/-- PREPARE EXCHANGE (R28). -/
def execPrepareExchange (tag : Byte) (station : Nat) (s : State) : Host.Outcome State Fault Refusal :=
  .next (s.accept (.prepareExchange tag station) tag (settled (prepareExchangeEffect station)))

/-- CANCEL EXCHANGE (R33). -/
def execCancelExchange (tag : Byte) (station : Nat) (s : State) : Host.Outcome State Fault Refusal :=
  .next (s.accept (.cancelExchange tag station) tag (settled (cancelExchangeEffect station)))

/-- QUERY STATIONS (R38). -/
def execQueryStations (tag : Byte) (s : State) : Host.Outcome State Fault Refusal :=
  .next (s.accept (.queryStations tag) tag queryStationsEffect)

/-- SET STATION PROTECTION (R37). -/
def execSetStationProtection (tag : Byte) (stations : List Nat) (s : State) : Host.Outcome State Fault Refusal :=
  .next (s.accept (.setStationProtection tag stations) tag (setStationProtectionEffect stations))

/-- ROTATION ARRIVAL (R20). -/
def execRotationArrival (s : State) : Host.Outcome State Fault Refusal :=
  .next (settledEvent rotationArrivalEffect s)

/-- INDEX FOUND (R36). -/
def execIndexFound (s : State) : Host.Outcome State Fault Refusal :=
  .next (indexFoundEffect s)

/-- HATCH OPENED (R31). -/
def execHatchOpened (s : State) : Host.Outcome State Fault Refusal :=
  .next (hatchOpenedEffect s)

/-- HATCH CLOSED (R31). -/
def execHatchClosed (s : State) : Host.Outcome State Fault Refusal :=
  .next (settledEvent hatchClosedEffect s)

/-- STRIP READ COMPLETE (R22). -/
def execStripReadComplete (code : Nat) (s : State) : Host.Outcome State Fault Refusal :=
  .next (settledEvent (stripReadCompleteEffect code) s)

end Sys2Proof.Machine
end

