-- ==== Sys2Proof/Machine/Dispatch.lean ====
section
/-! DEFINITION. Every command to its meaning. -/

namespace Sys2Proof.Machine

open Sys2Proof

def exec (i : Instr) (s : State) : Host.Outcome State Fault Refusal :=
  match i with
  | .powerOnReset sensed => Sys2Proof.Machine.execPowerOnReset sensed s
  | .requestFrameFormat code tag payload => Sys2Proof.Machine.execRequestFrameFormat code tag payload s
  | .lengthFieldError length => Sys2Proof.Machine.execLengthFieldError length s
  | .discardQuietTimeout => Sys2Proof.Machine.execDiscardQuietTimeout s
  | .framingLossTimeout => Sys2Proof.Machine.execFramingLossTimeout s
  | .replySent => Sys2Proof.Machine.execReplySent s
  | .identify tag => Sys2Proof.Machine.execIdentify tag s
  | .status tag => Sys2Proof.Machine.execStatus tag s
  | .readNotices tag => Sys2Proof.Machine.execReadNotices tag s
  | .setNoticeMask tag mask => Sys2Proof.Machine.execSetNoticeMask tag mask s
  | .setNoticeTiming tag throttle delay limit => Sys2Proof.Machine.execSetNoticeTiming tag throttle delay limit s
  | .resetLink tag => Sys2Proof.Machine.execResetLink tag s
  | .resetComposition tag => Sys2Proof.Machine.execResetComposition tag s
  | .attnThrottleExpiry => Sys2Proof.Machine.execAttnThrottleExpiry s
  | .lineExposedDelayExpiry => Sys2Proof.Machine.execLineExposedDelayExpiry s
  | .lineExposedAbsoluteExpiry => Sys2Proof.Machine.execLineExposedAbsoluteExpiry s
  | .defineFont tag font => Sys2Proof.Machine.execDefineFont tag font s
  | .reviseFont tag number revision => Sys2Proof.Machine.execReviseFont tag number revision s
  | .retireFont tag number => Sys2Proof.Machine.execRetireFont tag number s
  | .queryFont tag number => Sys2Proof.Machine.execQueryFont tag number s
  | .prepareExchange tag station => Sys2Proof.Machine.execPrepareExchange tag station s
  | .cancelExchange tag station => Sys2Proof.Machine.execCancelExchange tag station s
  | .queryStations tag => Sys2Proof.Machine.execQueryStations tag s
  | .setStationProtection tag stations => Sys2Proof.Machine.execSetStationProtection tag stations s
  | .rotationArrival => Sys2Proof.Machine.execRotationArrival s
  | .indexFound => Sys2Proof.Machine.execIndexFound s
  | .hatchOpened => Sys2Proof.Machine.execHatchOpened s
  | .hatchClosed => Sys2Proof.Machine.execHatchClosed s
  | .stripReadComplete code => Sys2Proof.Machine.execStripReadComplete code s
  | .openJob tag slot jobId params => Sys2Proof.Machine.execOpenJob tag slot jobId params s
  | .sendText tag slot text => Sys2Proof.Machine.execSendText tag slot text s
  | .closeJob tag slot jobId => Sys2Proof.Machine.execCloseJob tag slot jobId s
  | .abortJob tag slot jobId => Sys2Proof.Machine.execAbortJob tag slot jobId s
  | .queryJob tag slot => Sys2Proof.Machine.execQueryJob tag slot s
  | .setHouseStyle tag style => Sys2Proof.Machine.execSetHouseStyle tag style s
  | .lockHouse tag => Sys2Proof.Machine.execLockHouse tag s
  | .setGalleyGap tag gap => Sys2Proof.Machine.execSetGalleyGap tag gap s
  | .takeByte => Sys2Proof.Machine.execTakeByte s
  | .placeWord => Sys2Proof.Machine.execPlaceWord s
  | .setLine => Sys2Proof.Machine.execSetLine s
  | .defineLanguage tag language table => Sys2Proof.Machine.execDefineLanguage tag language table s
  | .queryLanguage tag language => Sys2Proof.Machine.execQueryLanguage tag language s
  | .tryWord tag slot text => Sys2Proof.Machine.execTryWord tag slot text s
  | .addWord tag language word breaks owner => Sys2Proof.Machine.execAddWord tag language word breaks owner s
  | .amendWord tag name breaks => Sys2Proof.Machine.execAmendWord tag name breaks s
  | .retireWord tag name => Sys2Proof.Machine.execRetireWord tag name s
  | .retireWords tag cls language jobSlot jobId => Sys2Proof.Machine.execRetireWords tag cls language jobSlot jobId s
  | .pruneWords tag language threshold => Sys2Proof.Machine.execPruneWords tag language threshold s
  | .queryWord tag query => Sys2Proof.Machine.execQueryWord tag query s
  | .listWords tag cursor language cls jobSlot jobId => Sys2Proof.Machine.execListWords tag cursor language cls jobSlot jobId s
  | .setQueueMarks tag entryHigh entryLow glyphHigh glyphLow => Sys2Proof.Machine.execSetQueueMarks tag entryHigh entryLow glyphHigh glyphLow s
  | .queryQueue tag query => Sys2Proof.Machine.execQueryQueue tag query s
  | .dispatch => Sys2Proof.Machine.execDispatch s
  | .carriageArrival => Sys2Proof.Machine.execCarriageArrival s
  | .lensArrival => Sys2Proof.Machine.execLensArrival s
  | .flashComplete sample => Sys2Proof.Machine.execFlashComplete sample s
  | .holdExposure tag => Sys2Proof.Machine.execHoldExposure tag s
  | .releaseExposure tag => Sys2Proof.Machine.execReleaseExposure tag s
  | .lampOn tag => Sys2Proof.Machine.execLampOn tag s
  | .lampOff tag => Sys2Proof.Machine.execLampOff tag s
  | .setLamp tag weak fail timeout => Sys2Proof.Machine.execSetLamp tag weak fail timeout s
  | .queryExposure tag => Sys2Proof.Machine.execQueryExposure tag s
  | .photocellSample sample => Sys2Proof.Machine.execPhotocellSample sample s
  | .ignitionTimerExpiry => Sys2Proof.Machine.execIgnitionTimerExpiry s
  | .economyTimerExpiry => Sys2Proof.Machine.execEconomyTimerExpiry s
  | .recoveryTimerExpiry => Sys2Proof.Machine.execRecoveryTimerExpiry s
  | .validityTimerExpiry => Sys2Proof.Machine.execValidityTimerExpiry s
  | .driveStop reading => Sys2Proof.Machine.execDriveStop reading s
  | .filmPresentChange present => Sys2Proof.Machine.execFilmPresentChange present s
  | .cutterHome => Sys2Proof.Machine.execCutterHome s
  | .cutterTimeout => Sys2Proof.Machine.execCutterTimeout s
  | .coverOpened => Sys2Proof.Machine.execCoverOpened s
  | .coverClosed => Sys2Proof.Machine.execCoverClosed s
  | .loadFilm tag length => Sys2Proof.Machine.execLoadFilm tag length s
  | .feedAndCut tag => Sys2Proof.Machine.execFeedAndCut tag s
  | .setLowFilm tag threshold => Sys2Proof.Machine.execSetLowFilm tag threshold s
  | .queryFilm tag => Sys2Proof.Machine.execQueryFilm tag s
  | .setProof tag enable rate => Sys2Proof.Machine.execSetProof tag enable rate s
  | .queryProof tag => Sys2Proof.Machine.execQueryProof tag s
  | .proofByteSent => Sys2Proof.Machine.execProofByteSent s
  | .xoffReceived => Sys2Proof.Machine.execXoffReceived s
  | .xonReceived => Sys2Proof.Machine.execXonReceived s
  | .printerByteDiscarded byte => Sys2Proof.Machine.execPrinterByteDiscarded byte s
  | .stallTimerExpiry => Sys2Proof.Machine.execStallTimerExpiry s
  | .paperOut => Sys2Proof.Machine.execPaperOut s
  | .paperPresent => Sys2Proof.Machine.execPaperPresent s

end Sys2Proof.Machine
end

