-- ==== Sys2Proof/Safety.lean ====
section
/-! DEFINITION. What a sound state of each block is: the relations between fields that the rules promise and that every command keeps;
and what the statements say of a request that is received. -/

namespace Sys2Proof.Machine

open Sys2Proof

/-! ### A request that is received -/

/-- The Link Port takes the next frame: it does not discard, and fewer than four replies wait (R195, R196). -/
abbrev State.accepting (s : State) : Prop := s.link.discarding = false ∧ s.link.replies.length < 4

/-- The state in which the owner of a received request finds the controller: no frame is partly received any longer. -/
def State.received (s : State) : State := s.onLink fun l => { l with frameBegun := false }

/-- Nothing is due of the blocks' own within this event: the closing part of a step changes nothing. -/
abbrev State.atRest (s : State) : Prop := settle s s = s

/-- The requests whose event the blocks react to (95_what_each_step_holds.md). -/
def settlesAfter : Instr → Bool
  | .resetComposition _ | .defineFont _ _ | .prepareExchange _ _ | .cancelExchange _ _ | .openJob _ _ _ _ | .sendText _ _ _
  | .closeJob _ _ _ | .abortJob _ _ _ | .setQueueMarks _ _ _ _ _ | .holdExposure _ | .releaseExposure _ | .lampOff _
  | .setLamp _ _ _ _ | .loadFilm _ _ | .feedAndCut _ | .setProof _ _ _ => true
  | _ => false

/-- A frame of the host: a request, or one of the two that fail R196. -/
def isFrame (i : Instr) : Bool :=
  (effectOf i).isSome ||
  match i with
  | .requestFrameFormat _ _ _ | .lengthFieldError _ => true
  | _ => false

/-- The reply of a request answered with no payload and no flag. -/
def plainReply (i : Instr) (tag : Byte) (st : Status) : Reply :=
  { code := codeByte i, tag := tag, status := st, clamped := false, part := false, payload := [] }

/-- The reply of a request answered with a payload and no flag. -/
def replyWith (i : Instr) (tag : Byte) (st : Status) (payload : List Byte) : Reply :=
  { code := codeByte i, tag := tag, status := st, clamped := false, part := false, payload := payload }

/-- The link after a reply has been appended, when no frame is partly received (R194, R195). -/
def Link.withReply (l : Link) (r : Reply) : Link :=
  { l with replies := l.replies ++ [r], direction := .controllerToHost, frameBegun := false }

/-- A state in which a received request has been answered with a reply, its effect being `t`. -/
def State.answered (t : State) (r : Reply) : State := { t with link := t.link.withReply r }

/-! ### Link Port -/

/-- R195: at most four replies, and frames wait only while four do; R200: no cause beyond the twenty; R194: the direction. -/
def LinkOk (s : State) : Prop :=
  s.link.replies.length ≤ 4 ∧
  s.link.summary &&& 0xF00000#24 = 0#24 ∧
  s.link.mask &&& 0xF00000#24 = 0#24 ∧
  (s.link.withheld ≠ [] → s.link.replies.length = 4) ∧
  (s.link.replies = [] → s.link.direction = .hostToController) ∧
  (s.link.replies ≠ [] → s.link.frameBegun = false → s.link.direction = .controllerToHost)

/-! ### Font Catalogue -/

/-- A record but for its reference count. -/
def FontRecord.uncounted (r : FontRecord) : FontRecord := { r with stationPart := 0, entryPart := 0, linePart := 0 }

/-- R1: 0 to 32 records, no two of one font number or of one master code; held in ascending font number. -/
def CatalogueOk (s : State) : Prop :=
  s.fonts.length ≤ 32 ∧ (s.fonts.map (·.number)).Pairwise (· < ·) ∧ (s.fonts.map (·.master)).Nodup

/-! ### Exception Dictionary -/

/-- R106 to R110: the slots, the keys, the quota of each job, the words, their breaks and their counts. -/
def DictOk (s : State) : Prop :=
  (s.dict.map (·.slot)).Pairwise (· < ·) ∧
  (∀ e ∈ s.dict, e.slot < 4096) ∧
  (s.dict.map fun e => (e.language, e.word, e.scope)).Nodup ∧
  (∀ slot id, s.dict.countP (isJobWord slot id) ≤ 256) ∧
  ∀ e ∈ s.dict,
    e.language ≤ 3 ∧ 2 ≤ e.word.length ∧ e.word.length ≤ 31 ∧ breaksOk e.word.length e.breaks = true ∧ e.hits ≤ 65535

/-- R124: a JOB entry lives no longer than its job's composition. -/
def JobWordsOk (s : State) : Prop :=
  ∀ e ∈ s.dict, ∀ slot id, e.scope = .job slot id →
    slot < 4 ∧ (s.job slot).id = id ∧ ((s.job slot).state = .active ∨ (s.job slot).state = .closing)

/-! ### Line Queue -/

/-- R126, R133, R141: the capacities, the marks and what the high-water condition promises. -/
def QueueOk (s : State) : Prop :=
  s.queue.inUse ≤ 64 ∧ s.queue.glyphsInUse ≤ 6144 ∧ s.queue.nextSerial < 65536 ∧
  s.queue.entryLow < s.queue.entryHigh ∧ s.queue.entryHigh ≤ 64 ∧
  s.queue.glyphLow < s.queue.glyphHigh ∧ s.queue.glyphHigh ≤ 6144 ∧
  (s.queue.highWater = true → s.queue.atLow = false) ∧
  (s.queue.highWater = false → s.queue.atHigh = false)

/-! ### Jobs -/

/-- R40, R43: four slots, and the galley order list holds each slot that is not FREE once. -/
def GalleyOk (s : State) : Prop :=
  s.jobs.length = 4 ∧ s.galleyOrder.Nodup ∧ ∀ n, n ∈ s.galleyOrder ↔ n < 4 ∧ (s.job n).state ≠ .free

/-! ### Exposure Controller and Lamp Monitor -/

/-- The states of the second group: an entry is in flight (R143). -/
def ExpoState.inFlight : ExpoState → Bool
  | .leading | .selecting | .waitingTurret | .flashing | .filmOperation => true
  | _ => false

/-- R143, R154: an entry is in flight in the states of the second group alone, and there are stop reasons in STOPPED alone. -/
def ExpoOk (s : State) : Prop :=
  s.expo.flight.isSome = s.expo.state.inFlight ∧ (s.expo.state ≠ .stopped → s.expo.stops = Stops.none)

/-- R157 to R161: the limits, the fail limit kept in READY and RECOVERING, and the timers of each lamp state. -/
def LampOk (s : State) : Prop :=
  1 ≤ s.lamp.failLimit ∧ s.lamp.failLimit < s.lamp.weakLimit ∧ s.lamp.weakLimit ≤ 4031 ∧ s.lamp.index ≤ 4095 ∧
  s.lamp.invalid ≤ 3 ∧
  (s.lamp.state = .ready ∨ s.lamp.state = .recovering → s.lamp.failLimit ≤ s.lamp.index) ∧
  (s.lamp.ignitionTimer = true ↔ s.lamp.state = .igniting) ∧
  (s.lamp.recoveryTimer = true ↔ s.lamp.state = .recovering) ∧
  (s.lamp.validityTimer = true ↔ s.lamp.state = .ready ∨ s.lamp.state = .economy ∨ s.lamp.state = .recovering) ∧
  (s.lamp.economyTimer.isSome = true → s.lamp.state = .ready)

/-! ### Film Transport -/

/-- The order of the positions after a verified end (R164 to R171): Yc ≤ Y ≤ Ymax ≤ Lf, and Y within the reverse allowance. -/
def Film.verified (f : Film) : Prop :=
  f.origin ≤ f.baseline ∧ f.baseline ≤ f.highMark ∧ f.highMark ≤ f.loaded ∧ f.highMark ≤ f.baseline + 18000

/-- The order of the positions with the 1 eu a jam may leave on either side (R166). -/
def Film.jamBounds (f : Film) : Prop :=
  f.origin ≤ f.baseline + 1 ∧ f.baseline ≤ f.loaded + 1 ∧ f.origin ≤ f.highMark ∧ f.highMark ≤ f.loaded ∧
  f.highMark ≤ f.baseline + 18001 ∧ f.baseline ≤ f.highMark + 1

/-- What holds of the target of a lead or positive move under way (R167, R170, R172). -/
def Film.forwardOk (f : Film) (gap : Option Nat) : Prop :=
  match f.target with
  | none => False
  | some t => f.verified ∧ t ≤ f.loaded ∧ match gap with
    | none => f.baseline ≤ t
    | some g => f.highMark + g ≤ t

/-- The positions and the target in each state of the transport (R164 to R175). -/
def FilmOk (s : State) : Prop :=
  match s.film.state, s.film.mover with
  | .atRest, .none => s.film.verified
  | .jammed, .none => s.film.jamBounds
  | .moving, .lead g | .trimming, .lead g | .moving, .forward g | .trimming, .forward g => s.film.forwardOk g
  | .moving, .reverse _ | .trimming, .reverse _ =>
    match s.film.target with
    | none => False
    | some t => s.film.verified ∧ s.film.origin ≤ t ∧ t ≤ s.film.baseline ∧ s.film.highMark ≤ t + 18000
  | .feeding, .cutEntry | .feeding, .hostCut _ =>
    s.film.jamBounds ∧ s.film.target = some (min (s.film.highMark + 900) s.film.loaded)
  | .cutting, .cutEntry | .cutting, .hostCut _ =>
    s.film.verified ∧ s.film.target = some s.film.baseline ∧ s.film.highMark = s.film.baseline
  | _, _ => False

/-! ### Proof Controller -/

/-- R180, R181, R186, R187: PRINTING while a line waits, and at most one entry line, one gap line and eight spoil lines. -/
def ProofOk (s : State) : Prop :=
  (s.proof.state = .printing ↔ s.proof.list ≠ []) ∧
  (s.proof.disablePending = true → s.proof.list ≠ []) ∧
  s.proof.list.countP PrintLine.isEntry ≤ 1 ∧ s.proof.list.countP PrintLine.isGap ≤ 1 ∧
  s.proof.list.countP PrintLine.isSpoil ≤ 8

/-! ### Turret and the rest -/

/-- R19, R37, R65, R89: eight stations, a station protection set of distinct station numbers, four language tables, and the engine's
two slot numbers. -/
def ShapeOk (s : State) : Prop :=
  s.turret.stations.length = 8 ∧ s.turret.protection.Nodup ∧ (∀ n ∈ s.turret.protection, n < 8) ∧
  s.languages.length = 4 ∧ s.engine.pointer < 4 ∧ ∀ n ∈ s.engine.serving, n < 4

/-! ### References, claims and pins, and the turret under them -/

/-- A station holds a record: it is MOUNTED, or DRAINING from MOUNTED (R11). -/
def Station.bound (st : Station) : Bool := st.state == .mounted || (st.state == .draining && st.prior == some .mounted)

/-- R8: every record's count equals its holders, part by part, and no font that a line or an entry has a run in is absent. -/
def RefsOk (s : State) : Prop :=
  (∀ r ∈ s.fonts,
    r.stationPart = s.turret.stations.countP (fun st => st.holds r.number) ∧
    r.entryPart = s.queue.entries.countP (fun e => e.body.fonts.contains r.number) ∧
    r.linePart = s.jobs.countP (fun j => j.line.fonts.contains r.number)) ∧
  (∀ e ∈ s.queue.entries, ∀ n ∈ e.body.fonts, (s.font n).isSome = true) ∧
  ∀ j ∈ s.jobs, ∀ n ∈ j.line.fonts, (s.font n).isSome = true

/-- R11: a station that is MOUNTED, or DRAINING from MOUNTED, names a present record whose master code is the station's last-read
code; no other station names a record. -/
def BindingOk (s : State) : Prop :=
  ∀ st ∈ s.turret.stations,
    st.font.isSome = st.bound ∧ ∀ n, st.font = some n → ∃ r, s.font n = some r ∧ r.master = st.code

/-- R24, R25: a station's setting claims are the jobs whose line has a run on it, its pins the entries with a run on it whose exposure
is not done, and a station with either is MOUNTED or DRAINING: it is never OPEN or VERIFYING. -/
def ClaimsOk (s : State) : Prop :=
  ∀ n, n < 8 →
    (s.station n).claims = s.jobs.countP (fun j => j.line.stations.contains n) ∧
    (s.station n).pins = s.queue.entries.countP (fun e => e.expo != .done && e.body.stations.contains n) ∧
    (0 < (s.station n).claims ∨ 0 < (s.station n).pins → (s.station n).bound = true)

/-- A station still to be read at step k + 1 of the verification pass, or after it (R36). -/
def aheadOf (k n : Nat) : Prop := ∃ j, k ≤ j ∧ j < 8 ∧ n = (j + 4) % 8

/-- Where the stations and the motion stand at each point of the verification pass (R36). -/
def PassOk (s : State) : Prop :=
  match s.turret.pass with
  | .none => (∀ n, n < 8 → (s.station n).state = .verifying → s.turret.exchange = some n) ∧
      ∀ target, s.turret.motion ≠ .rotating .verification target
  | .waitHatch | .seeking =>
    s.turret.exchange = none ∧ s.turret.read = .none ∧ (∃ target, s.turret.motion = .rotating .verification target) ∧
    ∀ n, n < 8 → (s.station n).state = .verifying
  | .reading k =>
    s.turret.exchange = none ∧ k < 8 ∧ s.turret.position = k ∧ (∃ target, s.turret.motion = .rotating .verification target) ∧
    ∀ n, n < 8 → ((s.station n).state = .verifying ↔ aheadOf k n)
  | .stepping k =>
    k ≤ 8 ∧ (k < 8 → s.turret.exchange = none) ∧ s.turret.read = .none ∧ s.turret.motion = .rotating .verification (k % 8) ∧
    ∀ n, n < 8 → ((s.station n).state = .verifying ↔ aheadOf k n)

/-- R25, R28 to R36: the exchange station and the station at the hatch, where a strip is read; a rotation for EXCHANGE runs for a
DRAINING station that is free. -/
def TurretOk (s : State) : Prop :=
  (∀ n, s.turret.exchange = some n → n < 8 ∧
    ((s.station n).state = .draining ∨
      (((s.station n).state = .opened ∨ (s.station n).state = .verifying) ∧ s.turret.motion = .atRest ∧
        s.turret.position = (n + 4) % 8))) ∧
  (∀ n, n < 8 → (s.station n).state = .draining ∨ (s.station n).state = .opened → s.turret.exchange = some n) ∧
  (∀ n, n < 8 → (s.station n).state = .draining →
    (s.station n).prior = some .mounted ∨ (s.station n).prior = some .empty ∨ (s.station n).prior = some .unknown) ∧
  (s.turret.read ≠ .none → (s.station s.turret.hatchStation).state = .verifying) ∧
  (∀ target, s.turret.motion = .rotating .exchange target →
    ∃ n, s.turret.exchange = some n ∧ (s.station n).state = .draining ∧ target = (n + 4) % 8 ∧
      (s.station n).pins = 0 ∧ (s.station n).claims = 0) ∧
  PassOk s

/-- R69, R71, R75, R85, R49, R51: a held line's glyphs have left the line in progress; a line with a glyph, and no other, has been opened; a
font has one station in a line; a job that is not composing holds no line, and one whose composition is finished holds nothing. -/
def LinesOk (s : State) : Prop :=
  ∀ j ∈ s.jobs,
    (j.line.held.isSome = true → j.line.glyphs = []) ∧
    (j.line.params.isSome = true ↔ j.line.glyphs ≠ []) ∧
    (∀ g ∈ j.line.glyphs, ∀ h ∈ j.line.glyphs, g.font = h.font → g.station = h.station) ∧
    (j.state = .free ∨ j.state = .aborting → j.line.glyphs = [] ∧ j.line.held = none) ∧
    (j.finished = true → j.state = .closing ∧ j.text = [] ∧ j.line.isEmpty = true)

/-- R127, R143: at most 64 entries, their serials distinct; the entry in flight is present and IN FLIGHT. -/
def FlightOk (s : State) : Prop :=
  s.queue.inUse ≤ 64 ∧ (s.queue.entries.map (·.serial)).Nodup ∧
  ∀ fl, s.expo.flight = some fl → ∃ e ∈ s.queue.entries, e.serial = fl.serial ∧ e.expo = .inFlight

/-- The laws that R8, R11, R24 and R25 state for all times, with the relations they rest on. -/
def HoldersOk (s : State) : Prop :=
  CatalogueOk s ∧ ExpoOk s ∧ s.jobs.length = 4 ∧ s.turret.stations.length = 8 ∧ (∀ n ∈ s.engine.serving, n < 4) ∧
  RefsOk s ∧ BindingOk s ∧ ClaimsOk s ∧ TurretOk s ∧ LinesOk s ∧ FlightOk s

end Sys2Proof.Machine
end

