-- ==== Sys2Proof/Certificates/Slice0/Obligations.lean ====
section
/-! DEFINITION. The statements for the provers, chapter by chapter of the spec; OBLIGATIONS.json lists them. A request's statement says
what follows when the Link Port takes the frame (`accepting`); `received` is the state its owner finds, `answered` the state with the
reply appended, and `settle` the closing part of the step. -/

open Sys2Proof Sys2Proof.Machine

/-! ### Every command -/

/-- Step takes the command at the front of the queue; on an empty queue the block idles (the model's choice, log entry 10). -/
def Obligations.StepTakesTheFrontCommand : Prop :=
  ∀ s : State,
    (∀ (i : Instr) (rest : List Instr), s.pending = i :: rest → step s = exec i { s with pending := rest }) ∧
    (s.pending = [] → step s = .next s)

/-- R195, R197: a request that is received, other than RESET LINK, is answered by exactly one reply, appended at the tail of the reply
queue, with the request's own code and tag; no other frame is touched. Log entry 38: that a frame is received whatever the data
lines' direction, while fewer than four replies wait, is read from R195. -/
def Obligations.ReceivedRequestGetsOneReply : Prop :=
  ∀ (s : State) (i : Instr) (tag : Byte) (e : Effect),
    effectOf i = some (tag, e) → (∀ g, i ≠ .resetLink g) → s.accepting →
    ∃ (t : State) (r : Reply),
      exec i s = .next t ∧ t.link.replies = s.link.replies ++ [r] ∧ r.code = codeByte i ∧ r.tag = tag ∧
      t.link.withheld = s.link.withheld ∧ t.link.direction = .controllerToHost ∧ t.link.frameBegun = false ∧
      (i.shapeOk = false → r.status = .format ∧ r.payload = [] ∧ r.clamped = false ∧ r.part = false)

/-- R197: a request answered with any status but DONE or STARTED changed nothing: but for its reply the state is the one before. A
request whose event the blocks react to meets this where nothing is due of their own. -/
def Obligations.RefusedRequestChangesNothing : Prop :=
  ∀ (s t : State) (i : Instr) (tag : Byte) (e : Effect) (r : Reply),
    effectOf i = some (tag, e) → s.accepting → (settlesAfter i = true → s.received.atRest) → exec i s = .next t →
    t.link.replies = s.link.replies ++ [r] → r.status ≠ .done → r.status ≠ .started → t = s.answered r

/-- R195, R196: a frame is lost while the port discards; it waits, the last of those that wait, while four replies do; and REPLY SENT
takes the head of the reply queue, after which the frame that waits comes as it would have come then. Log entry 3: that a frame
waits whole, and that two or more that wait come one after another, is read from R195; log entry 6: that REPLY SENT with no reply
waiting changes nothing is the model's choice. -/
def Obligations.FramesWaitForTheReplyQueue : Prop :=
  ∀ (s : State) (i : Instr), isFrame i = true →
    (s.link.discarding = true → exec i s = .next s) ∧
    (s.link.discarding = false → 4 ≤ s.link.replies.length →
      exec i s = .next { s with link := { s.link with withheld := s.link.withheld ++ [i] } }) ∧
    (s.link.replies = [] → exec .replySent s = .next s) ∧
    (∀ (r : Reply) (rest : List Reply), s.link.replies = r :: rest →
      (s.link.withheld = [] →
        exec .replySent s =
          .next { s with link := { s.link with
            replies := rest, direction := if rest = [] then .hostToController else s.link.direction } }) ∧
      (s.link.withheld = [i] →
        exec .replySent s =
          exec i { s with link := { s.link with
            replies := rest, direction := if rest = [] then .hostToController else s.link.direction, withheld := [] } }) ∧
      (∀ more : List Instr, s.link.withheld = i :: more →
        ∃ u : State,
          exec i { s with link := { s.link with
            replies := rest, direction := if rest = [] then .hostToController else s.link.direction
            withheld := [] } } = .next u ∧
          exec .replySent s = .next (more.foldl State.runFrame u))) ∧
    ∀ (u : State), exec i u = .next (u.runFrame i)

/-- R196: a frame that fails its form is answered FORMAT without payload and changes nothing else: with its own code and tag where
its length is permitted, with code 0 and tag 0 where it is not, after which the port discards until the line is quiet. -/
def Obligations.MalformedFramesAreAnsweredFormat : Prop :=
  ∀ s : State,
    (∀ (code tag : Byte) (payload : List Byte), s.accepting → requestOfFrame code tag payload = none →
      exec (.requestFrameFormat code tag payload) s =
        .next (s.answered { code := code, tag := tag, status := .format, clamped := false, part := false, payload := [] })) ∧
    (∀ n : Nat, s.accepting → n < 2 ∨ 622 < n →
      exec (.lengthFieldError n) s =
        .next (({ s with link := { s.link with discarding := true } } : State).answered
          { code := 0#8, tag := 0#8, status := .format, clamped := false, part := false, payload := [] })) ∧
    (∀ (i : Instr) (tag : Byte) (e : Effect), effectOf i = some (tag, e) → s.accepting → i.shapeOk = false →
      exec i s = .next (s.answered (plainReply i tag .format))) ∧
    exec .discardQuietTimeout s = .next { s with link := { s.link with discarding := false } }

/-- R26, R44, R49, R50, R66, R68, R132, R134, R135, R144, R145, R148, R169, R181: what the blocks do of their own in the closing
part of a step, and its frame. Nothing is left due: no job that R50 frees, no head or name out of date, no waiting item with room,
no turn to grant, no entry to take for proof, no WAITING LAMP to enter or to leave, no lens to send, no selection to take, no
flashing to begin, no exchange positioning and no byte to begin. The two completions, the two entries named, the eligible slots and
the choice from the pointer, and the way into and out of WAITING LAMP are given. A job freed keeps its id and its counters alone.
Then the lamp's economy and the stall timer are judged. It leaves the link but for causes joining the summary, the house, the
language tables, the geometry of the film, the water marks and the station protection set as they are, and every font record all but
its counts. Log entries 22 and 33: the closing part as reactions in a fixed order, run at most 100 times, with the economy and the
stall judged after them by the states before and after, is the model's choice. -/
def Obligations.ClosingPartFrame : Prop :=
  ∀ before s : State,
    (s.jobs.length = 4 →
      let t := reactAll 100 s
      (∀ n ∈ t.galleyOrder, t.freeable n = false) ∧
      t.exposureHead = t.galleyOrder.find? (fun n => !t.exposureComplete n) ∧
      t.proofHead = t.galleyOrder.find? (fun n => !t.proofingComplete n) ∧
      t.expo.named = t.nextForExposure ∧ t.proof.named = t.nextForProof ∧
      (∀ n ∈ t.galleyOrder, ∀ b, (t.job n).waiting = some b → t.admits n b = false) ∧
      (t.engine.serving = none → ∀ n, n < 4 → t.eligible n = false) ∧
      (t.proof.taking = true → (∀ l ∈ t.proof.list, l.isEntry = false) → t.proof.named.bind t.queue.find = none) ∧
      t.turret.positioningDue = none ∧
      (t.proof.flowOn = true → t.proof.paperOut = false → t.proof.list ≠ [] → t.proof.transit ≠ .none) ∧
      (let line := ∃ e, t.expo.named.bind t.queue.find = some e ∧ e.body.kind = .line
       (t.expo.state = .idle → line → t.film.state = .atRest → t.lamp.state = .ready) ∧
       (t.expo.state = .waitingLamp → line)) ∧
      (s.expo.state = .idle ∨ s.expo.state = .waitingLamp → t.expo.state = .idle ∨ t.expo.state = .waitingLamp) ∧
      (∀ fl r, t.expo.state = .selecting ∨ t.expo.state = .waitingTurret → t.expo.flight = some fl → t.flightRun fl = some r →
        (t.expo.lens = some r.size ∨ t.expo.lensTarget ≠ none) ∧
        (fl.selecting = true → t.select fl r = none) ∧
        (fl.selecting = false → t.expo.lensTarget ≠ none ∨ t.turret.motion ≠ .atRest)) ∧
      settle before s = (before.judgeEconomy t).onProof before.proof.judgeStall) ∧
    (∀ n : Nat, n < s.jobs.length →
      let j := s.job n
      (s.freeable n = true ↔
        ((j.state = .closing ∧ j.finished = true) ∨ (j.state = .aborting ∧ j.markPending = false)) ∧
        ∀ e ∈ s.queue.entries, ¬(e.attributed = true ∧ e.slot = n ∧ e.jobId = j.id)) ∧
      s.freeJob n =
        (({ s with
          galleyOrder := s.galleyOrder.filter (fun m => m ≠ n)
          dict := if j.state = .closing then s.dict.filter (fun e => !isJobWord n j.id e) else s.dict
          film := { s.film with owner := if s.film.owner = .job n j.id then .ended else s.film.owner }
          jobs := s.jobs.set n { Job.free with
            id := j.id, lineNumber := j.lineNumber, consecutive := j.consecutive, linesSet := j.linesSet
            hyphenated := j.hyphenated, looseLines := j.looseLines, missingChars := j.missingChars
            ignoredBytes := j.ignoredBytes, clampedCodes := j.clampedCodes } } : State).raise .jobDrained)) ∧
    (∀ n : Nat,
      let j := s.job n
      let mine := fun e : Entry => e.attributed = true ∧ e.slot = n ∧ e.jobId = j.id
      (s.exposureComplete n = true ↔
        ((j.state = .closing ∧ j.finished = true) ∨ j.state = .aborting) ∧
        ∀ e ∈ s.queue.entries, mine e → e.expo = .done) ∧
      (s.proofingComplete n = true ↔
        j.params.policy = .none ∨
        (((j.state = .closing ∧ j.finished = true) ∨ (j.state = .aborting ∧ j.markPending = false)) ∧
          ∀ e ∈ s.queue.entries, mine e → e.proof = .done)) ∧
      (s.exposureHead = some n → ∀ k, s.nextForExposure = some k ↔
        ∃ older e newer, s.queue.entries = older ++ e :: newer ∧ e.serial = k ∧ mine e ∧ e.expo = .waiting ∧
          ∀ x ∈ older, ¬(mine x ∧ x.expo = .waiting)) ∧
      (s.proofHead = some n → ∀ k, s.nextForProof = some k ↔
        ∃ older e newer, s.queue.entries = older ++ e :: newer ∧ e.serial = k ∧ mine e ∧ e.proof = .notTaken ∧
          ∀ x ∈ older, ¬(mine x ∧ x.proof = .notTaken)) ∧
      (s.eligible n = true ↔
        (j.state = .active ∨ (j.state = .closing ∧ j.finished = false)) ∧ j.status = .ready ∧
        (s.flowPause = true → j.line.glyphs ≠ [] ∨ j.line.ending ≠ none))) ∧
    (s.exposureHead = none → s.nextForExposure = none) ∧ (s.proofHead = none → s.nextForProof = none) ∧
    (∀ u : State, s.chooseTurn = some u ↔
      s.engine.serving = none ∧ ∃ k, k < 4 ∧ s.eligible ((s.engine.pointer + k) % 4) = true ∧
        (∀ m, m < k → s.eligible ((s.engine.pointer + m) % 4) = false) ∧
        u = { s with engine := { s.engine with serving := some ((s.engine.pointer + k) % 4) } }) ∧
    (∀ u : State, s.reactLamp = some u ↔
      let line := ∃ e, s.expo.named.bind s.queue.find = some e ∧ e.body.kind = .line
      (s.expo.state = .idle ∧ line ∧ s.film.state = .atRest ∧ s.lamp.state ≠ .ready ∧
        u = { s with expo := { s.expo with state := .waitingLamp } }) ∨
      (s.expo.state = .waitingLamp ∧ ¬line ∧ u = { s with expo := { s.expo with state := .idle } })) ∧
    (s.flowPause = true ↔
      s.queue.highWater = true ∧ ∀ n, s.exposureHead = some n → ∃ e ∈ s.queue.entries, s.ownedBy n e = true) ∧
    (s.offerWaiting =
      (s.galleyOrder.find? fun n => ((s.job n).waiting.map (s.admits n)).getD false).bind fun n =>
        (s.job n).waiting.map fun b =>
          if (s.job n).markPending then s.appendEntry n b else (s.appendEntry n b).admitted n b) ∧
    { (settle before s).link with summary := s.link.summary } = s.link ∧
    s.link.summary &&& (settle before s).link.summary = s.link.summary ∧
    (settle before s).fonts.map FontRecord.uncounted = s.fonts.map FontRecord.uncounted ∧
    (settle before s).house = s.house ∧ (settle before s).houseLocked = s.houseLocked ∧
    (settle before s).galleyGap = s.galleyGap ∧ (settle before s).languages = s.languages ∧
    (settle before s).dict.Sublist s.dict ∧
    { (settle before s).film with owner := s.film.owner } = s.film ∧
    (settle before s).turret.protection = s.turret.protection ∧
    (settle before s).turret.hatchOpen = s.turret.hatchOpen ∧
    (settle before s).turret.read = s.turret.read ∧
    (settle before s).queue.entryHigh = s.queue.entryHigh ∧ (settle before s).queue.entryLow = s.queue.entryLow ∧
    (settle before s).queue.glyphHigh = s.queue.glyphHigh ∧ (settle before s).queue.glyphLow = s.queue.glyphLow ∧
    (settle before s).lamp.weakLimit = s.lamp.weakLimit ∧ (settle before s).lamp.failLimit = s.lamp.failLimit ∧
    (settle before s).lamp.index = s.lamp.index ∧
    (settle before s).freeCount = s.freeCount ∧ (settle before s).pending = s.pending

/-! ### The composition link -/

/-- R198: IDENTIFY is answered DONE with its fixed values (their sizes by log entry 5), and changes no state. -/
def Obligations.IdentifyGivesTheFixedValues : Prop :=
  ∀ (s : State) (tag : Byte), s.accepting →
    exec (.identify tag) s =
      .next (s.answered
        { code := 0x01#8, tag := tag, status := .done, clamped := false, part := false
          payload :=
            [8, 0x4D, 0x41, 0x44, 0x52, 0x49, 0x4B, 0x45, 0x4C, 9, 0x53, 0x4F, 0x4C, 0x5A, 0x41, 0x52, 0x41, 0x20, 0x36, 1,
             32, 8, 4, 4, 0x10, 0x00, 0x01, 0x00, 64, 0x18, 0x00, 240, 16, 0x08, 0x00, 0x02, 0x6C, 0x03, 0xFC] })

/-- R200, R201, R202, R203: READ NOTICES takes and clears the summary and starts the throttle; SET NOTICE MASK and SET NOTICE TIMING
replace whole or refuse RANGE; the throttle's expiry stops it; ATTN is the summary and the mask sharing a cause with no throttle.
Log entry 23: that an interval of 0 leaves a running throttle as it is, is the model's choice. -/
def Obligations.NoticeRequestsAndAttn : Prop :=
  ∀ (s : State) (tag : Byte),
    (s.accepting →
      exec (.readNotices tag) s =
        .next (({ s with link := { s.link with
            summary := 0#24
            throttle := if s.link.throttleMs = 0 then s.link.throttle else some s.link.throttleMs } } : State).answered
          { code := 0x03#8, tag := tag, status := .done, clamped := false, part := false
            payload := num3 s.link.summary.toNat ++ num3 s.link.mask.toNat })) ∧
    (∀ m : BitVec 24, s.accepting → m &&& 0xF00000#24 ≠ 0#24 →
      exec (.setNoticeMask tag m) s = .next (s.answered (plainReply (.setNoticeMask tag m) tag .range))) ∧
    (∀ m : BitVec 24, s.accepting → m &&& 0xF00000#24 = 0#24 →
      exec (.setNoticeMask tag m) s =
        .next (({ s with link := { s.link with mask := m } } : State).answered
          { code := 0x04#8, tag := tag, status := .done, clamped := false, part := false
            payload := num3 s.link.summary.toNat })) ∧
    (∀ a b c : Nat, s.accepting → ¬(a ≤ 100 ∧ b ≤ 255 ∧ c ≤ 1000) →
      exec (.setNoticeTiming tag a b c) s = .next (s.answered (plainReply (.setNoticeTiming tag a b c) tag .range))) ∧
    (∀ a b c : Nat, s.accepting → a ≤ 100 → b ≤ 255 → c ≤ 1000 →
      exec (.setNoticeTiming tag a b c) s =
        .next (({ s with link := { s.link with throttleMs := a, delayMs := b, limitMs := c } } : State).answered
          { code := 0x05#8, tag := tag, status := .done, clamped := false, part := false, payload := [] })) ∧
    exec .attnThrottleExpiry s = .next { s with link := { s.link with throttle := none } } ∧
    (s.link.attn = true ↔ s.link.summary &&& s.link.mask ≠ 0#24 ∧ s.link.throttle = none)

/-- R203: at the expiry of either LINE EXPOSED timer the cause joins the summary and both timers stop; a line done starts the delay
afresh and the absolute timer only when it is not running, or delivers at once with a delay or limit of 0. -/
def Obligations.LineExposedIsDeliveredByItsTimers : Prop :=
  ∀ s : State,
    (s.link.delayTimer ≠ none →
      exec .lineExposedDelayExpiry s = .next { s with link := { s.link with
        summary := s.link.summary ||| 0x000002#24, delayTimer := none, absTimer := none } }) ∧
    (s.link.absTimer ≠ none →
      exec .lineExposedAbsoluteExpiry s = .next { s with link := { s.link with
        summary := s.link.summary ||| 0x000002#24, delayTimer := none, absTimer := none } }) ∧
    (s.link.delayMs = 0 ∨ s.link.limitMs = 0 →
      s.lineExposedDelay = { s with link := { s.link with
        summary := s.link.summary ||| 0x000002#24, delayTimer := none, absTimer := none } }) ∧
    (s.link.delayMs ≠ 0 → s.link.limitMs ≠ 0 →
      s.lineExposedDelay = { s with link := { s.link with
        delayTimer := some s.link.delayMs
        absTimer := if s.link.absTimer = none then some s.link.limitMs else s.link.absTimer } })

/-- R205: the link reset of a RESET LINK and of a loss of framing: the replies and the frame partly received go, the summary
holds RESET alone, the mask and the timings are restored, the timers stopped, LINK recorded with its source, the direction
turned; every other block keeps its state, and ATTN is asserted from the reset. The DONE of RESET LINK is the first reply after
it. Log entry 23: that a link reset leaves the discarding of a bad frame as it was is the model's choice;
log entry 38: so is that a loss of framing resets the link in every state. -/
def Obligations.LinkResetRestoresTheLink : Prop :=
  ∀ s : State,
    (∀ tag : Byte, s.accepting →
      ∃ t : State, exec (.resetLink tag) s = .next t ∧ t.link.attn = true ∧
        t = { s with link := { s.link with
          summary := 1#24, mask := 0x0FFFFF#24, throttleMs := 4, delayMs := 20, limitMs := 200, throttle := none,
          delayTimer := none, absTimer := none, cause := .linkRequest, frameBegun := false, direction := .controllerToHost,
          replies := [{ code := 0x06#8, tag := tag, status := .done, clamped := false, part := false, payload := [] }] } }) ∧
    (s.link.withheld = [] →
      ∃ t : State, exec .framingLossTimeout s = .next t ∧ t.link.attn = true ∧
        t = { s with link := { s.link with
          summary := 1#24, mask := 0x0FFFFF#24, throttleMs := 4, delayMs := 20, limitMs := 200, throttle := none,
          delayTimer := none, absTimer := none, cause := .linkFraming, frameBegun := false, direction := .hostToController,
          replies := [] } })

/-- R204 with R18, R39, R64, R88, R105, R124, R140, R163, R169, R193: RESET COMPOSITION is answered DONE. Every job is FREE, the engine
IDLE at pointer 0 and the JOB words are gone, while the fonts but for their counts, the house, the language tables, the other words, the
film's geometry, every station but for its pins and claims, the turret's position and motion, its latch, its hatch mark and its
exchange, and the link's mask, timings and timers stay; the entry in flight alone stays in the queue, without its job, and is NOT TAKEN
again where its line has left the print list; COMPOSITION is recorded and RESET raised. Log entries 9 and 34: that a line whose first
byte is in transit, or that paper out has set back, counts as begun and is completed, and that the last duration stays, are the model's
choice. -/
def Obligations.CompositionResetFreesTheJobs : Prop :=
  ∀ (s : State) (tag : Byte), s.accepting →
    ∃ u : State,
      exec (.resetComposition tag) s = .next ((settle s.received u).answered (plainReply (.resetComposition tag) tag .done)) ∧
      u.jobs = List.replicate s.jobs.length Job.free ∧ u.galleyOrder = [] ∧ u.exposureHead = none ∧ u.proofHead = none ∧
      u.engine = { serving := none, pointer := 0 } ∧
      u.dict = s.dict.filter (fun e => e.scope = .house ∨ e.scope = .desk) ∧
      ((s.queue.entries.map (·.serial)).Nodup →
        u.queue.entries = (s.queue.entries.filter fun e => e.expo = .inFlight).map fun e =>
          { e with
            attributed := false
            proof := if e.proof = .inPrint ∧ ∀ l ∈ u.proof.list, l.kind ≠ .entry e.serial then .notTaken else e.proof }) ∧
      (∀ e ∈ u.queue.entries, e.expo = .inFlight ∧ e.attributed = false) ∧
      u.queue.nextSerial = s.queue.nextSerial ∧
      u.proof.list = (if s.proof.begun then s.proof.list.take 1 else []) ∧ u.proof.gapCount = 0 ∧
      u.expo = { s.expo with
        state := if s.expo.state = .waitingLamp then .idle else s.expo.state
        flight := s.expo.flight.map fun fl => { fl with attributed := false }, named := none } ∧
      u.fonts.map FontRecord.uncounted = s.fonts.map FontRecord.uncounted ∧
      u.house = s.house ∧ u.houseLocked = s.houseLocked ∧ u.galleyGap = s.galleyGap ∧ u.languages = s.languages ∧
      { u.turret with stations := s.turret.stations } = s.turret ∧
      (u.turret.stations.map fun st => { st with pins := 0, claims := 0 }) =
        s.turret.stations.map (fun st => { st with pins := 0, claims := 0 }) ∧
      u.link = { s.link with frameBegun := false, cause := .composition, summary := s.link.summary ||| 1#24 } ∧
      u.turret.protection = s.turret.protection ∧ u.lamp = s.lamp ∧
      u.film = { s.film with owner := match s.film.owner with | .job _ _ => .ended | o => o } ∧
      u.link.cause = .composition ∧ u.link.holds .reset = true

/-- R206 with R18, R36, R64, R88, R105, R125, R140, R163, R179, R193: the whole state that power-on reset leaves, from any state and for
any readings of the switches. The values no rule states are the model's (log entries 4, 24 and 27): a turret position of 0 and an
ascending search before the index is found, with a target shown of 0, the parameters of a slot that has held no job, and the flags no rule
names. Log entry 3: that a frame that waited at the handshake is dropped is the model's choice. -/
def Obligations.PowerOnResetState : Prop :=
  ∀ (s : State) (r : Readings),
    exec (.powerOnReset r) s = .next
      { link :=
          { summary := 1#24 ||| (if r.coverOpen then 0x010000#24 else 0#24) ||| (if r.paperOut then 0x040000#24 else 0#24)
            mask := 0x0FFFFF#24, throttleMs := 4, delayMs := 20, limitMs := 200, throttle := none, delayTimer := none,
            absTimer := none, cause := .power, replies := [], direction := .hostToController, frameBegun := false,
            discarding := false, withheld := [] }
        fonts := []
        turret :=
          { position := 0, motion := .rotating .verification 0, ascending := true
            pass := if r.hatchOpen then .waitHatch else .seeking
            stations := List.replicate 8
              { state := .verifying, code := 0, font := none, prior := none, pins := 0, claims := 0, changed := true }
            latchEngaged := true, hatchOpen := r.hatchOpen, hatchMark := false, exchange := none, cancelPending := false
            read := .none, protection := [], lineOpen := false, lineEndDue := false }
        jobs := List.replicate 4 Job.free
        galleyOrder := []
        house :=
          { spaceFloor := 8, spaceCeiling := 64, letterCeiling := 4, prefixFloor := 2, suffixFloor := 2, ladderCeiling := 3
            sizeLow := 50, sizeHigh := 720, measureLow := 900, measureHigh := 13500 }
        houseLocked := false, galleyGap := 1800, exposureHead := none, proofHead := none
        engine := { serving := none, pointer := 0 }, languages := [none, none, none, none], dict := []
        queue :=
          { entries := [], nextSerial := 0, entryHigh := 56, entryLow := 40, glyphHigh := 5632, glyphLow := 4096
            highWater := false }
        expo :=
          { state := .held, stops := { cover := false, lamp := false, filmOut := false, jam := false }, holdRequest := false
            flight := none, named := none, lastExposed := none, linesExposed := 0, linesSpoiled := 0, lens := none
            lensTarget := none, carriage := 0, carriageTarget := none, flashing := false, lastDuration := none
            lastClamped := false }
        lamp :=
          { state := .off, index := 2048, weak := false, invalid := 0, weakLimit := 1400, failLimit := 700
            economyTimeout := 60, ignitionTimer := false, economyTimer := none, recoveryTimer := false
            validityTimer := false }
        film :=
          { loaded := 0, baseline := 0, highMark := 0, origin := 0, lowThreshold := 36000, lowCondition := false
            owner := .none, state := .atRest, mover := .none, target := none, trims := 0, measured := 0
            present := r.filmPresent, coverOpen := r.coverOpen, cuts := 0, jams := 0, lastCut := none }
        proof :=
          { state := .idle, disablePending := false, head := none, named := none, list := [], sent := 0, lead := 0
            begun := false, reprint := false, transit := .none, gapCount := 0, rate := 2400, lineRate := 2400
            flowOn := true, paperOut := r.paperOut, stalled := false, stallTimer := false, linesPrinted := 0
            gapsPrinted := 0, reprints := 0, notesLost := 0 }
        freeCount := s.freeCount, pending := s.pending }

/-- R17, R38, R53, R93, R104, R120, R121, R142, R162, R178, R192, R199: a query changes no state but for its reply (QUERY STATIONS clears
every station's changed field, R38; the counter of free values is the model's own). Those that are answered DONE in every state are,
and PARTIAL stands where more remains of a summary, of an entry's glyphs or of a listing. Log entries 5 and 31: that a TRY WORD of more
than 240 bytes is refused RANGE, and that a glyph start above 239 is refused RANGE also where no entry carries the serial, are the
model's choice. -/
def Obligations.QueriesChangeNothing : Prop :=
  ∀ (s : State) (tag : Byte), s.accepting →
    (∀ i ∈ [Instr.status tag, .queryExposure tag, .queryFilm tag, .queryProof tag], ∃ (r : Reply) (k : Nat),
      exec i s = .next (({ s with freeCount := k } : State).answered r) ∧ r.code = codeByte i ∧ r.tag = tag ∧
      r.status = .done ∧ r.clamped = false ∧ r.part = false) ∧
    (∀ n : Nat, ∃ r : Reply, exec (.queryJob tag n) s = .next (s.answered r) ∧ r.status = .done ∧ r.part = false) ∧
    (∃ r : Reply, r.status = .done ∧ exec (.queryStations tag) s =
      .next (({ s with turret := { s.turret with
        stations := s.turret.stations.map fun st => { st with changed := false } } } : State).answered r)) ∧
    (∀ n : Nat, ∃ r : Reply, exec (.queryFont tag n) s = .next (s.answered r) ∧
      r.status = if n = 0 then .done else if 999 < n then .range else if (s.font n).isSome then .done else .absent) ∧
    (∀ n : Nat, ∃ r : Reply, exec (.queryLanguage tag n) s = .next (s.answered r) ∧
      r.status = if 3 < n then .range else if (s.language n).isSome then .done else .absent) ∧
    (∀ (n : Nat) (w : List Byte), w.length < 256 → ∃ r : Reply, exec (.tryWord tag n w) s = .next (s.answered r) ∧
      r.status = if n ≤ 3 ∧ w ≠ [] ∧ w.length ≤ 240 ∧ (∀ b ∈ w, isCharCode b = true ∨ b = 0x1F#8) then
          (if (s.job n).composing then .done else .state)
        else .range) ∧
    (∀ n : Nat, ∃ r : Reply, exec (.queryWord tag (.bySlot n)) s = .next (s.answered r) ∧
      r.status = if 4096 ≤ n then .range else if (entryAt s.dict n).isSome then .done else .absent) ∧
    (∀ c l k j d : Nat, ∃ r : Reply, exec (.listWords tag c l k j d) s = .next (s.answered r) ∧
      (r.status = .done ↔ c ≤ 4096 ∧ (l ≤ 3 ∨ l = 255) ∧ k ≤ 4 ∧ (k = 4 → j ≤ 3 ∧ d ≠ 0)) ∧
      (r.status ≠ .done → r.status = .range) ∧
      (r.status = .done →
        (r.part = true ↔ ∃ e, (s.dict.filter fun e => c ≤ e.slot && listFilter l k j d e)[15]? = some e ∧ e.slot + 1 < 4096))) ∧
    (∀ n : Nat, ∃ r : Reply, exec (.queryQueue tag (.summary n)) s = .next (s.answered r) ∧
      (63 < n → r.status = .range) ∧
      (n ≤ 63 → r.status = .done ∧ (r.part = true ↔ n + 32 < s.queue.entries.length))) ∧
    ∀ n g : Nat, ∃ r : Reply, exec (.queryQueue tag (.entry n g)) s = .next (s.answered r) ∧
      r.status = (if 239 < g then .range else if (s.queue.find n).isSome then .done else .absent) ∧
      ∀ e : Entry, g ≤ 239 → s.queue.find n = some e → (r.part = true ↔ g + 120 < e.body.glyphCount)

/-! ### The font catalogue -/

/-- R12, R13, R41, R86: DEFINE FONT. The checks in their order; then the record enters in the place of its number, every UNKNOWN
station that carries its master code is mounted, and the stalled jobs ask again. The reply carries those stations and the reference
count. A job stalled for a font asks again for the same font: a station lifts its stall to READY, another answer is its reason; each
entry into STALLED and each change of reason raises JOB STALLED. -/
def Obligations.DefineFontEntersARecord : Prop :=
  (∀ (s : State) (tag : Byte) (d : FontDef), s.accepting → (Instr.defineFont tag d).shapeOk = true →
    let i := Instr.defineFont tag d
    let rc := s.received
    let refused := fun st : Status => Host.Outcome.next ((settle rc rc).answered (plainReply i tag st))
    (definedRecord d = none → exec i s = refused .range) ∧
    (∀ r : FontRecord, definedRecord d = some r →
      ((s.font d.number).isSome = true → exec i s = refused .duplicate) ∧
      (s.font d.number = none → (s.fontOfMaster d.master).isSome = true → exec i s = refused .duplicate) ∧
      (s.font d.number = none → s.fontOfMaster d.master = none → 32 ≤ s.fonts.length → exec i s = refused .full) ∧
      (s.font d.number = none → s.fontOfMaster d.master = none → s.fonts.length < 32 →
        let found := stationsWhere (fun st => st.state == .unknown && st.code == d.master) s.turret.stations
        let t := (found.foldl (fun (u : State) n => u.mount n d.number) { rc with fonts := insertFont r s.fonts }).reaskAll
        exec i s =
          .next ((settle rc t).answered
            { code := 0x10#8, tag := tag, status := .done, clamped := false, part := false
              payload := listOf num1 found ++ num1 (((t.font d.number).map FontRecord.count).getD 0) })))) ∧
  -- the stalled jobs
  ∀ (s : State) (n : Nat),
    let j := s.job n
    let asks := (j.state = .active ∨ j.state = .closing) ∧
      (j.status = .stalled .fontUnavailable ∨ j.status = .stalled .fontChanging)
    (∀ c : CompStatus,
      let u : State := { s with jobs := s.jobs.modify n fun j => { j with status := c } }
      ((∃ r, c = .stalled r) → c ≠ j.status → s.setStatus n c = u.raise .jobStalled) ∧
      ((∀ r, c ≠ .stalled r) ∨ c = j.status → s.setStatus n c = u)) ∧
    s.reaskAll = (((s.reask 0).reask 1).reask 2).reask 3 ∧
    (¬asks → s.reask n = s) ∧
    (asks → s.font j.stallFont = none → s.reask n = s.setStatus n (.stalled .fontUnavailable)) ∧
    ∀ r, asks → s.font j.stallFont = some r →
      (∀ m, s.askTurret r = .station m → s.reask n = s.setStatus n .ready) ∧
      (s.askTurret r = .changing → s.reask n = s.setStatus n (.stalled .fontChanging)) ∧
      (s.askTurret r = .unavailable → s.reask n = s.setStatus n (.stalled .fontUnavailable))

/-- R1, R3, R4, R5, R7: a record that a definition makes holds the fields carried, each within its range, with the hyphen code 0x2D
where none is carried, the map absent where it has no pairs, and no references; and every definition whose fields lie within
their ranges makes a record. -/
def Obligations.DefinedRecordsKeepTheRanges : Prop :=
  ∀ d : FontDef,
    let hyphen := d.hyphen.getD 0x2D#8
    (∀ r : FontRecord, definedRecord d = some r →
      r.number = d.number ∧ 1 ≤ r.number ∧ r.number ≤ 999 ∧ r.master = d.master ∧ 1 ≤ r.master ∧ r.master ≤ 4094 ∧
      r.widths = d.widths ∧ (∀ w ∈ r.widths, w ≤ 127) ∧
      r.hyphen = hyphen ∧ isCharCode r.hyphen = true ∧ 0 < r.width r.hyphen ∧
      r.kerns = d.kerns ∧ r.kerns.length ≤ 48 ∧
      (∀ k ∈ r.kerns, isCharCode k.first = true ∧ isCharCode k.second = true ∧ -16 ≤ k.adjust ∧ k.adjust ≤ 15) ∧
      (r.kerns.map fun k => (k.first, k.second)).Nodup ∧
      r.gain = d.gain ∧ -3 ≤ r.gain ∧ r.gain ≤ 3 ∧ r.offset = d.offset ∧ -8 ≤ r.offset ∧ r.offset ≤ 7 ∧
      r.face.code = d.face ∧
      (∀ m, r.map = some m →
        d.map = some m ∧ m ≠ [] ∧ m.length ≤ 32 ∧ (m.map Prod.fst).Nodup ∧
        ∀ p ∈ m, 0xA0 ≤ p.1.toNat ∧ 0x21 ≤ p.2.toNat ∧ p.2.toNat ≤ 0x7E) ∧
      (∀ m, d.map = some m → m ≠ [] → r.map = some m) ∧
      (d.map = none ∨ d.map = some [] → r.map = none) ∧ r.count = 0) ∧
    (1 ≤ d.number → d.number ≤ 999 → 1 ≤ d.master → d.master ≤ 4094 → (∀ w ∈ d.widths, w ≤ 127) →
      isCharCode hyphen = true → 0 < tableAt d.widths hyphen → d.kerns.length ≤ 48 →
      (∀ k ∈ d.kerns, isCharCode k.first = true ∧ isCharCode k.second = true ∧ -16 ≤ k.adjust ∧ k.adjust ≤ 15) →
      (d.kerns.map fun k => (k.first, k.second)).Nodup →
      -3 ≤ d.gain → d.gain ≤ 3 → -8 ≤ d.offset → d.offset ≤ 7 → d.face ≤ 3 →
      (∀ m, d.map = some m → m.length ≤ 32 ∧ (m.map Prod.fst).Nodup ∧
        ∀ p ∈ m, 0xA0 ≤ p.1.toNat ∧ 0x21 ≤ p.2.toNat ∧ p.2.toNat ≤ 0x7E) →
      (definedRecord d).isSome = true)

/-- R1, R5, R7, R13, R14, R15, R16: REVISE FONT and RETIRE FONT. Every value carried lies in its range, with no code or pair named
twice (so a list of width changes holds at most one for each of the 190 codes). A frozen field is kept while the reference count is
above 0; a font that is held is not retired; a record revised takes each field carried, keeps every other, and keeps its number, its
master code and its references. -/
def Obligations.ReviseAndRetireFont : Prop :=
  (∀ b : Byte, isCharCode b = true ↔ (0x21 ≤ b.toNat ∧ b.toNat ≤ 0x7E) ∨ 0xA0 ≤ b.toNat) ∧
  (∀ r : FontRevision,
    revisionOk r = true ↔
      (∀ g o, r.density = some (g, o) → -3 ≤ g ∧ g ≤ 3 ∧ -8 ≤ o ∧ o ≤ 7) ∧ (∀ c, r.face = some c → c ≤ 3) ∧
      (∀ m, r.map = .replace m →
        m.length ≤ 32 ∧ (∀ p ∈ m, 0xA0 ≤ p.1.toNat ∧ 0x21 ≤ p.2.toNat ∧ p.2.toNat ≤ 0x7E) ∧ (m.map Prod.fst).Nodup) ∧
      (∀ l, r.widths = some l →
        l ≠ [] ∧ (∀ x ∈ l, isCharCode x.1 = true ∧ x.2 ≤ 127) ∧ (l.map Prod.fst).Nodup) ∧
      (∀ ks, r.kerns = some ks →
        ks.length ≤ 48 ∧
        (∀ k ∈ ks, isCharCode k.first = true ∧ isCharCode k.second = true ∧ -16 ≤ k.adjust ∧ k.adjust ≤ 15) ∧
        (ks.map fun k => (k.first, k.second)).Nodup) ∧
      (∀ b, r.hyphen = some b → isCharCode b = true)) ∧
  ∀ (s : State) (tag : Byte) (n : Nat), s.accepting →
    (∀ r : FontRevision, (Instr.reviseFont tag n r).shapeOk = true →
      let i := Instr.reviseFont tag n r
      (s.font n = none → exec i s = .next (s.answered (plainReply i tag .absent))) ∧
      ∀ f : FontRecord, s.font n = some f →
        let f' := applyRevision r f
        f'.number = f.number ∧ f'.master = f.master ∧ f'.stationPart = f.stationPart ∧ f'.entryPart = f.entryPart ∧
        f'.linePart = f.linePart ∧ f'.count = f.count ∧
        (∀ g o, r.density = some (g, o) → f'.gain = g ∧ f'.offset = o) ∧
        (r.density = none → f'.gain = f.gain ∧ f'.offset = f.offset) ∧
        (∀ c, r.face = some c → c ≤ 3 → f'.face.code = c) ∧ (r.face = none → f'.face = f.face) ∧
        (r.map = .keep → f'.map = f.map) ∧ (r.map = .remove → f'.map = none) ∧
        (∀ m, r.map = .replace m → f'.map = if m = [] then none else some m) ∧
        (r.widths = none → f'.widths = f.widths) ∧
        (∀ l, r.widths = some l → revisionOk r = true → f.widths.length = 190 →
          (∀ x ∈ l, f'.width x.1 = x.2) ∧ ∀ b, b ∉ l.map Prod.fst → f'.width b = f.width b) ∧
        (∀ ks, r.kerns = some ks → f'.kerns = ks) ∧ (r.kerns = none → f'.kerns = f.kerns) ∧
        (∀ b, r.hyphen = some b → f'.hyphen = b) ∧ (r.hyphen = none → f'.hyphen = f.hyphen) ∧
        (¬(revisionOk r = true ∧ 0 < f'.width f'.hyphen) → exec i s = .next (s.answered (plainReply i tag .range))) ∧
        (revisionOk r = true → 0 < f'.width f'.hyphen →
          (0 < f.count → r.widths.isSome ∨ r.kerns.isSome ∨ r.hyphen.isSome →
            exec i s = .next (s.answered (replyWith i tag .inUse
              (num1 f.count ++ num1 f.stationPart ++ num1 f.entryPart ++ num1 f.linePart)))) ∧
          (f.count = 0 ∨ (r.widths = none ∧ r.kerns = none ∧ r.hyphen = none) →
            let fonts := s.fonts.map fun x => if x.number = n then applyRevision r x else x
            exec i s = .next (({ s with fonts := fonts } : State).answered (plainReply i tag .done))))) ∧
    let i := Instr.retireFont tag n
    (s.font n = none → exec i s = .next (s.answered (plainReply i tag .absent))) ∧
    ∀ f : FontRecord, s.font n = some f →
      (0 < f.count →
        exec i s = .next (s.answered (replyWith i tag .inUse
          (num1 f.count ++ num1 f.stationPart ++ num1 f.entryPart ++ num1 f.linePart)))) ∧
      (f.count = 0 →
        exec i s = .next (({ s with fonts := s.fonts.filter fun x => x.number ≠ n } : State).answered
          (plainReply i tag .done)))

/-! ### The turret -/

/-- R28: the checks of PREPARE EXCHANGE in their order, and its acceptance. R33, R34, R35: CANCEL EXCHANGE at each stage: pending on
a rotation under way, the end of the exchange before it or at the open hatch, refused once the hatch has been opened. A DRAINING
station returns to its prior state: MOUNTED keeps its binding, another is settled by lookup (R11), and the prior state is cleared;
an OPEN one is settled from its last-read code. -/
def Obligations.ExchangeRequests : Prop :=
  ∀ (s : State) (tag : Byte) (n : Nat), s.accepting →
    let rc := s.received
    let busy := fun st : Station => st.state = .draining ∨ st.state = .opened ∨ st.state = .verifying
    (let i := Instr.prepareExchange tag n
     let refused := fun st : Status => Host.Outcome.next ((settle rc rc).answered (plainReply i tag st))
     (7 < n → exec i s = refused .range) ∧
     (n ≤ 7 → n ∈ s.turret.protection → exec i s = refused .shielded) ∧
     (n ≤ 7 → n ∉ s.turret.protection → busy (s.station n) → exec i s = refused .state) ∧
     (n ≤ 7 → n ∉ s.turret.protection → ¬busy (s.station n) → (∃ st ∈ s.turret.stations, busy st) →
       exec i s = refused .busy) ∧
     (n ≤ 7 → n ∉ s.turret.protection → ¬busy (s.station n) → (∀ st ∈ s.turret.stations, ¬busy st) →
       exec i s =
         .next ((settle rc
           (({ rc with turret := { s.turret with exchange := some n, cancelPending := false, hatchMark := false } } : State)
             |>.changeStation n fun st => { st with prior := some st.state, state := .draining })).answered
           (plainReply i tag .started)))) ∧
    (let i := Instr.cancelExchange tag n
     let refused := fun st : Status => Host.Outcome.next ((settle rc rc).answered (plainReply i tag st))
     (7 < n → exec i s = refused .range) ∧
     (n ≤ 7 → s.turret.exchange ≠ some n → exec i s = refused .state) ∧
     (n ≤ 7 → s.turret.exchange = some n →
       (∀ k, (s.station n).state = .draining → s.turret.motion = .rotating .exchange k →
         (s.turret.cancelPending = true → exec i s = refused .state) ∧
         (s.turret.cancelPending = false →
           exec i s = .next ((settle rc { rc with turret := { s.turret with cancelPending := true } }).answered
             (plainReply i tag .started)))) ∧
       ((s.station n).state = .draining → (∀ k, s.turret.motion ≠ .rotating .exchange k) →
         exec i s = .next ((settle rc (rc.returnPrior n)).answered (plainReply i tag .done))) ∧
       ((s.station n).state = .opened → s.turret.hatchMark = true → exec i s = refused .state) ∧
       ((s.station n).state = .opened → s.turret.hatchMark = false →
         exec i s = .next ((settle rc
           (({ rc with turret := { s.turret with
               latchEngaged := true, exchange := none, cancelPending := false, hatchMark := false } } : State)
             |>.settleStation n)).answered (plainReply i tag .done))) ∧
       ((s.station n).state = .verifying → exec i s = refused .state))) ∧
    (s.turret.stations.length = 8 → n < 8 →
      let st := s.station n
      let turns := fun (t : State) (st' : Station) =>
        t.station n = { st' with prior := none, changed := true } ∧ (∀ m, m ≠ n → t.station m = s.station m) ∧
        t.link.holds .stationChanged = true
      let mounts := fun (t : State) (r : FontRecord) =>
        turns t { st with state := .mounted, font := some r.number } ∧
        t.fonts = s.fonts.map fun x => if x.number = r.number then { x with stationPart := x.stationPart + 1 } else x
      ((s.returnPrior n).turret.exchange = none ∧ (s.returnPrior n).turret.cancelPending = false) ∧
      (st.prior = some .mounted → turns (s.returnPrior n) { st with state := .mounted } ∧ (s.returnPrior n).fonts = s.fonts) ∧
      (st.prior ≠ some .mounted →
        (∀ r, s.fontOfMaster st.code = some r → mounts (s.returnPrior n) r) ∧
        (s.fontOfMaster st.code = none →
          turns (s.returnPrior n) { st with state := st.prior.getD .unknown } ∧ (s.returnPrior n).fonts = s.fonts)) ∧
      (∀ r, s.fontOfMaster st.code = some r → mounts (s.settleStation n) r) ∧
      (s.fontOfMaster st.code = none →
        turns (s.settleStation n) { st with state := if st.code = 4095 then .empty else .unknown, font := none } ∧
        (s.settleStation n).fonts = s.fonts))

/-- R20, R26, R27, R29, R30, R34, R36: a rotation begins in the direction of fewer station steps, ascending where each needs four; a
selection is granted, begins its rotation, or waits; exchange positioning is due for a free DRAINING station with no line open, and
begins its rotation or releases the hatch at once. At ROTATION ARRIVAL t takes the target and the purpose is done: a line that has
ended meanwhile ends at the turret; the hatch is released, or a pending cancellation returns the station; the verification pass
reads its next station, or ends where the index stands. INDEX FOUND starts the pass at position 0. Log entries 6, 26 and 27: that an
arrival at rest and INDEX FOUND outside the search change nothing, that the turret is locked exactly while a station is OPEN or
VERIFYING, and the target shown while a strip of the pass is read, are the model's choice. -/
def Obligations.RotationArrivalDoesItsPurpose : Prop :=
  ∀ (s : State) (target : Nat),
    (s.turret.motion = .atRest → exec .rotationArrival s = .next (settle s s)) ∧
    (s.turret.motion = .rotating .exposure target →
      exec .rotationArrival s = .next (settle s { s with turret := { s.turret with
        position := target, motion := .atRest, lineOpen := s.turret.lineOpen && !s.turret.lineEndDue
        lineEndDue := false } })) ∧
    (∀ n : Nat, s.turret.motion = .rotating .exchange target → s.turret.exchange = some n →
      let u : State := { s with turret := { s.turret with position := target, motion := .atRest } }
      (s.turret.cancelPending = true → exec .rotationArrival s = .next (settle s (u.returnPrior n))) ∧
      (s.turret.cancelPending = false →
        let v : State := { u with turret := { u.turret with latchEngaged := false, hatchMark := false } }
        (∀ k : Nat, (s.station n).prior = some .mounted → (s.station n).font = some k →
          exec .rotationArrival s = .next (settle s
            ((((v.onFont k fun r => { r with stationPart := r.stationPart - 1 }).raise .hatchReady).changeStation n
              fun st => { st with state := .opened, font := none })))) ∧
        ((s.station n).prior ≠ some .mounted →
          exec .rotationArrival s = .next (settle s
            ((v.raise .hatchReady).changeStation n fun st => { st with state := .opened, font := none }))))) ∧
    (∀ k : Nat, s.turret.motion = .rotating .verification target → s.turret.pass = .stepping k →
      (k < 8 → exec .rotationArrival s = .next (settle s { s with turret := { s.turret with
        position := target, pass := .reading k, read := .first } })) ∧
      (8 ≤ k → exec .rotationArrival s = .next (settle s { s with turret := { s.turret with
        position := target, motion := .atRest, pass := .none } }))) ∧
    (s.turret.pass = .seeking → exec .indexFound s = .next { s with turret := { s.turret with
      position := 0, motion := .rotating .verification 0, pass := .reading 0, read := .first } }) ∧
    (s.turret.pass ≠ .seeking → exec .indexFound s = .next s) ∧
    (∀ (t : Turret) (p : Purpose), t.position < 8 → target < 8 →
      t.rotate p target = { t with
        motion := .rotating p target
        ascending := decide ((target + 8 - t.position) % 8 ≤ (t.position + 8 - target) % 8) }) ∧
    (∀ (fl : Flight) (r : Run),
      (∀ p k, s.turret.motion = .rotating p k → s.select fl r = none) ∧
      (s.turret.motion = .atRest →
        (s.turret.position = r.station →
          s.select fl r = some { s with expo := { s.expo with
            state := .selecting, flight := some { fl with selecting := false } } }) ∧
        (s.turret.position ≠ r.station → s.turret.locked = false →
          s.select fl r = some { s with
            turret := s.turret.rotate .exposure r.station, expo := { s.expo with state := .selecting } }) ∧
        (s.turret.position ≠ r.station → s.turret.locked = true →
          s.select fl r =
            if s.expo.state = .waitingTurret then none
            else some { s with expo := { s.expo with state := .waitingTurret } }))) ∧
    (s.turret.locked = true ↔ ∃ st ∈ s.turret.stations, st.state = .opened ∨ st.state = .verifying) ∧
    ∀ n : Nat,
      (s.turret.positioningDue = some n ↔
        s.turret.exchange = some n ∧ (s.station n).state = .draining ∧ (s.station n).pins = 0 ∧ (s.station n).claims = 0 ∧
        s.turret.cancelPending = false ∧ s.turret.lineOpen = false ∧ s.turret.motion = .atRest) ∧
      (s.turret.position ≠ (n + 4) % 8 →
        s.beginPositioning n = { s with turret := s.turret.rotate .exchange ((n + 4) % 8) }) ∧
      (s.turret.position = (n + 4) % 8 → n < s.turret.stations.length →
        let t := s.beginPositioning n
        t.station n = { s.station n with state := .opened, font := none, changed := true } ∧ t.turret.latchEngaged = false ∧
        t.turret.hatchMark = false ∧ t.turret.motion = s.turret.motion ∧ t.link.holds .hatchReady = true ∧
        t.link.holds .stationChanged = true)

/-- R31, R36: HATCH OPENED marks the exchange station when it is OPEN and the latch released; HATCH CLOSED after such an opening
engages the latch and begins the read of the VERIFYING station, starts the pass that waited for it, and else records the reading. -/
def Obligations.HatchEventsMarkAndVerify : Prop :=
  ∀ s : State,
    (∀ n : Nat, s.turret.exchange = some n → (s.station n).state = .opened → s.turret.latchEngaged = false →
      exec .hatchOpened s = .next { s with turret := { s.turret with hatchOpen := true, hatchMark := true } }) ∧
    ((∀ n : Nat, s.turret.exchange = some n → (s.station n).state ≠ .opened ∨ s.turret.latchEngaged = true) →
      exec .hatchOpened s = .next { s with turret := { s.turret with hatchOpen := true } }) ∧
    (s.turret.pass = .waitHatch →
      exec .hatchClosed s = .next (settle s { s with turret := { s.turret with
        hatchOpen := false, latchEngaged := true, pass := .seeking } })) ∧
    (s.turret.pass ≠ .waitHatch →
      (∀ n : Nat, s.turret.exchange = some n → (s.station n).state = .opened → s.turret.hatchMark = true →
        ∃ t : State, exec .hatchClosed s = .next (settle s { t with turret := { t.turret with read := .first } }) ∧
          t = ({ s with turret := { s.turret with hatchOpen := false, latchEngaged := true } } : State).changeStation n
            fun st => { st with state := .verifying }) ∧
      ((∀ n : Nat, s.turret.exchange = some n → (s.station n).state ≠ .opened ∨ s.turret.hatchMark = false) →
        exec .hatchClosed s = .next (settle s { s with turret := { s.turret with hatchOpen := false } })))

/-- R9, R11, R22, R32, R36, R86: the first read of 0 is made once more; any other read is the verdict: the code is recorded, the
exchange of that station ends, and the station is MOUNTED with the record of that code, EMPTY for 4095, UNKNOWN else; the pass then
steps on. A change of a station's state marks it changed, raises STATION CHANGED and has the stalled jobs ask again; a station that
is mounted takes its record's station part. Log entry 6: that a report with no read under way changes nothing is the model's choice. -/
def Obligations.StripReadSettlesTheStation : Prop :=
  ∀ (s : State) (code : Nat),
    (s.turret.read = .none → exec (.stripReadComplete code) s = .next (settle s s)) ∧
    (s.turret.read = .first → code = 0 →
      exec (.stripReadComplete code) s = .next (settle s { s with turret := { s.turret with read := .retry } })) ∧
    (s.turret.read = .retry ∨ (s.turret.read = .first ∧ code ≠ 0) →
      let n := (s.turret.position + 4) % 8
      let u : State := { s with turret := { s.turret with
        read := .none, stations := s.turret.stations.modify n fun st => { st with code := code } } }
      let v : State := if s.turret.exchange = some n then { u with turret := { u.turret with
        exchange := none, cancelPending := false, hatchMark := false } } else u
      s.turret.stations.length = 8 →
      let w : State := match s.fontOfMaster code with
        | some r => v.mount n r.number
        | none => v.changeStation n fun st =>
            { st with state := if code = 4095 then .empty else .unknown, font := none, prior := none }
      ((∀ k, s.turret.pass ≠ .reading k) → exec (.stripReadComplete code) s = .next (settle s w)) ∧
      (∀ k, s.turret.pass = .reading k →
        exec (.stripReadComplete code) s = .next (settle s { w with turret := {
          w.turret.rotate .verification ((k + 1) % 8) with pass := .stepping (k + 1) } }))) ∧
    ∀ (n : Nat) (f : Station → Station),
      s.changeStation n f =
        (({ s with turret := { s.turret with
          stations := s.turret.stations.modify n fun st => { f st with changed := true } } } : State).raise .stationChanged).reaskAll ∧
      ∀ k : Nat, s.mount n k =
        ({ s with fonts := s.fonts.map fun r => if r.number = k then { r with stationPart := r.stationPart + 1 } else r } : State).changeStation n
          fun st => { st with state := .mounted, font := some k, prior := none }

/-! ### Jobs -/

/-- R45 with R46, R47: OPEN JOB. The checks in their order; then the FREE slot holds an ACTIVE job, WAITING TEXT, with the clamped
parameters, line number 1 and everything else empty or 0, and the slot joins the tail of the galley order list. -/
def Obligations.OpenJobFillsAFreeSlot : Prop :=
  ∀ (s : State) (tag : Byte) (slot id : Nat) (p : OpenParams), s.accepting →
    let i := Instr.openJob tag slot id p
    let rc := s.received
    let refused := fun st : Status => Host.Outcome.next ((settle rc rc).answered (plainReply i tag st))
    (3 < slot ∨ id = 0 ∨ clampParams s.house p = none → exec i s = refused .range) ∧
    ∀ ps : Params, slot ≤ 3 → id ≠ 0 → clampParams s.house p = some ps →
      ((s.job slot).state ≠ .free → exec i s = refused .state) ∧
      ((s.job slot).state = .free →
        let job : Job :=
          { id := id, state := .active, status := .waitingText, stallFont := 0, finished := false, markPending := false
            params := ps, paragraphMark := true, text := [], line := LineInProgress.empty, lineNumber := 1
            consecutive := 0, linesSet := 0, hyphenated := 0, looseLines := 0, missingChars := 0, ignoredBytes := 0
            clampedCodes := 0 }
        exec i s =
          .next ((settle rc { rc with
              jobs := s.jobs.modify slot fun _ => job, galleyOrder := s.galleyOrder ++ [slot] }).answered
            { replyWith i tag .done ps.bytes with clamped := decide (ps.numbers ≠ givenNumbers p) }))

/-- R45, R46, R47, R54: OPEN JOB's parameters are refused exactly when the font, an enumerated value, the language or the hyphenation
selector lies outside its set. Else each is recorded as given where it lies within its range and the house style, and clamped to the
nearer end where it does not: the recorded parameters lie within their ranges and within the house style. -/
def Obligations.ClampedParametersLieInTheirRanges : Prop :=
  ∀ (h : HouseStyle) (p : OpenParams), houseOk h = true →
    (clampParams h p = none ↔
      ¬(1 ≤ p.font ∧ p.font ≤ 999 ∧ p.quad ≤ 3 ∧ p.policy ≤ 2 ∧ p.hyphenate ≤ 1 ∧ p.language ≤ 3)) ∧
    ∀ ps : Params, clampParams h p = some ps →
      ps.font = p.font ∧ ps.quad.code = p.quad ∧ ps.policy.code = p.policy ∧ ps.hyphenate = decide (p.hyphenate = 1) ∧
      ps.language = p.language ∧
      ps.size = max h.sizeLow (min h.sizeHigh p.size) ∧ ps.leading = min 1440 p.leading ∧
      ps.measure = max h.measureLow (min h.measureHigh p.measure) ∧ ps.paragraph = min 12600 p.paragraph ∧
      ps.letterMax = min h.letterCeiling p.letterMax ∧ ps.minPrefix = max h.prefixFloor (min 6 p.minPrefix) ∧
      ps.minSuffix = max h.suffixFloor (min 6 p.minSuffix) ∧ ps.ladder = max 1 (min h.ladderCeiling p.ladder) ∧
      ps.grade = max 1 (min 3 p.grade) ∧ ps.zone = min 13500 p.zone ∧
      (p.left ≤ 12600 → p.right ≤ 12600 → p.left + p.right + 900 ≤ ps.measure → ps.left = p.left ∧ ps.right = p.right) ∧
      (p.left ≤ 12600 → p.left + 900 ≤ ps.measure → ps.left = p.left ∧ ps.right = min (min 12600 p.right) (ps.measure - 900 - p.left)) ∧
      (ps.measure < min 12600 p.left + 900 → ps.left = ps.measure - 900 ∧ ps.right = 0) ∧
      (h.spaceFloor ≤ p.spaceMin → p.spaceMin ≤ p.spaceOpt → p.spaceOpt ≤ p.spaceMax → p.spaceMax ≤ h.spaceCeiling →
        ps.spaceMin = p.spaceMin ∧ ps.spaceOpt = p.spaceOpt ∧ ps.spaceMax = p.spaceMax) ∧
      ps.spaceMin = max h.spaceFloor (min h.spaceCeiling p.spaceMin) ∧
      ps.spaceMax = max ps.spaceMin (min h.spaceCeiling p.spaceMax) ∧
      ps.spaceOpt = max ps.spaceMin (min ps.spaceMax p.spaceOpt) ∧
      1 ≤ ps.font ∧ ps.font ≤ 999 ∧
      50 ≤ ps.size ∧ ps.size ≤ 720 ∧ h.sizeLow ≤ ps.size ∧ ps.size ≤ h.sizeHigh ∧
      ps.leading ≤ 1440 ∧
      900 ≤ ps.measure ∧ ps.measure ≤ 13500 ∧ h.measureLow ≤ ps.measure ∧ ps.measure ≤ h.measureHigh ∧
      ps.left + ps.right + 900 ≤ ps.measure ∧ ps.paragraph ≤ 12600 ∧
      h.spaceFloor ≤ ps.spaceMin ∧ ps.spaceMin ≤ ps.spaceOpt ∧ ps.spaceOpt ≤ ps.spaceMax ∧ ps.spaceMax ≤ h.spaceCeiling ∧
      ps.letterMax ≤ 8 ∧ ps.letterMax ≤ h.letterCeiling ∧
      2 ≤ ps.minPrefix ∧ ps.minPrefix ≤ 6 ∧ h.prefixFloor ≤ ps.minPrefix ∧
      2 ≤ ps.minSuffix ∧ ps.minSuffix ≤ 6 ∧ h.suffixFloor ≤ ps.minSuffix ∧
      1 ≤ ps.ladder ∧ ps.ladder ≤ 9 ∧ ps.ladder ≤ h.ladderCeiling ∧
      1 ≤ ps.grade ∧ ps.grade ≤ 3 ∧ ps.zone ≤ 13500 ∧ ps.language ≤ 3

/-- R48, R41: SEND TEXT is taken whole or not at all: the checks in their order, then every byte joins the text buffer, a WAITING TEXT
job with work becomes READY, and the reply carries the free space that remains. -/
def Obligations.SendTextIsTakenWholeOrNotAtAll : Prop :=
  ∀ (s : State) (tag : Byte) (slot : Nat) (text : List Byte), s.accepting → text.length ≤ 599 →
    let i := Instr.sendText tag slot text
    let rc := s.received
    let j := s.job slot
    (3 < slot → exec i s = .next ((settle rc rc).answered (plainReply i tag .range))) ∧
    (slot ≤ 3 → j.state ≠ .active → exec i s = .next ((settle rc rc).answered (plainReply i tag .state))) ∧
    (slot ≤ 3 → j.state = .active → 2048 - j.text.length < text.length →
      exec i s = .next ((settle rc rc).answered (replyWith i tag .full (num2 (2048 - j.text.length))))) ∧
    (slot < s.jobs.length → slot ≤ 3 → j.state = .active → text.length ≤ 2048 - j.text.length →
      let j' : Job := { j with text := j.text ++ text }
      let j'' : Job := if j.status = .waitingText ∧ j'.work ≠ .none then { j' with status := .ready } else j'
      exec i s =
        .next ((settle rc { rc with jobs := s.jobs.set slot j'' }).answered
          (replyWith i tag .done (num2 (2048 - j.text.length - text.length)))))

/-- R49, R51, R52, R139, R188: CLOSE JOB and ABORT JOB name an open job by slot and id, else STATE. A close makes the job CLOSING, and
finished where its buffer and its line in progress are empty; with an empty buffer and a line that holds anything but a held item its
paragraph end is due at once. An abort makes it ABORTING with an empty buffer and line, cancels every WAITING entry of it and no other,
takes the line of a cancelled entry from the print list unless its printing has begun, retires its words, and appends or keeps waiting
the mark that the policy wants; the reply carries the counts, and whether the mark is pending at the end of the event, within which it
may still be admitted. Log entries 5, 9, 29 and 39: a head line whose first byte is in transit, or that paper out has set back, as one
begun, no paragraph end made due over an empty line, a mark field as 0 appended and 1 pending, and the composition status and the
paragraph mark of an ABORTING job, are the model's choice. -/
def Obligations.CloseAndAbortJob : Prop :=
  ∀ (s : State) (tag : Byte) (slot id : Nat), s.accepting →
    let rc := s.received
    let j := s.job slot
    (let i := Instr.closeJob tag slot id
     (3 < slot → exec i s = .next ((settle rc rc).answered (plainReply i tag .range))) ∧
     (slot ≤ 3 → j.state ≠ .active ∨ j.id ≠ id → exec i s = .next ((settle rc rc).answered (plainReply i tag .state))) ∧
     (slot < s.jobs.length → slot ≤ 3 → j.state = .active → j.id = id →
       ∃ (t : State) (j' : Job), exec i s = .next ((settle rc t).answered (plainReply i tag .done)) ∧
         { t with link := s.link, jobs := s.jobs } = s ∧ t.jobs = s.jobs.set slot j' ∧
         (j.text ≠ [] ∨ j.line.isEmpty = true ∨ j.line.ending.isSome = true →
           { j' with status := j.status } = { j with
             state := .closing, finished := j.finished || (j.text.isEmpty && j.line.isEmpty) }) ∧
         (j.finished = false → j.text = [] → j.line.ending = none →
             ({ j.line with held := none } : LineInProgress).isEmpty = false →
           { j' with status := j.status } = { j with state := .closing, line := j.line.exhaust } ∧
           j'.line.ending = some { paragraph := true, action := .nothing, lineSet := false } ∧
           j'.line.glyphs = j.line.glyphs ∧ j'.line.carry = j.line.carry ∧ j'.line.placing = j.line.placing ∧
           (0 < countChars j.line.pending → j.line.ended = none →
             j'.line.ended = some { items := j.line.pending, cont := j.line.pendingCont, hasCont := false })) ∧
         (j.finished = false → j.text = [] → j.line.ending = none → j.line.held.isSome = true →
             ({ j.line with held := none } : LineInProgress).isEmpty = true →
           { j' with status := j.status } = { j with state := .closing }))) ∧
    (let i := Instr.abortJob tag slot id
     (3 < slot → exec i s = .next ((settle rc rc).answered (plainReply i tag .range))) ∧
     (slot ≤ 3 → (j.state ≠ .active ∧ j.state ≠ .closing) ∨ j.id ≠ id →
       exec i s = .next ((settle rc rc).answered (plainReply i tag .state))) ∧
     (slot < s.jobs.length → slot ≤ 3 → j.state = .active ∨ j.state = .closing → j.id = id →
       ∃ t : State,
         exec i s = .next ((settle rc t).answered (replyWith i tag .done
           (num1 (s.cancellable slot).length ++ num2 (s.dict.countP (isJobWord slot id)) ++
             (if j.params.policy = .none then num1 0 else num1 1 ++ num1 (if ((settle rc t).job slot).markPending then 1 else 0))))) ∧
         (t.job slot).state = .aborting ∧ (t.job slot).id = id ∧ (t.job slot).text = [] ∧
         (t.job slot).line = LineInProgress.empty ∧ (t.job slot).params = j.params ∧
         (j.params.policy = .none → (t.job slot).markPending = false) ∧
         (∀ n, n ≠ slot → t.job n = s.job n) ∧
         t.dict = s.dict.filter (fun e => !isJobWord slot id e) ∧
         ((s.queue.entries.map (·.serial)).Nodup →
           ∀ e ∈ s.queue.entries, e ∉ s.cancellable slot → e ∈ t.queue.entries) ∧
         (∀ e, e ∈ s.cancellable slot ↔
           e ∈ s.queue.entries ∧ (e.attributed = true ∧ e.slot = slot ∧ e.jobId = id) ∧ e.expo = .waiting) ∧
         (∀ e ∈ t.queue.entries, e ∈ s.queue.entries ∨ (e.body = .mark ∧ e.slot = slot ∧ e.jobId = id)) ∧
         (∀ e ∈ t.queue.entries, t.ownedBy slot e = true → e.expo ≠ .waiting) ∧
         (j.params.policy ≠ .none → (t.job slot).markPending = false →
           ∃ e ∈ t.queue.entries, e.body = .mark ∧ e.slot = slot ∧ e.jobId = id) ∧
         (s.proof.list.countP PrintLine.isEntry ≤ 1 →
           t.proof.list =
             (if s.proof.begun then s.proof.list.take 1 else []) ++
               ((if s.proof.begun then s.proof.list.drop 1 else s.proof.list).filter fun l =>
                 ∀ e ∈ s.cancellable slot, e.proof = .inPrint → l.kind ≠ .entry e.serial)) ∧
         t.engine.serving ≠ some slot ∧
         t.house = s.house ∧ t.galleyOrder = s.galleyOrder ∧ t.languages = s.languages ∧ t.film = s.film))

/-- R37, R54, R55, R92: the four requests about the house lock: LOCK HOUSE closes it; while it is closed SET HOUSE STYLE, SET STATION
PROTECTION and DEFINE LANGUAGE are refused LOCKED; else they are refused RANGE by the ranges of their fields or replace whole. -/
def Obligations.RequestsUnderTheHouseLock : Prop :=
  (∀ h : HouseStyle,
    houseOk h = true ↔
      h.spaceFloor ≤ 127 ∧ 1 ≤ h.spaceCeiling ∧ h.spaceCeiling ≤ 127 ∧ h.spaceFloor ≤ h.spaceCeiling ∧ h.letterCeiling ≤ 8 ∧
      2 ≤ h.prefixFloor ∧ h.prefixFloor ≤ 6 ∧ 2 ≤ h.suffixFloor ∧ h.suffixFloor ≤ 6 ∧ 1 ≤ h.ladderCeiling ∧
      h.ladderCeiling ≤ 9 ∧ 50 ≤ h.sizeLow ∧ h.sizeLow ≤ h.sizeHigh ∧ h.sizeHigh ≤ 720 ∧ 900 ≤ h.measureLow ∧
      h.measureLow ≤ h.measureHigh ∧ h.measureHigh ≤ 13500) ∧
  (∀ t : LanguageDef,
    languageOk t = true ↔
      (∀ x ∈ t.letterMap, x ≤ 48) ∧ (∀ v ∈ t.vowels, 1 ≤ v ∧ v ≤ 48) ∧ t.vowels.Nodup ∧ t.rules.length ≤ 48 ∧
      (∀ r ∈ t.rules,
        2 ≤ r.letters.length ∧ r.letters.length ≤ 8 ∧ (∀ x ∈ r.letters, 1 ≤ x ∧ x ≤ 48) ∧ 1 ≤ r.grade ∧ r.grade ≤ 3) ∧
      (t.rules.map fun r => (r.suffix, r.letters)).Nodup) ∧
  ∀ (s : State) (tag : Byte), s.accepting →
    exec (.lockHouse tag) s =
      .next (({ s with houseLocked := true } : State).answered (plainReply (.lockHouse tag) tag .done)) ∧
    (∀ h : HouseStyle,
      let i := Instr.setHouseStyle tag h
      (s.houseLocked = true → exec i s = .next (s.answered (plainReply i tag .locked))) ∧
      (s.houseLocked = false → houseOk h = false → exec i s = .next (s.answered (plainReply i tag .range))) ∧
      (s.houseLocked = false → houseOk h = true →
        exec i s = .next (({ s with house := h } : State).answered (plainReply i tag .done)))) ∧
    (∀ l : List Nat, l.length < 256 →
      let i := Instr.setStationProtection tag l
      (s.houseLocked = true → exec i s = .next (s.answered (plainReply i tag .locked))) ∧
      (s.houseLocked = false → ¬((∀ n ∈ l, n ≤ 7) ∧ l.Nodup) → exec i s = .next (s.answered (plainReply i tag .range))) ∧
      (s.houseLocked = false → (∀ n ∈ l, n ≤ 7) → l.Nodup →
        exec i s = .next (({ s with turret := { s.turret with protection := l } } : State).answered
          (plainReply i tag .done)))) ∧
    (∀ (n : Nat) (t : LanguageDef),
      let i := Instr.defineLanguage tag n t
      i.shapeOk = true →
      (s.houseLocked = true → exec i s = .next (s.answered (plainReply i tag .locked))) ∧
      (s.houseLocked = false → 3 < n ∨ languageOk t = false → exec i s = .next (s.answered (plainReply i tag .range))) ∧
      (s.houseLocked = false → n ≤ 3 → languageOk t = true →
        let table : LanguageTable := { letterMap := t.letterMap, vowels := t.vowels, rules := t.rules }
        exec i s = .next (({ s with languages := s.languages.set n (some table) } : State).answered (plainReply i tag .done))))

/-- R56: SET GALLEY GAP: 0 to 36,000, replaced and answered DONE in either state of the house lock, a value outside refused RANGE; 1800
after power-on reset, kept by composition reset and by link reset; a gap under way keeps the target it was begun with. -/
def Obligations.SetGalleyGapReplacesTheGap : Prop :=
  ∀ (s : State) (tag : Byte) (g : Nat), s.accepting →
    let i := Instr.setGalleyGap tag g
    (36000 < g → exec i s = .next (s.answered (plainReply i tag .range))) ∧
    (g ≤ 36000 → ∃ t : State, exec i s = .next (t.answered (plainReply i tag .done)) ∧ t = { s with galleyGap := g } ∧
      t.film.target = s.film.target ∧
      ∀ e : Entry, ∀ d : Nat, t.film.gapDue e = true → t.film.leadTarget (some t.galleyGap) d = s.film.highMark + g + d) ∧
    (∀ r : Readings, ∃ t : State, exec (.powerOnReset r) s = .next t ∧ t.galleyGap = 1800) ∧
    (∃ t : State, exec (.resetComposition tag) s = .next t ∧ t.galleyGap = s.galleyGap) ∧
    (∃ t : State, exec (.resetLink tag) s = .next t ∧ t.galleyGap = s.galleyGap) ∧
    (s.link.withheld = [] → ∃ t : State, exec .framingLossTimeout s = .next t ∧ t.galleyGap = s.galleyGap)

/-! ### Setting lines -/

/-- R41, R46, R47, R49, R57 to R63, R67, R70, R79, R85, R87: TAKE BYTE. Outside a turn with a byte to take nothing is taken. In one,
the head of the buffer is taken and its class applied: a character joins the pending word in the font and size in force, a
discretionary hyphen is kept in it as a mark, a space ends the word, a return makes a paragraph end due and the byte 0x0B a line
end, a byte of no class is ignored and counted. Each composition code has the action of its letter, its value clamped; an unknown
letter, a value outside an enumeration and a code cut short in a CLOSING job are skipped and counted. The event that exhausts the
buffer of a CLOSING job makes a paragraph end due. Of the steps of a turn, a word to place comes first, then an ending to carry on,
then a byte to take, and none while an item is held; a step that leaves no work ends the turn, which moves the pointer and
recomputes the status. Log entries 8, 29 and 39: a composition code is taken whole in one TAKE BYTE, a finished job keeps its
status, and an exhausted buffer over an empty line makes no ending due, which are the model's choice. -/
def Obligations.TakeByteAppliesTheClass : Prop :=
  (∀ s : State,
    (s.serves .take = none → exec .takeByte s = .next (settle s s)) ∧
    (∀ slot : Nat, s.serves .take = some slot →
      exec .takeByte s = .next (settle s ((s.onJob slot (Job.takeByte s.house)).afterStep slot)))) ∧
  -- the order of work, and the end of a turn
  (∀ (s : State) (slot : Nat),
    let j := s.job slot
    let l := j.line
    let places := l.placing ≠ none ∨ l.carry ≠ none ∨ l.ended ≠ none ∨ (l.ending ≠ none ∧ 0 < countChars l.pending)
    let takes :=
      (∃ b rest, j.text = b :: rest ∧
        (b = 0x1B#8 → ∃ c ps, rest = c :: ps ∧ ∀ n, codeLength c = some n → n ≤ ps.length)) ∨
      (j.state = .closing ∧ j.finished = false ∧ j.text ≠ [])
    let composing := j.state = .active ∨ j.state = .closing
    (j.work = .place ↔ l.held = none ∧ places) ∧
    (j.work = .set ↔ l.held = none ∧ ¬places ∧ l.ending ≠ none) ∧
    (j.work = .take ↔ l.held = none ∧ ¬places ∧ l.ending = none ∧ takes) ∧
    (∀ w, s.serves w = some slot ↔ s.engine.serving = some slot ∧ composing ∧ j.work = w) ∧
    (l.isEmpty = true ↔ l.glyphs = [] ∧ l.pending = [] ∧ l.ended = none ∧ l.placing = none ∧ l.carry = none ∧
      l.missing = false ∧ l.ending = none ∧ l.held = none) ∧
    (slot < s.jobs.length →
      let ends := j.state = .closing ∧ j.finished = false ∧ j.text = [] ∧ l.isEmpty = true
      let u : State := { s with jobs := s.jobs.modify slot fun j => { j with finished := true } }
      (ends → s.afterStep slot = u.endTurn slot) ∧
      (¬ends → j.work = .none → s.afterStep slot = s.endTurn slot) ∧
      (¬ends → j.work ≠ .none → s.afterStep slot = s)) ∧
    s.endTurn slot = ({ s with engine := { serving := none, pointer := (slot + 1) % 4 } } : State).restatus slot ∧
    (¬composing ∨ j.finished = true → s.restatus slot = s) ∧
    (composing → j.finished = false →
      (l.held ≠ none → s.restatus slot = s.setStatus slot (.stalled .queueFull)) ∧
      (l.held = none → j.status = .stalled .fontUnavailable ∨ j.status = .stalled .fontChanging → s.restatus slot = s) ∧
      (l.held = none → j.status ≠ .stalled .fontUnavailable → j.status ≠ .stalled .fontChanging →
        (j.work ≠ .none → s.restatus slot = s.setStatus slot .ready) ∧
        (j.work = .none → s.restatus slot = s.setStatus slot .waitingText)))) ∧
  ∀ (h : HouseStyle) (j : Job),
    let p := j.params
    let wordEnds := fun l : LineInProgress =>
      if 0 < countChars l.pending then
        { l with ended := some { items := l.pending, cont := l.pendingCont, hasCont := false }, pending := [], pendingCont := false }
      else { l with pending := [], pendingCont := false }
    let lineEnds := fun (paragraph : Bool) (a : CodeAction) =>
      { j with line := { wordEnds j.line with ending := some { paragraph := paragraph, action := a, lineSet := false } } }
    let skipped := fun n : Nat => { j with ignoredBytes := min 65535 (j.ignoredBytes + n) }
    let counted := fun (b : Bool) (k : Job) => if b then { k with clampedCodes := bump k.clampedCodes } else k
    let taken := fun (bytes : List Byte) (k : Job) =>
      ∀ rest : List Byte, j.text = bytes ++ rest → j.applyByte h = { k with text := rest }
    -- the end of a CLOSING job's buffer
    j.takeByte h = (j.applyByte h).exhaust ∧
    (j.exhaust =
      if j.state = .closing ∧ j.finished = false ∧ j.text = [] ∧ j.line.ending = none ∧
          (j.line.glyphs ≠ [] ∨ j.line.pending ≠ [] ∨ j.line.ended ≠ none ∨ j.line.placing ≠ none ∨ j.line.carry ≠ none ∨
            j.line.missing = true) then
        if j.line.ended = none then lineEnds true .nothing
        else { j with line := { j.line with ending := some { paragraph := true, action := .nothing, lineSet := false } } }
      else j) ∧
    -- the classes of a byte
    (∀ b : Byte, isCharCode b = true → countChars j.line.pending < 240 →
      taken [b] { j with line := { j.line with pending := j.line.pending ++ [.char b p.font p.size] } }) ∧
    (∀ b : Byte, isCharCode b = true → 240 ≤ countChars j.line.pending →
      taken [b] { j with line := { j.line with
        ended := some { items := j.line.pending, cont := j.line.pendingCont, hasCont := true }
        pending := [.char b p.font p.size], pendingCont := true } }) ∧
    taken [0x20#8] { j with line := wordEnds j.line } ∧
    taken [0x1F#8] { j with line := { j.line with pending := j.line.pending ++ [.mark] } } ∧
    taken [0x0D#8] (lineEnds true .nothing) ∧
    taken [0x0B#8] (lineEnds false .nothing) ∧
    (∀ b : Byte, isCharCode b = false → b ∉ [0x20#8, 0x1F#8, 0x0D#8, 0x0B#8, 0x1B#8] → taken [b] (skipped 1)) ∧
    -- the composition codes
    (∀ x y z w : Byte,
      let v := x.toNat * 256 + y.toNat
      let size := min h.sizeHigh (max h.sizeLow (min 720 (max 50 v)))
      let lead := min 1440 v
      let mn := min (max (min 127 x.toNat) h.spaceFloor) h.spaceCeiling
      let mx := max (min (min 127 z.toNat) h.spaceCeiling) mn
      let op := min (max (min 127 y.toNat) mn) mx
      let m := min h.measureHigh (max h.measureLow (min 13500 (max 900 v)))
      let against := clampIndents m p.left p.right
      let indents := clampIndents p.measure (min 12600 v) (min 12600 (z.toNat * 256 + w.toNat))
      taken [0x1B#8, 0x46#8, x, y] (if 1 ≤ v ∧ v ≤ 999 then { j with params := { p with font := v } } else skipped 4) ∧
      taken [0x1B#8, 0x50#8, x, y] (counted (size ≠ v) { j with params := { p with size := size } }) ∧
      taken [0x1B#8, 0x4C#8, x, y] (counted (lead ≠ v) { j with params := { p with leading := lead } }) ∧
      taken [0x1B#8, 0x53#8, x, y, z] (counted (mn ≠ x.toNat ∨ op ≠ y.toNat ∨ mx ≠ z.toNat)
        { j with params := { p with spaceMin := mn, spaceOpt := op, spaceMax := mx } }) ∧
      taken [0x1B#8, 0x48#8, x] (if x.toNat ≤ 1 then { j with params := { p with hyphenate := x.toNat = 1 } } else skipped 3) ∧
      taken [0x1B#8, 0x47#8, x] (if x.toNat ≤ 3 then { j with params := { p with language := x.toNat } } else skipped 3) ∧
      taken [0x1B#8, 0x4D#8, x, y] (counted (m ≠ v ∨ against.1 ≠ p.left ∨ against.2 ≠ p.right)
        (if m = p.measure then { j with params := { p with measure := m, left := against.1, right := against.2 } }
         else lineEnds false (.measure m))) ∧
      taken [0x1B#8, 0x49#8, x, y, z, w] (counted (indents.1 ≠ v ∨ indents.2 ≠ z.toNat * 256 + w.toNat)
        (if indents.1 = p.left ∧ indents.2 = p.right then j else lineEnds false (.indents indents.1 indents.2))) ∧
      (∀ q : QuadMode, x.toNat = q.code → taken [0x1B#8, 0x51#8, x] (if q = p.quad then j else lineEnds false (.quad q))) ∧
      (3 < x.toNat → taken [0x1B#8, 0x51#8, x] (skipped 3)) ∧
      taken [0x1B#8, 0x42#8, x, y] (counted (lead ≠ v)
        (lineEnds false (if lead = 0 then .nothing else .move (-(((5 * lead + 1) / 2 : Nat) : Int))))) ∧
      taken [0x1B#8, 0x56#8, x, y] (counted (lead ≠ v)
        (lineEnds false (if lead = 0 then .nothing else .move ((5 * lead + 1) / 2 : Nat)))) ∧
      taken [0x1B#8, 0x43#8] (lineEnds false .cut)) ∧
    -- unknown letters, and codes whose parameters have not all arrived
    (∀ letter : Byte, codeLength letter = none → taken [0x1B#8, letter] (skipped 2)) ∧
    (∀ (letter : Byte) (n : Nat), codeLength letter = some n ↔
      (n = 0 ∧ letter = 0x43#8) ∨ (n = 1 ∧ letter ∈ [0x48#8, 0x47#8, 0x51#8]) ∨
      (n = 2 ∧ letter ∈ [0x46#8, 0x50#8, 0x4C#8, 0x4D#8, 0x42#8, 0x56#8]) ∨ (n = 3 ∧ letter = 0x53#8) ∨
      (n = 4 ∧ letter = 0x49#8)) ∧
    (∀ (short : List Byte),
      short = [0x1B#8] ∨
        (∃ (letter : Byte) (n : Nat) (ps : List Byte),
          short = 0x1B#8 :: letter :: ps ∧ codeLength letter = some n ∧ ps.length < n) →
      j.text = short →
      j.applyByte h = { skipped short.length with text := [] } ∧ (j.state = .active → j.work ≠ .take))

/-- R10, R23, R24, R41, R67, R68, R71, R72, R75, R76, R86: PLACE WORD. Outside a turn with a word to place nothing is placed. The
word whose placing was interrupted, else the carry, else the ended word, else the pending word of an ending due, is placed character
by character: one of width 0 is dropped and counted; flow pause stops a line that would be opened; the 241st glyph and the 17th run
stop it; a font with no record, changing or unavailable stalls it; every other takes its station and joins the line, the first of a
font with a reference, the first of a station with a claim, the first of the line opening it. The turret answers with the
lowest-numbered MOUNTED station bound to the record, else CHANGING while one that holds it is in an exchange, else UNAVAILABLE; a
stall raises JOB STALLED. A word that fits stays; one that does not has its line broken, set and offered within the same step. A
word of one character on an empty line, where no ending due has its last line set already, is placed, or its line is set OVERSET and
offered. Log entries 11 and 14: that a word's placing is one PLACE WORD, and the order of the checks on one character (record,
width, flow pause, limits of the line, turret), are the model's choice. -/
def Obligations.PlaceWordPlacesOrStalls : Prop :=
  -- the step, by the outcome of the placing
  (∀ s : State,
    (s.serves .place = none → exec .placeWord s = .next (settle s s)) ∧
    ∀ slot : Nat, s.serves .place = some slot →
      let t := (s.placeNext slot).1
      ((s.placeNext slot).2 = .finished →
        exec .placeWord s = .next (settle s ((t.onLine slot fun l => { l with placing := none }).afterStep slot))) ∧
      ((s.placeNext slot).2 = .overflow → exec .placeWord s = .next (settle s (t.breakAndSet slot))) ∧
      (∀ r f, (s.placeNext slot).2 = .stall r f →
        exec .placeWord s = .next (settle s
          (((t.onJob slot fun j => { j with stallFont := f }).setStatus slot (.stalled r)).endTurn slot))) ∧
      ((s.placeNext slot).2 = .paused → exec .placeWord s = .next (settle s (t.endTurn slot)))) ∧
  -- the word that is placed, and its fit
  (∀ (s : State) (slot : Nat), slot < s.jobs.length →
    let l := (s.job slot).line
    let begun := fun w : Word => { word := w, upto := 0, start := l.glyphs.length : Placing }
    let u := s.onLine slot LineInProgress.beginPlacing
    let m := (u.job slot).line
    (∀ p, l.placing = some p → m = l) ∧
    (∀ w, l.placing = none → l.carry = some w →
      m = { l with placing := some (begun w), carry := none, gapDue := !w.cont || l.gapDue }) ∧
    (∀ w, l.placing = none → l.carry = none → l.ended = some w →
      m = { l with placing := some (begun w), ended := none, gapDue := !w.cont || l.gapDue }) ∧
    (l.placing = none → l.carry = none → l.ended = none → l.ending.isSome = true → 0 < countChars l.pending →
      m = { l with
        placing := some (begun { items := l.pending, cont := l.pendingCont, hasCont := false })
        pending := [], pendingCont := false, gapDue := !l.pendingCont || l.gapDue }) ∧
    ∀ p, m.placing = some p →
      let r := placeItems slot (p.word.items.drop p.upto) (p.word.items.take p.upto) u
      (s.placeNext slot).1 =
        (r.1.onLine slot fun x => { x with placing := some { p with word := { p.word with items := r.2.1 }, upto := r.2.2.1 } }) ∧
      (r.2.2.2 ≠ .finished → (s.placeNext slot).2 = r.2.2.2) ∧
      (∀ q : LineParams, r.2.2.2 = .finished → (r.1.job slot).line.params = some q →
        let gs := (r.1.job slot).line.glyphs
        (s.placeNext slot).2 =
          if (r.1.advances gs).sum + ((gapSizes gs).map fun z => q.spaceMin * (z * 5)).sum ≤
                (q.measure - q.effLeft - q.right) * 128 ∧
              gs.length ≤ 240 ∧ (runsOf gs).length ≤ 16 then .finished
          else .overflow)) ∧
  -- the characters of a word, in order
  (∀ (s : State) (slot f z : Nat) (c : Byte) (kept rest : List WordItem),
    let l := (s.job slot).line
    let stopped := fun how : Placed => (s, kept ++ .char c f z :: rest, kept.length, how)
    let placed := placeItems slot (.char c f z :: rest) kept s
    let joins := ∃ g ∈ l.glyphs.getLast?, g.font = f ∧ g.size = z
    placeItems slot [] kept s = (s, kept, kept.length, .finished) ∧
    placeItems slot (.mark :: rest) kept s = placeItems slot rest (kept ++ [.mark]) s ∧
    (s.font f = none → placed = stopped (.stall .fontUnavailable f)) ∧
    ∀ r : FontRecord, s.font f = some r →
      (r.width c = 0 →
        placed = placeItems slot rest kept
          (s.onJob slot fun j => { j with missingChars := bump j.missingChars, line := { j.line with missing := true } })) ∧
      (r.width c ≠ 0 → l.glyphs = [] → s.flowPause = true → l.ending = none → placed = stopped .paused) ∧
      (r.width c ≠ 0 → l.glyphs ≠ [] → 240 ≤ l.glyphs.length ∨ (¬joins ∧ 16 ≤ (runsOf l.glyphs).length) →
        placed = stopped .overflow) ∧
      (r.width c ≠ 0 → l.glyphs ≠ [] ∨ s.flowPause = false ∨ l.ending.isSome = true → l.glyphs.length < 240 →
        joins ∨ (runsOf l.glyphs).length < 16 →
        (∀ g, l.glyphs.find? (·.font == f) = some g →
          placed = placeItems slot rest (kept ++ [.char c f z]) (s.placeGlyph slot c f z g.station)) ∧
        ((∀ g ∈ l.glyphs, g.font ≠ f) →
          (∀ n, s.askTurret r = .station n →
            placed = placeItems slot rest (kept ++ [.char c f z]) (s.placeGlyph slot c f z n)) ∧
          (s.askTurret r = .changing → placed = stopped (.stall .fontChanging f)) ∧
          (s.askTurret r = .unavailable → placed = stopped (.stall .fontUnavailable f))))) ∧
  -- the turret's answer
  (∀ (s : State) (r : FontRecord),
    let bound := fun st : Station => st.state = .mounted ∧ st.font = some r.number
    let leaving := fun st : Station => (st.state = .draining ∧ st.font = some r.number) ∨
      ((st.state = .opened ∨ st.state = .verifying) ∧ st.prior = some .mounted ∧ st.code = r.master)
    (∀ n, s.askTurret r = .station n ↔
      n < s.turret.stations.length ∧ bound (s.station n) ∧ ∀ m, m < n → ¬bound (s.station m)) ∧
    (s.askTurret r = .changing ↔
      (∀ st ∈ s.turret.stations, ¬bound st) ∧ ∃ st ∈ s.turret.stations, leaving st) ∧
    (s.askTurret r = .unavailable ↔ ∀ st ∈ s.turret.stations, ¬bound st ∧ ¬leaving st)) ∧
  -- a glyph placed
  (∀ (s : State) (slot f z n : Nat) (c : Byte), slot < s.jobs.length → n < s.turret.stations.length →
    let j := s.job slot
    let l := j.line
    let t := s.placeGlyph slot c f z n
    let indent := if j.paragraphMark then min j.params.paragraph (j.params.measure - 900 - (j.params.left + j.params.right)) else 0
    t.job slot = { j with
      paragraphMark := j.paragraphMark && !l.glyphs.isEmpty
      line := { l with
        glyphs := l.glyphs ++ [{ code := c, font := f, size := z, station := n, gap := l.gapDue && !l.glyphs.isEmpty }]
        gapDue := false
        params := if l.glyphs = [] then
            some { measure := j.params.measure, effLeft := j.params.left + indent, right := j.params.right, quad := j.params.quad
                   spaceMin := j.params.spaceMin, spaceOpt := j.params.spaceOpt, spaceMax := j.params.spaceMax
                   letterMax := j.params.letterMax, hyphenate := j.params.hyphenate, language := j.params.language
                   leading := j.params.leading, paragraph := j.paragraphMark }
          else l.params } } ∧
    (∀ m, m ≠ slot → t.job m = s.job m) ∧
    t.fonts = (if ∃ g ∈ l.glyphs, g.font = f then s.fonts
      else s.fonts.map fun r => if r.number = f then { r with linePart := r.linePart + 1 } else r) ∧
    t.station n = (if ∃ g ∈ l.glyphs, g.station = n then s.station n
      else { s.station n with claims := (s.station n).claims + 1 }) ∧
    (∀ m, m ≠ n → t.station m = s.station m) ∧
    t.queue = s.queue ∧ t.film = s.film ∧ t.expo = s.expo ∧ t.engine = s.engine ∧ t.dict = s.dict) ∧
  -- a word of one character on an empty line
  ∀ (s : State) (slot f z : Nat) (c : Byte),
    let j := s.job slot
    s.serves .place = some slot → slot < s.jobs.length → j.line.placing = none → j.line.carry = none →
    j.line.ended = some { items := [.char c f z], cont := false, hasCont := false } →
    (∀ e, j.line.ending = some e → e.lineSet = false) →
    (s.font f = none →
      ∃ t : State, exec .placeWord s = .next (settle s t) ∧
        (t.job slot).stallFont = f ∧ (t.job slot).line.glyphs = j.line.glyphs ∧
        (t.job slot).status = .stalled .fontUnavailable ∧
        (j.status ≠ .stalled .fontUnavailable → t.link.holds .jobStalled = true) ∧
        t.engine = { serving := none, pointer := (slot + 1) % 4 } ∧ t.fonts = s.fonts ∧ t.queue = s.queue) ∧
    (∀ (r : FontRecord) (n : Nat), s.font f = some r → r.width c ≠ 0 → j.line.glyphs = [] →
      s.flowPause = false ∨ j.line.ending.isSome = true → s.askTurret r = .station n → n < s.turret.stations.length →
      let g : Glyph := { code := c, font := f, size := z, station := n, gap := false }
      let body := s.lineBody j.openLine [g] (.overset :: if j.line.missing then [.missing] else []) false
      ∃ t : State, exec .placeWord s = .next (settle s t) ∧
        (t.job slot).paragraphMark = false ∧ (t.job slot).line.ended = none ∧ (t.job slot).line.placing = none ∧
        (t.job slot).line.carry = none ∧ t.film = s.film ∧
        (s.fits j.openLine [g] = true →
          (t.job slot).line.glyphs = [g] ∧ (t.job slot).line.params = some j.openLine ∧
          t.fonts = s.fonts.map (fun x => if x.number = f then { x with linePart := x.linePart + 1 } else x) ∧
          (t.station n).claims = (s.station n).claims + 1 ∧ t.queue = s.queue) ∧
        (s.fits j.openLine [g] = false →
          (t.job slot).line.glyphs = [] ∧ t.engine = { serving := none, pointer := (slot + 1) % 4 } ∧
          (s.admits slot (.line body) = true →
            ∃ e : Entry, t.queue.entries = s.queue.entries ++ [e] ∧ e.body = .line { body with lineNumber := j.lineNumber }) ∧
          (s.admits slot (.line body) = false → (t.job slot).line.held = some (.line body) ∧ t.queue = s.queue)))

/-- R41, R58, R63, R67, R77, R78, R79, R85, R87, R94, R98, R101, R103: SET LINE and the break procedure. A line whose word overflows
is broken, set and offered in one step: after the largest fitting candidate within the grade limit, where an attempt is made, with a
hyphen glyph but after an explicit hyphen and the flag of its class; else before the word; else by force, FORCED after the most
glyphs that fit or OVERSET with one. A set line is appended WAITING and NOT TAKEN at the tail, or held for want of room with the job
STALLED QUEUE FULL, which raises JOB STALLED; either ends the turn. An ending due sets its last line, over an empty line completes,
and offers the entry it makes. Log entries 11, 12, 13 and 30: which steps one SET LINE takes of a break and of an ending, what the
carry of a break holds, and that a serial still carried by a present entry is passed over, are the model's choice. -/
def Obligations.SetLineSetsTheLastLine : Prop :=
  -- the step
  (∀ s : State,
    (s.serves .place = none → s.serves .set = none → exec .setLine s = .next (settle s s)) ∧
    (∀ slot : Nat, s.serves .place = some slot → (s.placeNext slot).2 ≠ .overflow → exec .setLine s = .next (settle s s)) ∧
    (∀ slot : Nat, s.serves .place = some slot → (s.placeNext slot).2 = .overflow →
      exec .setLine s = .next (settle s ((s.placeNext slot).1.breakAndSet slot)) ∧
      exec .setLine s = exec .placeWord s)) ∧
  -- the break of a word that overflows
  (∀ (s : State) (slot : Nat) (pl : Placing) (p : LineParams),
    let j := s.job slot
    let items := pl.word.items
    let base := j.line.glyphs.take pl.start
    let word := j.line.glyphs.drop pl.start
    let chars := s.wordChars items
    let a := analyse s slot p.language j.params.minPrefix j.params.minSuffix chars (markPositions 0 items)
    let attempt := pl.word.cont = false ∧ pl.word.hasCont = false ∧ p.hyphenate = true ∧ j.consecutive < j.params.ladder ∧
      (p.quad = .justify ∨
        j.params.zone * 128 < (p.measure - p.effLeft - p.right) * 128 -
          ((s.advances base).sum + ((gapSizes base).map fun z => p.spaceOpt * (z * 5)).sum))
    let explicit := fun k : Nat => ((chars[k - 1]?).map CoreChar.explicit).getD false
    let divided := fun k : Nat =>
      if explicit k then base ++ word.take k
      else match (base ++ word.take k).getLast? with
        | none => base
        | some g => base ++ word.take k ++ [{ g with code := ((s.font g.font).map FontRecord.hyphen).getD 0x2D#8, gap := false }]
    let fitting := fun c : Candidate =>
      attempt ∧ c ∈ a.candidates ∧ c.grade ≤ j.params.grade ∧ a.start + c.position ≤ word.length ∧
        s.fits p (divided (a.start + c.position)) = true
    let rest := fun (left : List WordItem) (hasCont : Bool) =>
      if 0 < countChars left then some { items := left, cont := false, hasCont := hasCont : Word } else none
    j.line.placing = some pl → j.line.params = some p → (a.candidates.map Candidate.position).Pairwise (· < ·) →
    ∃ (u : State) (b : Break),
      s.breakAndSet slot = (u.leaveLine j.line.glyphs b.kept).setLineWith slot p b.kept b.flags false b.carry ∧
      { u with dict := s.dict } = s ∧
      (∀ e, attempt → a.entry = some e → u.dict = raiseHits e.slot s.dict) ∧ (¬attempt ∨ a.entry = none → u.dict = s.dict) ∧
      (∀ c, fitting c → (∀ d, fitting d → d.position ≤ c.position) →
        b.kept = divided (a.start + c.position) ∧
        b.flags = [match a.cls with
          | .discretionary | .explicit => .hyphD
          | .dictionary | .never => .hyphX
          | _ => .hyphA] ∧
        b.carry = rest ((itemsAfter (a.start + c.position) items).dropWhile (· == .mark)) false) ∧
      ((∀ c, ¬fitting c) → 0 < pl.start → b.kept = base ∧ b.flags = [] ∧ b.carry = some pl.word) ∧
      ((∀ c, ¬fitting c) → pl.start = 0 →
        (∀ k, 1 ≤ k → k ≤ word.length → s.fits p (word.take k) = true →
          (∀ m, k < m → m ≤ word.length → s.fits p (word.take m) = false) →
          b.kept = word.take k ∧ b.flags = [.forced] ∧ b.carry = rest (itemsAfter k items) pl.word.hasCont) ∧
        ((∀ k, 1 ≤ k → k ≤ word.length → s.fits p (word.take k) = false) →
          b.kept = word.take 1 ∧ b.flags = [.overset] ∧ b.carry = rest (itemsAfter 1 items) pl.word.hasCont))) ∧
  (∀ (items : List WordItem) (k : Nat), 1 ≤ k → k ≤ countChars items →
    ∃ front, items = front ++ itemsAfter k items ∧ countChars front = k ∧ front.getLast? ≠ some .mark) ∧
  -- a line that is set
  (∀ (s : State) (slot : Nat) (p : LineParams) (kept : List Glyph) (flags : List LineFlag) (last : Bool) (carry : Option Word),
    slot < s.jobs.length →
    let j := s.job slot
    let body := s.lineBody p kept (flags ++ if j.line.missing then [.missing] else []) last
    let t := s.setLineWith slot p kept flags last carry
    (t.job slot).line.glyphs = [] ∧ (t.job slot).line.placing = none ∧ (t.job slot).line.carry = carry ∧
    (t.job slot).line.missing = false ∧ (t.job slot).line.pending = j.line.pending ∧
    (∀ e, last = false → j.line.ending = some e → e.lineSet = false → (t.job slot).line.ending = some e) ∧
    t.engine = { serving := none, pointer := (slot + 1) % 4 } ∧ t.film = s.film ∧ t.dict = s.dict ∧
    (s.admits slot (.line body) = true →
      t.queue.entries = s.queue.entries ++
        [{ serial := s.queue.nextFree, slot := slot, jobId := j.id, attributed := true, expo := .waiting
           proof := .notTaken, required := decide (j.params.policy = .required)
           body := .line { body with lineNumber := j.lineNumber } }] ∧
      t.queue.nextSerial = (s.queue.nextFree + 1) % 65536 ∧ (t.job slot).line.held = none ∧
      (t.job slot).lineNumber = (if 65535 ≤ j.lineNumber then 1 else j.lineNumber + 1)) ∧
    (s.admits slot (.line body) = false →
      t.queue = s.queue ∧ (t.job slot).line.held = some (.line body) ∧ (t.job slot).lineNumber = j.lineNumber ∧
      (j.composing = true → j.finished = false →
        (t.job slot).status = .stalled .queueFull ∧
        (j.status ≠ .stalled .queueFull → t.link.holds .jobStalled = true)))) ∧
  -- the ending
  ∀ (s : State) (slot : Nat) (e : Ending),
    let j := s.job slot
    let l := j.line
    s.serves .set = some slot → slot < s.jobs.length → l.ending = some e →
    (∀ p : LineParams, l.params = some p → l.glyphs ≠ [] → e.lineSet = false →
      exec .setLine s = .next (settle s (s.setLineWith slot p l.glyphs [.last] true none))) ∧
    (l.params = none →
      let mark := if e.lineSet then e.paragraph else j.paragraphMark || e.paragraph
      let params := match e.action with
        | .measure m => { j.params with
            measure := m, left := (clampIndents m j.params.left j.params.right).1
            right := (clampIndents m j.params.left j.params.right).2 }
        | .indents x y => { j.params with left := x, right := y }
        | .quad q => { j.params with quad := q }
        | _ => j.params
      (e.action ≠ .cut → (∀ d, e.action ≠ .move d) →
        ∃ t : State, exec .setLine s = .next (settle s t) ∧
          (t.job slot).line.ending = none ∧ (t.job slot).paragraphMark = mark ∧ (t.job slot).params = params ∧
          (e.lineSet = false → (t.job slot).line.missing = false) ∧ t.queue = s.queue) ∧
      (∀ b : Body, (e.action = .cut ∧ b = .cut) ∨ (∃ d, e.action = .move d ∧ b = .move d false) →
        ∃ t : State, exec .setLine s = .next (settle s t) ∧
          (t.job slot).paragraphMark = mark ∧ (t.job slot).params = j.params ∧
          t.engine = { serving := none, pointer := (slot + 1) % 4 } ∧
          (s.admits slot b = true →
            (t.job slot).line.ending = none ∧ (t.job slot).line.held = none ∧
            t.queue.entries = s.queue.entries ++
              [{ serial := s.queue.nextFree, slot := slot, jobId := j.id, attributed := true, expo := .waiting
                 proof := .done, required := decide (j.params.policy = .required), body := b }]) ∧
          (s.admits slot b = false →
            (t.job slot).line.held = some b ∧ (t.job slot).line.ending = some e ∧ t.queue = s.queue ∧
            (j.finished = false →
              (t.job slot).status = .stalled .queueFull ∧
              (j.status ≠ .stalled .queueFull → t.link.holds .jobStalled = true)))))

/-- R3, R5, R71, R73, R74, R80 to R85: the advances of a line's glyphs, its gaps, its letter pairs and its runs; the spacing of a
line in every mode, its flags, and the LINE entry it becomes. A justified line that is no last line and not OVERSET fills its
available width exactly, unless it is SHORT: its gaps take their shares; past their maximums the letter pairs take the excess up to
their caps, LETTERSPACED; and past the caps the gaps take the rest, LOOSE. A single word takes its space in its pairs, or is SHORT.
Any other line is ragged, its gaps at their optimums or shrunk, offset by its mode, without flags. A glyph advances by its width
times its size times 5, kerned with the next glyph of its run where no gap lies between, never below 0; a gap and a pair take their
size from the glyph before. The entry holds the depth, the indent, the mode, the runs and the positions that follow. -/
def Obligations.JustifiedLinesFillTheMeasure : Prop :=
  (∀ (total : Nat) (sizes : List Nat),
    let floors := sizes.map fun z => total * z / sizes.sum
    (share total sizes).length = sizes.length ∧
    ∀ i z, sizes[i]? = some z →
      (share total sizes)[i]? = some (total * z / sizes.sum + if i < total - floors.sum then 1 else 0)) ∧
  (∀ (total : Nat) (sizes caps : List Nat), sizes.length = caps.length →
    let lowered := (sizes.zip caps).map fun x => min (total * x.1 / sizes.sum) x.2
    (cappedShare total sizes caps).length = sizes.length ∧
    ∀ i x cap, lowered[i]? = some x → caps[i]? = some cap →
      (cappedShare total sizes caps)[i]? = some
        (if x < cap ∧ (((lowered.zip caps).take i).filter fun y => y.1 < y.2).length < total - lowered.sum then x + 1 else x)) ∧
  (∀ (r : FontRecord) (b : Byte),
    r.width b =
      if 0x21 ≤ b.toNat ∧ b.toNat ≤ 0x7E then r.widths.getD (b.toNat - 0x21) 0
      else if 0xA0 ≤ b.toNat then r.widths.getD (b.toNat - 0xA0 + 94) 0 else 0) ∧
  (∀ (s : State) (gs : List Glyph),
    let width := fun g : Glyph => match s.font g.font with | some r => r.width g.code | none => 0
    (∀ (r : FontRecord) (a b : Byte),
      (∀ k : KernPair, k ∈ r.kerns → k.first = a → k.second = b →
        (∀ x ∈ r.kerns, x.first = a → x.second = b → x = k) → r.kern a b = k.adjust) ∧
      ((∀ k ∈ r.kerns, ¬(k.first = a ∧ k.second = b)) → r.kern a b = 0)) ∧
    (s.advances gs).length = gs.length ∧
    (∀ k g, gs[k]? = some g →
      (∀ h r, gs[k + 1]? = some h → g.font = h.font → g.size = h.size → h.gap = false → s.font g.font = some r →
        (s.advances gs)[k]? =
          some (max 0 ((r.width g.code * g.size * 5 : Int) + r.kern g.code h.code * g.size * 5)).toNat) ∧
      ((∀ h, gs[k + 1]? = some h → g.font ≠ h.font ∨ g.size ≠ h.size ∨ h.gap = true) →
        (s.advances gs)[k]? = some (width g * g.size * 5))) ∧
    gapSizes gs = ((gs.zip (gs.drop 1)).filter fun x => x.2.gap = true).map (fun x => x.1.size) ∧
    pairSizes gs = ((gs.zip (gs.drop 1)).filter fun x => x.2.gap = false).map (fun x => x.1.size) ∧
    (runsOf gs).length = (if gs = [] then 0 else 1) +
      (gs.zip (gs.drop 1)).countP (fun x => x.1.font ≠ x.2.font ∨ x.1.size ≠ x.2.size)) ∧
  ∀ (s : State) (p : LineParams) (gs : List Glyph),
    let natural := (s.advances gs).sum
    let room := (p.measure - p.effLeft - p.right) * 128
    let gaps := gapSizes gs
    let pairs := pairSizes gs
    let opts := gaps.map fun z => p.spaceOpt * (z * 5)
    let maxes := gaps.map fun z => p.spaceMax * (z * 5)
    let caps := pairs.map fun z => p.letterMax * (z * 5)
    let spaced := fun l : List Nat => if ∃ x ∈ l, 0 < x then [LineFlag.letterspaced] else []
    (p.quad = .justify → (∀ g ∈ gs, 0 < g.size) → natural ≤ p.width →
      let sp := s.spacing p gs false false
      LineFlag.short ∉ sp.flags →
      sp.offset = 0 ∧ natural + sp.gaps.sum + sp.pairs.sum = p.width ∧
      sp.gaps.length = gaps.length ∧ sp.pairs.length = pairs.length) ∧
    p.width = room ∧
    (p.quad = .justify → gaps ≠ [] →
      let first := share (room - natural) gaps
      let excess := room - natural - maxes.sum
      let letters := cappedShare excess pairs caps
      let past := ∃ x ∈ first.zip maxes, x.2 < x.1
      (¬past → s.spacing p gs false false = { gaps := first, pairs := pairs.map fun _ => 0, offset := 0, flags := [] }) ∧
      (past → excess ≤ caps.sum →
        s.spacing p gs false false = { gaps := maxes, pairs := letters, offset := 0, flags := spaced letters }) ∧
      (past → caps.sum < excess →
        s.spacing p gs false false =
          { gaps := List.zipWith (· + ·) maxes (share (excess - caps.sum) gaps), pairs := caps, offset := 0
            flags := .loose :: spaced caps })) ∧
    (p.quad = .justify → gaps = [] →
      let letters := cappedShare (room - natural) pairs caps
      (pairs ≠ [] → room - natural ≤ caps.sum →
        s.spacing p gs false false = { gaps := [], pairs := letters, offset := 0, flags := spaced letters }) ∧
      (pairs = [] ∨ caps.sum < room - natural →
        s.spacing p gs false false = { gaps := [], pairs := caps, offset := 0, flags := .short :: spaced caps })) ∧
    (∀ last : Bool, p.quad ≠ .justify ∨ last = true → natural ≤ room →
      let free := room - natural - opts.sum
      (room < natural + opts.sum →
        s.spacing p gs last false =
          { gaps := share (room - natural) gaps, pairs := pairs.map fun _ => 0, offset := 0, flags := [] }) ∧
      (natural + opts.sum ≤ room →
        s.spacing p gs last false =
          { gaps := opts, pairs := pairs.map fun _ => 0, flags := []
            offset := match p.quad with | .right => free | .center => free / 2 | _ => 0 })) ∧
    (∀ last : Bool, s.spacing p gs last true =
      { gaps := gaps.map fun _ => 0, pairs := pairs.map fun _ => 0, offset := 0, flags := [] }) ∧
    ∀ (flags : List LineFlag) (last : Bool),
      let b := s.lineBody p gs flags last
      let sp := s.spacing p gs last (decide (LineFlag.overset ∈ flags))
      b.depth = (5 * p.leading + 1) / 2 ∧ b.measure = p.measure ∧ b.effLeft = p.effLeft ∧ b.mode = p.quad ∧
      b.runs = runsOf gs ∧ b.flags = flags ++ sp.flags ∧
      (∀ r ∈ b.runs, 0 < r.count) ∧
      (∀ q ∈ b.runs.zip (b.runs.drop 1), q.1.font ≠ q.2.font ∨ q.1.size ≠ q.2.size) ∧
      ((∀ q ∈ gs.zip (gs.drop 1), q.1.font = q.2.font → q.1.size = q.2.size → q.1.station = q.2.station) →
        (b.runs.flatMap fun r => List.replicate r.count (r.station, r.font, r.size)) =
          gs.map fun g => (g.station, g.font, g.size)) ∧
      b.glyphs.length = gs.length ∧
      ∀ k g, gs[k]? = some g →
        let before := ((gs.take (k + 1)).drop 1).countP Glyph.gap
        let stands := ((s.advances gs).take k).sum + (sp.gaps.take before).sum + (sp.pairs.take (k - before)).sum
        b.glyphs[k]? = some (g.code, (p.effLeft * 128 + sp.offset + stands + 64) / 128)

/-- R84: the positions of a line's glyphs are non-decreasing, one for each glyph in its order, and the first is the rounded start. -/
def Obligations.GlyphPositionsDoNotDecrease : Prop :=
  ∀ (gs : List Glyph) (advs gaps pairs : List Nat) (start : Nat),
    let placed := placeAt gs advs gaps pairs start
    placed.map Prod.fst = gs.map Glyph.code ∧ (placed.map Prod.snd).Pairwise (· ≤ ·) ∧
    ∀ x ∈ placed.head?, x.2 = (start + 64) / 128

/-! ### Hyphenation and the exception dictionary -/

/-- R90, R91, R95 to R100: the class, the core and the candidates of a word. Discretionary marks settle it; a word with no letter has
none; explicit hyphens inside the core, then any other non-letter, settle it; a core of letters has the breaks of the dictionary
entry chosen, within the minima, else the rule candidates. These are exactly the positions within the minima at which a PREFIX or SUFFIX
rule, the cluster or the single pattern offers one, each once, with the lowest grade offered. Log entry 28: which of several sources of
that grade is named, and the empty core of a word with no letter, are the model's choice. -/
def Obligations.RuleCandidatesKeepTheMinima : Prop :=
  (∀ (t : LanguageTable) (l : List Nat) (minPrefix minSuffix : Nat),
    let n := l.length
    let cs := ruleCandidates t l minPrefix minSuffix
    let vowel := fun i : Nat => t.vowels.contains (l.getD i 0)
    let offers := fun (p g : Nat) (src : Source) =>
      (src = .prefixRule ∧ ∃ r ∈ t.rules, r.suffix = false ∧ r.letters.length = p ∧ p < n ∧ l.take p = r.letters ∧ r.grade = g) ∨
      (src = .suffix ∧ ∃ r ∈ t.rules, r.suffix = true ∧ r.letters.length + p = n ∧ 0 < p ∧ l.drop p = r.letters ∧ r.grade = g) ∨
      (src = .cluster ∧ g = 2 ∧ 2 ≤ p ∧ p + 2 ≤ n ∧ vowel (p - 2) = true ∧ vowel (p - 1) = false ∧ vowel p = false ∧
        vowel (p + 1) = true) ∨
      (src = .single ∧ g = 3 ∧ 1 ≤ p ∧ p + 2 ≤ n ∧ vowel (p - 1) = true ∧ vowel p = false ∧ vowel (p + 1) = true)
    (n < minPrefix + minSuffix → cs = []) ∧ (cs.map Candidate.position).Pairwise (· < ·) ∧
    (∀ p g src, { position := p, grade := g, source := src } ∈ cs →
      1 ≤ p ∧ p < n ∧ minPrefix ≤ p ∧ p + minSuffix ≤ n ∧ offers p g src ∧
      ∀ g' src', offers p g' src' → g ≤ g' ∧ (g' = g → src.code ≤ src'.code)) ∧
    (∀ p g src, 1 ≤ p → p < n → minPrefix ≤ p → p + minSuffix ≤ n → offers p g src → p ∈ cs.map Candidate.position) ∧
    ((∀ r ∈ t.rules, 1 ≤ r.grade ∧ r.grade ≤ 3) → ∀ c ∈ cs, 1 ≤ c.grade ∧ c.grade ≤ 3)) ∧
  ∀ (s : State) (slot language minPrefix minSuffix : Nat) (chars : List CoreChar) (marks : List Nat),
    let table := s.language language
    let letter := fun c : CoreChar => letterIndex table c
    let a := analyse s slot language minPrefix minSuffix chars marks
    (∀ c t, table = some t → c.explicit = false → letter c = tableAt t.letterMap c.code) ∧
    (∀ c, table = none ∨ c.explicit = true → letter c = 0) ∧
    (∀ (c : Byte) (f z : Nat) (items : List WordItem),
      s.wordChars (.char c f z :: items) =
        { code := c, explicit := (s.font f).any fun r => r.hyphen == c } :: s.wordChars items ∧
      s.wordChars (.mark :: items) = s.wordChars items) ∧
    (DictOk s → (a.candidates.map Candidate.position).Pairwise (· < ·)) ∧
    (marks ≠ [] →
      a.cls = .discretionary ∧ a.start = 0 ∧ a.length = chars.length ∧ a.entry = none ∧
      ∀ c, c ∈ a.candidates ↔
        c.grade = 1 ∧ c.source = .discretionary ∧ 1 ≤ c.position ∧ c.position < chars.length ∧ c.position ∈ marks) ∧
    (marks = [] → (∀ c ∈ chars, letter c = 0) →
      a = { cls := .noLetters, start := 0, length := 0, entry := none, candidates := [] }) ∧
    ∀ front core back : List CoreChar,
      let n := core.length
      marks = [] → chars = front ++ core ++ back → (∀ c ∈ front, letter c = 0) → (∀ c ∈ back, letter c = 0) →
      (∃ c ∈ core.head?, letter c ≠ 0) → (∃ c ∈ core.getLast?, letter c ≠ 0) →
      a.start = front.length ∧ a.length = n ∧
      ((∃ c ∈ core, c.explicit = true) →
        a.cls = .explicit ∧ a.entry = none ∧
        ∀ c, c ∈ a.candidates ↔ c.grade = 1 ∧ c.source = .explicit ∧ 1 ≤ c.position ∧ c.position < n ∧
          ∃ x, core[c.position - 1]? = some x ∧ x.explicit = true) ∧
      ((∀ c ∈ core, c.explicit = false) → (∃ c ∈ core, letter c = 0) →
        a.cls = .unhyphenable ∧ a.entry = none ∧ a.candidates = []) ∧
      ((∀ c ∈ core, letter c ≠ 0) →
        let l := core.map letter
        let found := if 2 ≤ n ∧ n ≤ 31 then choose s.dict language l slot (s.job slot).id else none
        a.entry = found ∧
        (∀ e, found = some e →
          a.candidates = (e.breaks.filter fun b => decide (minPrefix ≤ b.position ∧ b.position + minSuffix ≤ n)).map
            (fun b => { position := b.position, grade := b.grade, source := .dictionary }) ∧
          a.cls = if a.candidates = [] then .never else .dictionary) ∧
        (∀ t, found = none → table = some t →
          a.candidates = ruleCandidates t l minPrefix minSuffix ∧
          a.cls = if n < minPrefix + minSuffix then .noRules else .rules))

/-- R106, R107, R108, R109, R113, R114: ADD WORD, through its table of checks in order. A language, word, list of breaks or owner out of
range is refused RANGE; a HOUSE word under the house lock LOCKED; an undefined language, or a JOB owner that is not the job composing
in its slot, STATE; a code that folds to 0 RANGE; a key already present is answered DUPLICATE with its slot; a full dictionary or quota
FULL. Else the word takes the lowest empty slot with a hit count of 0, and the reply gives the slot and the folded word. Log entries 5
and 28: the byte that tells the capacity from the quota, and that the capacity is named where both are reached, are the model's choice. -/
def Obligations.AddWordTakesTheLowestEmptySlot : Prop :=
  ∀ (s : State) (tag : Byte) (n : Nat) (w : List Byte) (bs : List WordBreak) (o : ScopeArg),
    s.accepting → w.length < 256 → bs.length < 256 → DictOk s →
    let i := Instr.addWord tag n w bs o
    let refused := fun st : Status => Host.Outcome.next (s.answered (plainReply i tag st))
    let wordFits := 2 ≤ w.length ∧ w.length ≤ 31 ∧ ∀ b ∈ w, (0x21 ≤ b.toNat ∧ b.toNat ≤ 0x7E) ∨ 0xA0 ≤ b.toNat
    let breaksFit := bs.length ≤ 8 ∧
      (∀ b ∈ bs, 1 ≤ b.position ∧ b.position ≤ w.length - 1 ∧ 1 ≤ b.grade ∧ b.grade ≤ 3) ∧
      (bs.map WordBreak.position).Pairwise (· < ·)
    let ownerFits := o.scope = 0 ∨ o.scope = 1 ∨ (o.scope = 2 ∧ o.slot ≤ 3 ∧ o.jobId ≠ 0)
    let composes := ((s.job o.slot).state = .active ∨ (s.job o.slot).state = .closing) ∧ (s.job o.slot).id = o.jobId
    let inRange := n ≤ 3 ∧ wordFits ∧ breaksFit ∧ ownerFits
    let sc : Scope := if o.scope = 0 then .house else if o.scope = 1 then .desk else .job o.slot o.jobId
    (¬inRange → exec i s = refused .range) ∧
    (inRange → o.scope = 0 → s.houseLocked = true → exec i s = refused .locked) ∧
    (inRange → o.scope ≠ 0 ∨ s.houseLocked = false →
      (s.language n = none ∨ (o.scope = 2 ∧ ¬composes) → exec i s = refused .state) ∧
      ∀ t : LanguageTable, s.language n = some t → (o.scope = 2 → composes) →
        let l := w.map (tableAt t.letterMap)
        let owned := if o.scope = 2 then s.dict.countP (isJobWord o.slot o.jobId) else 0
        (0 ∈ l → exec i s = refused .range) ∧
        (0 ∉ l → ∀ e, entryOfKey s.dict n l sc = some e →
          exec i s = .next (s.answered (replyWith i tag .duplicate (num2 e.slot)))) ∧
        (0 ∉ l → entryOfKey s.dict n l sc = none → 4096 ≤ s.dict.length ∨ 256 ≤ owned →
          exec i s = .next (s.answered (replyWith i tag .full
            (num1 (if 4096 ≤ s.dict.length then 0 else 1) ++ num2 s.dict.length ++ num2 owned)))) ∧
        (0 ∉ l → entryOfKey s.dict n l sc = none → s.dict.length < 4096 → owned < 256 →
          ∃ k : Nat, k < 4096 ∧ entryAt s.dict k = none ∧ (∀ m, m < k → (entryAt s.dict m).isSome = true) ∧
            let e : DictEntry := { slot := k, language := n, word := l, breaks := bs, scope := sc, hits := 0 }
            exec i s =
              .next (({ s with dict := insertEntry e s.dict } : State).answered (replyWith i tag .done (num2 k ++ listOf num1 l)))))

/-- R110, R113, R115, R116, R117, R120: an entry is named by its slot or by its key, and the naming is refused by the table of R113
in its order. AMEND WORD replaces the breaks of the entry named and leaves its count, RETIRE WORD empties its slot, both refused
LOCKED for a HOUSE entry under the house lock, and QUERY WORD reports it. RETIRE WORDS retires a class and answers how many went and
stay. Log entry 5: the layout of these replies, with the four-byte scope owner in AMEND WORD's and the one-byte scope of the entry
chosen in QUERY WORD's, is the model's choice. -/
def Obligations.NamedWordsAreAmendedRetiredReported : Prop :=
  ∀ (s : State) (tag : Byte), s.accepting →
    (∀ k : Nat, nameEntry s (.bySlot k) =
      if 4096 ≤ k then .error .range else match entryAt s.dict k with | none => .error .absent | some e => .ok e) ∧
    (∀ (n : Nat) (w : List Byte) (o : ScopeArg) (t : LanguageTable) (l : List Nat) (sc : Scope),
      n ≤ 3 → wordOk w = true → scopeOf o = some sc → s.language n = some t → fold t w = some l →
      nameEntry s (.byKey n w o) = match entryOfKey s.dict n l sc with | none => .error .absent | some e => .ok e) ∧
    (∀ (o : ScopeArg) (w : List Byte) (t : LanguageTable),
      scopeOf o = (if o.scope = 0 then some .house else if o.scope = 1 then some .desk
        else if o.scope = 2 ∧ o.slot ≤ 3 ∧ o.jobId ≠ 0 then some (.job o.slot o.jobId) else none) ∧
      (wordOk w = true ↔ 2 ≤ w.length ∧ w.length ≤ 31 ∧ ∀ b ∈ w, isCharCode b = true) ∧
      (∀ l, fold t w = some l ↔ l = w.map (tableAt t.letterMap) ∧ ∀ b ∈ w, tableAt t.letterMap b ≠ 0)) ∧
    (∀ (n : Nat) (w : List Byte) (o : ScopeArg),
      (3 < n ∨ wordOk w = false ∨ scopeOf o = none → nameEntry s (.byKey n w o) = .error .range) ∧
      (n ≤ 3 → wordOk w = true → (scopeOf o).isSome = true →
        (s.language n = none → nameEntry s (.byKey n w o) = .error .state) ∧
        ∀ t, s.language n = some t → fold t w = none → nameEntry s (.byKey n w o) = .error .range)) ∧
    (∀ k : Nat,
      let i := Instr.queryWord tag (.bySlot k)
      (∀ st, nameEntry s (.bySlot k) = .error st → exec i s = .next (s.answered (plainReply i tag st))) ∧
      ∀ e, nameEntry s (.bySlot k) = .ok e → exec i s = .next (s.answered (replyWith i tag .done e.bytes))) ∧
    (∀ (slot n : Nat) (w : List Byte), w.length < 256 →
      let i := Instr.queryWord tag (.asSeenBy slot n w)
      let refused := fun st : Status => exec i s = .next (s.answered (plainReply i tag st))
      (3 < slot → refused .range) ∧
      (slot ≤ 3 → (s.job slot).state ≠ .active → (s.job slot).state ≠ .closing → refused .state) ∧
      (slot ≤ 3 → (s.job slot).state = .active ∨ (s.job slot).state = .closing →
        (3 < n ∨ wordOk w = false → refused .range) ∧
        (n ≤ 3 → wordOk w = true →
          (s.language n = none → refused .state) ∧
          ∀ t, s.language n = some t → fold t w = none → refused .range))) ∧
    (∀ (name : WordName) (bs : List WordBreak),
      let i := Instr.amendWord tag name bs
      i.shapeOk = true →
      (∀ st, nameEntry s name = .error st → exec i s = .next (s.answered (plainReply i tag st))) ∧
      ∀ e : DictEntry, nameEntry s name = .ok e →
        (e.scope = .house → s.houseLocked = true → exec i s = .next (s.answered (plainReply i tag .locked))) ∧
        (e.scope ≠ .house ∨ s.houseLocked = false →
          (breaksOk e.word.length bs = false → exec i s = .next (s.answered (plainReply i tag .range))) ∧
          (breaksOk e.word.length bs = true →
            let dict := s.dict.map fun x => if x.slot = e.slot then { x with breaks := bs } else x
            exec i s = .next (({ s with dict := dict } : State).answered
              (replyWith i tag .done (num2 e.slot ++ e.scope.bytes ++ num2 e.hits ++ breakBytes bs)))))) ∧
    (∀ name : WordName,
      let i := Instr.retireWord tag name
      i.shapeOk = true →
      (∀ st, nameEntry s name = .error st → exec i s = .next (s.answered (plainReply i tag st))) ∧
      ∀ e : DictEntry, nameEntry s name = .ok e →
        (e.scope = .house → s.houseLocked = true → exec i s = .next (s.answered (plainReply i tag .locked))) ∧
        (e.scope ≠ .house ∨ s.houseLocked = false →
          let dict := s.dict.filter fun x => x.slot ≠ e.slot
          exec i s = .next (({ s with dict := dict } : State).answered (replyWith i tag .done e.bytes)))) ∧
    (∀ (n : Nat) (w : List Byte) (o : ScopeArg), w.length < 256 →
      let i := Instr.queryWord tag (.byKey n w o)
      (∀ st, nameEntry s (.byKey n w o) = .error st → exec i s = .next (s.answered (plainReply i tag st))) ∧
      ∀ e, nameEntry s (.byKey n w o) = .ok e → exec i s = .next (s.answered (replyWith i tag .done e.bytes))) ∧
    (∀ (slot n : Nat) (w : List Byte) (t : LanguageTable) (l : List Nat),
      slot ≤ 3 → (s.job slot).composing = true → n ≤ 3 → wordOk w = true → s.language n = some t → fold t w = some l →
      let i := Instr.queryWord tag (.asSeenBy slot n w)
      (choose s.dict n l slot (s.job slot).id = none → exec i s = .next (s.answered (plainReply i tag .absent))) ∧
      ∀ e, choose s.dict n l slot (s.job slot).id = some e →
        exec i s = .next (s.answered (replyWith i tag .done (e.bytes ++ e.scope.bytes.take 1)))) ∧
    ∀ cls n slot id : Nat,
      let i := Instr.retireWords tag cls n slot id
      let retires := fun p : DictEntry → Bool =>
        let dict := s.dict.filter fun e => !p e
        exec i s = .next (({ s with dict := dict } : State).answered
          (replyWith i tag .done (num2 (s.dict.countP p) ++ num2 dict.length)))
      (cls = 0 → slot ≤ 3 → id ≠ 0 → retires fun e => decide (e.scope = .job slot id)) ∧
      (cls = 1 → n ≤ 3 → retires fun e => decide (e.scope = .desk ∧ e.language = n)) ∧
      (cls = 2 → retires fun e => decide (e.scope = .desk)) ∧
      (cls = 3 → n ≤ 3 → s.houseLocked = true → exec i s = .next (s.answered (plainReply i tag .locked))) ∧
      (cls = 3 → n ≤ 3 → s.houseLocked = false → retires fun e => decide (e.scope = .house ∧ e.language = n)) ∧
      (3 < cls ∨ (cls = 0 ∧ (3 < slot ∨ id = 0)) ∨ ((cls = 1 ∨ cls = 3) ∧ 3 < n) →
        exec i s = .next (s.answered (plainReply i tag .range)))

/-- R118: PRUNE WORDS retires every DESK entry of the language, or of every language, whose hit count is below the threshold, and halves
the counts of the DESK entries of those languages that remain; HOUSE and JOB entries are not touched and the house lock does not bear on
it. A threshold of 0 retires nothing; a count of 1 is kept by a threshold of 1, becomes 0, and goes at a second prune. -/
def Obligations.PruneWordsRetiresAndHalves : Prop :=
  ∀ (s : State) (tag : Byte) (n threshold : Nat), s.accepting →
    let i := Instr.pruneWords tag n threshold
    let judged := fun e : DictEntry => decide (e.scope = .desk ∧ (n = 255 ∨ e.language = n))
    let gone := fun e : DictEntry => judged e && decide (e.hits < threshold)
    (3 < n → n ≠ 255 → exec i s = .next (s.answered (plainReply i tag .range))) ∧
    (n ≤ 3 ∨ n = 255 →
      ∃ t : State, exec i s = .next (t.answered (replyWith i tag .done
          (num2 (s.dict.countP gone) ++ num2 ((s.dict.filter fun e => !gone e).countP judged)))) ∧
        { t with dict := s.dict } = s ∧
        t.dict = (s.dict.filter fun e => !gone e).map (fun e => if judged e then { e with hits := e.hits / 2 } else e) ∧
        (threshold = 0 → t.dict.length = s.dict.length) ∧
        (threshold = 1 → ∀ e ∈ s.dict, judged e = true → e.hits = 1 →
          { e with hits := 0 } ∈ t.dict ∧ gone { e with hits := 0 } = true))

/-- R110, R111: a consultation chooses the JOB entry of the very job, else the DESK entry, else the HOUSE entry of the language and word,
and no other; the hit count of the entry chosen rises by one up to 65535 and no other entry changes. -/
def Obligations.ConsultationChoosesByScope : Prop :=
  ∀ (d : List DictEntry) (n : Nat) (w : List Nat) (slot id : Nat),
    (∀ e : DictEntry, choose d n w slot id = some e →
      e ∈ d ∧ e.language = n ∧ e.word = w ∧ (e.scope = .job slot id ∨ e.scope = .desk ∨ e.scope = .house) ∧
      (e.scope ≠ .job slot id → ∀ x ∈ d, x.language = n → x.word = w → x.scope ≠ .job slot id) ∧
      (e.scope = .house → ∀ x ∈ d, x.language = n → x.word = w → x.scope ≠ .desk)) ∧
    (choose d n w slot id = none →
      ∀ x ∈ d, x.language = n → x.word = w → x.scope ≠ .job slot id ∧ x.scope ≠ .desk ∧ x.scope ≠ .house) ∧
    ∀ k m : Nat,
      entryAt (raiseHits k d) m =
        (entryAt d m).map fun e => if m = k then { e with hits := if e.hits < 65535 then e.hits + 1 else e.hits } else e

/-! ### The line queue -/

/-- R133, R141: SET QUEUE MARKS is refused RANGE outside its ranges; else the four marks are replaced and the high-water condition tested
at once: set by a count at or above its high mark, raising QUEUE HIGH from clear, cleared by both at or below their low marks. -/
def Obligations.SetQueueMarksTestsTheCounts : Prop :=
  ∀ (s : State) (tag : Byte) (eh el gh gl : Nat), s.accepting →
    let i := Instr.setQueueMarks tag eh el gh gl
    let rc := s.received
    let q : Queue := { s.queue with entryHigh := eh, entryLow := el, glyphHigh := gh, glyphLow := gl }
    let high := eh ≤ q.inUse ∨ gh ≤ q.glyphsInUse
    let low := q.inUse ≤ el ∧ q.glyphsInUse ≤ gl
    (¬(el < eh ∧ eh ≤ 64 ∧ gl < gh ∧ gh ≤ 6144) → exec i s = .next ((settle rc rc).answered (plainReply i tag .range))) ∧
    (el < eh → eh ≤ 64 → gl < gh → gh ≤ 6144 →
      (high → s.queue.highWater = false →
        exec i s = .next ((settle rc
          (({ rc with queue := { q with highWater := true } } : State).raise .queueHigh)).answered (plainReply i tag .done))) ∧
      (high → s.queue.highWater = true →
        exec i s = .next ((settle rc { rc with queue := q }).answered (plainReply i tag .done))) ∧
      (¬high → low →
        exec i s = .next ((settle rc { rc with queue := { q with highWater := false } }).answered (plainReply i tag .done))) ∧
      (¬high → ¬low → exec i s = .next ((settle rc { rc with queue := q }).answered (plainReply i tag .done))))

/-- R10, R24, R25, R40, R102, R127, R130, R131, R133, R136, R137, R138, R186, R187: an item is admitted exactly when the room of its
class is free; its append gives it the next serial and its first progress, makes its claims pins and its line references entry
references, moves the job's counters and tests the high mark. An exposure done sets the progress and the flag, removes the pins and
makes the spoil note; a proof done sets the progress of an entry IN PRINT, and changes nothing where the entry of that serial is not;
either releases the entry when R138 allows, with its references, counted in the gap count where its BEST EFFORT job had no proof of it.
Log entries 30 and 36: that a serial still carried by a present entry is passed over, and that no note is lost where none was to be
built, are the model's choice. -/
def Obligations.AdmissionAndAppend : Prop :=
  (∀ (s : State) (slot : Nat) (b : Body),
    let glyphs := fun more : Nat => b.kind = .line → s.queue.glyphsInUse + b.glyphCount + more ≤ 6144
    (s.admits slot b = true ↔
      if b.kind = .mark ∧ s.proofHead = some slot then s.queue.inUse + 1 ≤ 64
      else if s.exposureHead = some slot then s.queue.inUse + 2 ≤ 64 ∧ glyphs 0
      else s.queue.inUse + 3 ≤ 64 ∧ glyphs 240) ∧
    s.queue.inUse = s.queue.entries.length ∧
    s.queue.glyphsInUse = (s.queue.entries.map fun e => match e.body with | .line l => l.glyphs.length | _ => 0).sum) ∧
  (∀ q : Queue,
    (q.nextSerial < 65536 → (∀ e ∈ q.entries, e.serial ≠ q.nextSerial) → q.nextFree = q.nextSerial) ∧
    (q.entries.length ≤ 64 → q.nextFree < 65536 ∧ ∀ e ∈ q.entries, e.serial ≠ q.nextFree)) ∧
  (∀ (s : State) (slot : Nat) (b : Body), slot < s.jobs.length →
    let j := s.job slot
    let t := s.appendEntry slot b
    let flags := match b with | .line l => l.flags | _ => []
    let hyphened := LineFlag.hyphD ∈ flags ∨ .hyphX ∈ flags ∨ .hyphA ∈ flags
    let up := fun n : Nat => if n < 65535 then n + 1 else n
    let high := s.queue.entryHigh ≤ s.queue.inUse + 1 ∨ s.queue.glyphHigh ≤ s.queue.glyphsInUse + b.glyphCount
    t.queue = { s.queue with
      entries := s.queue.entries ++
        [{ serial := s.queue.nextFree, slot := slot, jobId := j.id, attributed := true
           expo := if b.kind = .mark then .done else .waiting
           proof := if b.kind = .line ∨ b.kind = .mark then .notTaken else .done
           required := decide (b.kind = .mark ∨ j.params.policy = .required)
           body := match b with | .line l => .line { l with lineNumber := j.lineNumber } | b => b }]
      nextSerial := (s.queue.nextFree + 1) % 65536
      highWater := s.queue.highWater || decide high } ∧
    t.link = (if high ∧ s.queue.highWater = false then (s.raise .queueHigh).link else s.link) ∧
    (b.kind = .line →
      t.job slot = { j with
        lineNumber := if 65535 ≤ j.lineNumber then 1 else j.lineNumber + 1
        linesSet := up j.linesSet
        hyphenated := if hyphened then up j.hyphenated else j.hyphenated
        looseLines := if .loose ∈ flags then up j.looseLines else j.looseLines
        consecutive := if hyphened then j.consecutive + 1
          else if .forced ∈ flags ∨ .overset ∈ flags then j.consecutive else 0 }) ∧
    (b.kind = .mark → t.job slot = { j with markPending := false }) ∧
    (b.kind = .move ∨ b.kind = .cut → t.job slot = j) ∧ (∀ n, n ≠ slot → t.job n = s.job n) ∧
    t.fonts = s.fonts.map (fun r =>
      if r.number ∈ b.runs.map Run.font then { r with linePart := r.linePart - 1, entryPart := r.entryPart + 1 } else r) ∧
    (∀ n, n < s.turret.stations.length →
      t.station n = if n ∈ b.runs.map Run.station then
        { s.station n with claims := (s.station n).claims - 1, pins := (s.station n).pins + 1 } else s.station n) ∧
    t.film = s.film ∧ t.expo = s.expo ∧ t.dict = s.dict ∧ t.proof = s.proof ∧ t.lamp = s.lamp ∧ t.engine = s.engine) ∧
  (∀ (s : State) (serial : Nat),
    (s.queue.find serial = none →
      s.releaseIfDone serial = s ∧ s.proofDone serial = s ∧ ∀ spoiled clamped, s.exposureDone serial spoiled clamped = s) ∧
    ∀ e : Entry, s.queue.find serial = some e →
      let mine := e.attributed = true ∧ (s.job e.slot).id = e.jobId
      let bestEffort := mine ∧ (s.job e.slot).params.policy = .bestEffort
      let free := e.attributed = false ∨ e.required = false
      let t := s.releaseIfDone serial
      let left := s.queue.entries.filter fun x => x.serial ≠ serial
      let low := left.length ≤ s.queue.entryLow ∧ (left.map fun x => x.body.glyphCount).sum ≤ s.queue.glyphLow
      (¬(e.expo = .done ∧ (free ∨ e.proof = .done)) → t = s) ∧
      (e.expo = .done → free ∨ e.proof = .done →
        t.queue = { s.queue with entries := left, highWater := s.queue.highWater && !decide low } ∧
        t.proof = { s.proof with
          gapCount := if bestEffort ∧ e.proof = .notTaken ∧ s.proof.gapCount < 65535 then s.proof.gapCount + 1
            else s.proof.gapCount } ∧
        t.fonts = s.fonts.map (fun r =>
          if r.number ∈ e.body.runs.map Run.font then { r with entryPart := r.entryPart - 1 } else r) ∧
        { t with queue := s.queue, proof := s.proof, fonts := s.fonts } = s) ∧
      (∀ spoiled clamped : Bool,
        let note := spoiled = true ∧ (e.proof ≠ .notTaken ∨ (bestEffort ∧ free))
        ∃ u : State, s.exposureDone serial spoiled clamped = u.releaseIfDone serial ∧
          u.queue = { s.queue with
            entries := s.queue.entries.map fun x => if x.serial = serial then
              { x with
                expo := .done
                body := match x.body with
                  | .line l => .line { l with flags := if spoiled = true then l.flags ++ [.spoiled] else l.flags }
                  | .move d c => .move d (if spoiled = true then c else clamped)
                  | b => b }
              else x } ∧
          (∀ n, n < s.turret.stations.length →
            u.station n = if n ∈ e.body.runs.map Run.station then { s.station n with pins := (s.station n).pins - 1 }
              else s.station n) ∧
          (∀ l, e.body = .line l → note → u.proof = s.proof.spoilNote l.lineNumber e.jobId) ∧
          (¬note ∨ e.body.kind ≠ .line → u.proof = s.proof) ∧
          u.fonts = s.fonts ∧ u.jobs = s.jobs ∧ u.expo = s.expo ∧ u.film = s.film) ∧
      (e.proof ≠ .inPrint → s.proofDone serial = s) ∧
      (e.proof = .inPrint → s.proofDone serial =
        (({ s with queue := { s.queue with
          entries := s.queue.entries.map fun x => if x.serial = serial then { x with proof := .done } else x } } : State).releaseIfDone
            serial))) ∧
  ∀ (p : Proof) (n id : Nat),
    (p.state ≠ .disabled → p.disablePending = false → p.list.countP PrintLine.isSpoil < 8 →
      p.spoilNote n id = { p with
        state := .printing
        list := p.list ++ [{
          kind := .spoil n id
          bytes := noteLine true (ascii "LINE " ++ decimal n ++ ascii ", JOB " ++ decimal id ++ ascii " SPOILED") }] }) ∧
    (p.state = .disabled ∨ p.disablePending = true ∨ 8 ≤ p.list.countP PrintLine.isSpoil →
      p.spoilNote n id = { p with notesLost := if p.notesLost < 65535 then p.notesLost + 1 else p.notesLost })

/-! ### Exposure and the lamp -/

/-- R149, R150: at CARRIAGE ARRIVAL the carriage rests at the glyph's position and the lamp is flashed for the duration of the
base, the density step, the lamp step and the clamp, each rounded as the table says; the lamp index is never 0 while the lamp is
READY. Log entries 6 and 16: that an arrival with no movement changes nothing, and that a CARRIAGE ARRIVAL comes for every glyph, are
the model's choice. -/
def Obligations.CarriageArrivalFlashesForTheDuration : Prop :=
  (∀ (s : State) (x : Nat) (fl : Flight) (r : Run) (f : FontRecord),
    s.expo.state = .flashing → s.expo.carriageTarget = some x → s.expo.flight = some fl → s.flightRun fl = some r →
    s.font r.font = some f →
    let base : Int := 24 + (r.size * 3 / 16 : Nat)
    let density : Int := (base * (128 + 2 * f.gain) + 64) / 128
    let raw : Int := (density * 2048 + (s.lamp.index / 2 : Nat)) / s.lamp.index + f.offset
    exec .carriageArrival s = .next { s with expo := { s.expo with
      carriage := x, carriageTarget := none, flashing := true, lastDuration := some (min 320 (max 10 raw)).toNat
      lastClamped := decide (raw < 10 ∨ 320 < raw) } }) ∧
  (∀ s : State, s.expo.state ≠ .flashing ∨ s.expo.carriageTarget = none → exec .carriageArrival s = .next s) ∧
  (∀ s : State, LampOk s → s.lamp.state = .ready → 0 < s.lamp.index) ∧
  flashBase 50 = 33 ∧ flashBase 720 = 159 ∧
  ∀ (size : Nat) (g o : Int) (l : Nat), 10 ≤ flashDuration size g o l ∧ flashDuration size g o l ≤ 320

/-- R26, R148, R149, R151, R152, R157, R203: at FLASH COMPLETE with a sample that leaves the lamp READY, valid or not, the next
glyph of the run, the next run, or the line done, which restarts the LINE EXPOSED delay; with a sample that faults the lamp, a third
invalid one or one that takes L below the fail limit, the line is abandoned, its entry spoiled and done and the controller STOPPED
for LAMP. At LENS ARRIVAL the lens stands at its target. A run's size is asked of a lens that stands at another; its station is
selected, granted, rotated to or waited for; with both at rest flashing begins. Log entries 6, 15, 16 and 25: that an event with no
flash or lens moving changes nothing, that the sample is taken before the glyph advances, the carriage's return within the event,
and that a run's size is asked after the arrival of a lens move still under way, are the model's choice. -/
def Obligations.FlashCompleteGoesOnOrEndsTheLine : Prop :=
  (∀ (s : State) (sample : Nat),
    (s.expo.flashing = false → exec (.flashComplete sample) s = .next (settle s s)) ∧
    (∀ (fl : Flight) (b : LineBody) (r : Run),
      s.expo.flashing = true → s.expo.state = .flashing → s.expo.flight = some fl → s.flightLine fl = some b →
      b.runs[fl.run]? = some r → s.lamp.state = .ready →
      let valid := 1 ≤ sample ∧ sample ≤ 4094
      let folded := (7 * s.lamp.index + sample + 4) / 8
      (valid ∧ s.lamp.failLimit ≤ folded) ∨ (¬valid ∧ s.lamp.invalid < 2) →
      ∃ t : State,
        exec (.flashComplete sample) s = .next (settle s t) ∧ t.lamp.state = .ready ∧
        (valid → t.lamp.index = folded ∧ t.lamp.invalid = 0) ∧
        (¬valid → t.lamp = { s.lamp with invalid := s.lamp.invalid + 1 }) ∧
        t.film = s.film ∧ t.jobs = s.jobs ∧
        (fl.glyph + 1 < r.count →
          t.queue = s.queue ∧ t.turret = s.turret ∧
          t.expo = { s.expo with
            flashing := false, flight := some { fl with glyph := fl.glyph + 1 }
            carriageTarget := some (s.flightX { fl with glyph := fl.glyph + 1 }) }) ∧
        (∀ r' : Run, ¬fl.glyph + 1 < r.count → b.runs[fl.run + 1]? = some r' →
          t.queue = s.queue ∧ t.turret = s.turret ∧
          t.expo = { s.expo with
            flashing := false, state := .selecting
            flight := some { fl with
              run := fl.run + 1, glyph := 0
              selecting := !decide (s.turret.motion = .atRest ∧ s.turret.position = r'.station) }
            lensTarget := if s.expo.lensTarget ≠ none then s.expo.lensTarget
              else if s.expo.lens = some r'.size then none else some r'.size }) ∧
        (¬fl.glyph + 1 < r.count → b.runs[fl.run + 1]? = none →
          (∀ e ∈ t.queue.entries, e.serial = fl.serial → e.expo = .done) ∧
          t.link.delayTimer = (s.lineExposedDelay).link.delayTimer ∧ t.link.absTimer = (s.lineExposedDelay).link.absTimer ∧
          (s.link.delayMs = 0 ∨ s.link.limitMs = 0 → t.link.holds .lineExposed = true) ∧
          (s.expo.holdRequest = true → t.link.holds .held = true) ∧
          t.expo = { s.expo with
            flashing := false, flight := none, holdRequest := false
            state := if s.expo.holdRequest then .held else .idle, carriage := 0, carriageTarget := none
            lastExposed := some fl.serial
            linesExposed := if s.expo.linesExposed < 65535 then s.expo.linesExposed + 1 else s.expo.linesExposed } ∧
          t.turret.lineOpen = (match s.turret.motion with | .rotating .exposure _ => s.turret.lineOpen | _ => false))) ∧
    (∀ fl : Flight,
      s.expo.flashing = true → s.expo.state = .flashing → s.expo.flight = some fl → s.lamp.state = .ready →
      let valid := 1 ≤ sample ∧ sample ≤ 4094
      let folded := (7 * s.lamp.index + sample + 4) / 8
      (valid ∧ folded < s.lamp.failLimit) ∨ (¬valid ∧ 2 ≤ s.lamp.invalid) →
      ∃ t : State,
        exec (.flashComplete sample) s = .next (settle s t) ∧
        (valid → t.lamp.state = .fault .output ∧ t.lamp.index = folded ∧ t.lamp.invalid = 0) ∧
        (¬valid → t.lamp.state = .fault .sensor ∧ t.lamp.index = s.lamp.index ∧ t.lamp.invalid = 3) ∧
        t.expo = { s.expo with
          flashing := false, flight := none, holdRequest := false, state := .stopped
          stops := { cover := fl.coverSeen, lamp := true, filmOut := false, jam := false }
          carriage := 0, carriageTarget := none
          linesSpoiled := if s.expo.linesSpoiled < 65535 then s.expo.linesSpoiled + 1 else s.expo.linesSpoiled } ∧
        (∀ e ∈ t.queue.entries, e.serial = fl.serial →
          e.expo = .done ∧ ∀ b, e.body = .line b → LineFlag.spoiled ∈ b.flags) ∧
        t.link.holds .lampFault = true ∧ t.link.holds .lineSpoiled = true ∧
        t.link.delayTimer = s.link.delayTimer ∧ t.link.absTimer = s.link.absTimer ∧
        t.turret.lineOpen = (match s.turret.motion with | .rotating .exposure _ => s.turret.lineOpen | _ => false) ∧
        t.film = s.film ∧ t.jobs = s.jobs) ∧
    (s.expo.lensTarget = none → exec .lensArrival s = .next (settle s s)) ∧
    ∀ z : Nat, s.expo.lensTarget = some z →
      exec .lensArrival s = .next (settle s { s with expo := { s.expo with lens := some z, lensTarget := none } })) ∧
  (∀ (s : State) (fl : Flight) (r : Run),
    s.expo.state = .selecting ∨ s.expo.state = .waitingTurret → s.expo.flight = some fl → s.flightRun fl = some r →
    let locked := ∃ st ∈ s.turret.stations, st.state = .opened ∨ st.state = .verifying
    let size := if s.expo.lensTarget ≠ none then s.expo.lensTarget else if s.expo.lens = some r.size then none else some r.size
    (s.expo.lensTarget ≠ size → s.reactRun = some { s with expo := { s.expo with lensTarget := size } }) ∧
    (s.expo.lensTarget = size → fl.selecting = true →
      (s.turret.motion ≠ .atRest → s.reactRun = none) ∧
      (s.turret.motion = .atRest → s.turret.position = r.station →
        s.reactRun = some { s with expo := { s.expo with state := .selecting, flight := some { fl with selecting := false } } }) ∧
      (s.turret.motion = .atRest → s.turret.position ≠ r.station → ¬locked →
        s.reactRun = some { s with
          turret := s.turret.rotate .exposure r.station, expo := { s.expo with state := .selecting } }) ∧
      (s.turret.motion = .atRest → s.turret.position ≠ r.station → locked →
        s.reactRun = if s.expo.state = .waitingTurret then none
          else some { s with expo := { s.expo with state := .waitingTurret } })) ∧
    (s.expo.lensTarget = size → fl.selecting = false →
      s.reactRun = if s.expo.lensTarget = none ∧ s.turret.motion = .atRest then
          some { s with expo := { s.expo with state := .flashing, carriageTarget := some (s.flightX fl) } }
        else none)) ∧
  ∀ (s : State) (fl : Flight) (b : LineBody), s.flightLine fl = some b →
    s.flightX fl = ((b.glyphs[((b.runs.take fl.run).map Run.count).sum + fl.glyph]?).map Prod.snd).getD 0

/-- R135, R144 to R147, R153, R165 to R168, R170 to R172, R175: DISPATCH. Without a WAITING entry named, or out of IDLE and WAITING LAMP, or
with the transport at work, or with a LINE before the lamp is READY, it is no occasion. A LINE or a forward MOVE whose target would
pass the cut reserve stops the controller for FILM OUT; else it is put in flight with its lead. A reverse MOVE is clamped; a CUT feeds
to its target. A move that needs no motion is verified at once, and one begun with the film ABSENT jams. Log entries 17 and 18: that the
dispatch is a step of its own, and that it takes back a line end still due at the turret, are the model's choice. -/
def Obligations.DispatchPutsTheNamedEntryInFlight : Prop :=
  ∀ s : State,
    (s.expo.named.bind s.queue.find = none → exec .dispatch s = .next (settle s s)) ∧
    ∀ e : Entry, s.expo.named.bind s.queue.find = some e →
      ((s.expo.state ≠ .idle ∧ s.expo.state ≠ .waitingLamp) ∨ s.film.state ≠ .atRest ∨ e.expo ≠ .waiting ∨
          (e.body.kind = .line ∧ s.lamp.state ≠ .ready) →
        exec .dispatch s = .next (settle s s)) ∧
      (s.expo.state = .idle ∨ s.expo.state = .waitingLamp → s.film.state = .atRest → e.expo = .waiting →
        let due := e.attributed = true ∧ s.film.owner ≠ .none ∧ s.film.owner ≠ .job e.slot e.jobId
        let gap := if due then some s.galleyGap else none
        let target := fun distance : Nat =>
          if due then s.film.highMark + s.galleyGap + distance else s.film.baseline + distance
        let filmOut := (({ s with expo := { s.expo with
          state := .stopped
          stops := { cover := false, lamp := false, filmOut := true, jam := false } } } : State).raise .filmOut)
        let flight : Flight :=
          { serial := e.serial, kind := e.body.kind, attributed := e.attributed, run := 0, glyph := 0, leadDone := false
            selecting := false, coverSeen := false, lampSeen := false }
        let queue : Queue := { s.queue with
          entries := s.queue.entries.map fun x => if x.serial = e.serial then { x with expo := .inFlight } else x }
        (∀ b : LineBody, e.body = .line b → s.lamp.state = .ready →
          let u : State := { s with
            queue := queue, turret := { s.turret with lineOpen := true, lineEndDue := false }
            expo := { s.expo with state := .leading, flight := some flight }
            film := { s.film with mover := .lead gap, target := some (target b.depth), trims := 0 } }
          (s.film.loaded < target b.depth + 900 → exec .dispatch s = .next (settle s filmOut)) ∧
          (target b.depth + 900 ≤ s.film.loaded → s.film.present = true → target b.depth ≠ s.film.baseline →
            exec .dispatch s = .next (settle s { u with film := { u.film with state := .moving } })) ∧
          (target b.depth + 900 ≤ s.film.loaded → s.film.present = true → target b.depth = s.film.baseline →
            exec .dispatch s = .next (settle s u.moveVerified)) ∧
          (target b.depth + 900 ≤ s.film.loaded → s.film.present = false →
            ∃ t : State, exec .dispatch s = .next (settle s t) ∧
              t.film.state = .jammed ∧ t.expo.state = .stopped ∧ t.expo.stops.jam = true ∧ t.expo.flight = none ∧
              t.link.holds .filmJam = true ∧ ∀ x ∈ t.queue.entries, x.serial = e.serial → x.expo = .waiting)) ∧
        (∀ (d : Nat) (c : Bool), e.body = .move d c →
          let u : State := { s with
            queue := queue, expo := { s.expo with state := .filmOperation, flight := some flight }
            film := { s.film with mover := .forward gap, target := some (target d), trims := 0 } }
          (0 < d → s.film.loaded < target d + 900 → exec .dispatch s = .next (settle s filmOut)) ∧
          (0 < d → target d + 900 ≤ s.film.loaded → s.film.present = true → target d ≠ s.film.baseline →
            exec .dispatch s = .next (settle s { u with film := { u.film with state := .moving } })) ∧
          (0 < d → target d + 900 ≤ s.film.loaded → s.film.present = true → target d = s.film.baseline →
            exec .dispatch s = .next (settle s u.moveVerified)) ∧
          (0 < d → target d + 900 ≤ s.film.loaded → s.film.present = false →
            ∃ t : State, exec .dispatch s = .next (settle s t) ∧
              t.film.state = .jammed ∧ t.film.owner = s.film.owner ∧ t.film.origin = s.film.origin ∧
              t.expo.state = .stopped ∧ t.expo.stops = { cover := false, lamp := false, filmOut := false, jam := true } ∧
              t.expo.flight = none ∧ t.link.holds .filmJam = true ∧
              ∀ x ∈ t.queue.entries, x.serial = e.serial → x.expo = .done ∧ ∀ d' c', x.body = .move d' c' → c' = false)) ∧
        (∀ (d : Int) (c : Bool), e.body = .move d c → d < 0 →
          let made := min d.natAbs (min (18000 + s.film.baseline - s.film.highMark) (s.film.baseline - s.film.origin))
          let u : State := { s with
            queue := queue, expo := { s.expo with state := .filmOperation, flight := some flight }
            film := { s.film with
              mover := .reverse (decide (made < d.natAbs)), target := some (s.film.baseline - made), trims := 0 } }
          s.film.present = true →
            (0 < made → exec .dispatch s = .next (settle s { u with film := { u.film with state := .moving } })) ∧
            (made = 0 → exec .dispatch s = .next (settle s u.moveVerified))) ∧
        (e.body = .cut → s.film.present = true →
          let feed := min (s.film.highMark + 900) s.film.loaded
          let u : State := { s with
            queue := queue, expo := { s.expo with state := .filmOperation, flight := some flight }
            film := { s.film with mover := .cutEntry, target := some feed, trims := 0 } }
          (feed ≠ s.film.baseline → exec .dispatch s = .next (settle s { u with film := { u.film with state := .feeding } })) ∧
          (feed = s.film.baseline → exec .dispatch s = .next (settle s u.moveVerified))) ∧
        (e.body.kind = .move ∨ e.body.kind = .cut → s.film.present = false → e.body.testDistance = none →
          ∃ t : State, exec .dispatch s = .next (settle s t) ∧
            t.film.state = .jammed ∧ t.expo.state = .stopped ∧ t.expo.stops.jam = true ∧ t.expo.flight = none ∧
            t.link.holds .filmJam = true ∧ ∀ x ∈ t.queue.entries, x.serial = e.serial → x.expo = .done))

/-- R147, R152, R154, R155, R156, R176: HOLD EXPOSURE and RELEASE EXPOSURE in each group of states, a release barred by a lamp OFF,
IGNITING or FAULT; COVER OPENED raises its notice and stops the controller, is recorded against a lead or film operation, or spoils
the line being exposed; COVER CLOSED takes COVER from the stop-reason set. Log entry 16: the carriage's return within the event is
the model's choice; log entry 37: so is the fault reason in the lamp state of the refused RELEASE EXPOSURE. -/
def Obligations.HoldReleaseAndCover : Prop :=
  ∀ (s : State) (tag : Byte),
    let rc := s.received
    (s.accepting →
      let i := Instr.holdExposure tag
      (s.expo.state = .idle ∨ s.expo.state = .waitingLamp →
        exec i s = .next ((settle rc (({ rc with expo := { s.expo with state := .held } } : State).raise .held)).answered
          (plainReply i tag .done))) ∧
      (s.expo.state = .held → exec i s = .next ((settle rc rc).answered (plainReply i tag .done))) ∧
      (s.expo.state = .stopped → exec i s = .next ((settle rc rc).answered (plainReply i tag .state))) ∧
      (s.expo.state.inFlight = true →
        exec i s = .next ((settle rc { rc with expo := { s.expo with holdRequest := true } }).answered
          (plainReply i tag .started)))) ∧
    (s.accepting →
      let i := Instr.releaseExposure tag
      let barred := s.expo.stops ≠ Stops.none ∨ s.film.coverOpen = true ∨ s.film.state = .jammed ∨
        s.lamp.state.barsRelease = true
      (s.expo.state = .held ∨ s.expo.state = .stopped →
        (barred → exec i s = .next ((settle rc rc).answered
          (replyWith i tag .state (s.expo.stops.bytes ++ s.lamp.state.bytes)))) ∧
        (¬barred → exec i s = .next ((settle rc { rc with expo := { s.expo with state := .idle } }).answered
          (plainReply i tag .done)))) ∧
      (s.expo.state = .idle ∨ s.expo.state = .waitingLamp →
        exec i s = .next ((settle rc rc).answered (plainReply i tag .done))) ∧
      (s.expo.state.inFlight = true →
        exec i s = .next ((settle rc { rc with expo := { s.expo with holdRequest := false } }).answered
          (plainReply i tag .done)))) ∧
    (∀ l : LampState, l.barsRelease = true ↔ l = .off ∨ l = .igniting ∨ ∃ r, l = .fault r) ∧
    (let u : State := ({ s with film := { s.film with coverOpen := true } } : State).raise .coverOpen
     (s.expo.state = .held → exec .coverOpened s = .next (settle s u)) ∧
     (s.expo.state = .idle ∨ s.expo.state = .waitingLamp →
       exec .coverOpened s = .next (settle s { u with expo := { s.expo with
         state := .stopped, stops := { cover := true, lamp := false, filmOut := false, jam := false } } })) ∧
     (s.expo.state = .stopped →
       exec .coverOpened s = .next (settle s { u with expo := { s.expo with
         stops := { s.expo.stops with cover := true } } })) ∧
     (∀ fl : Flight, s.expo.flight = some fl →
       (s.expo.state = .leading ∨ s.expo.state = .filmOperation →
         exec .coverOpened s = .next (settle s { u with expo := { s.expo with
           flight := some { fl with coverSeen := true } } })) ∧
       (s.expo.state = .selecting ∨ s.expo.state = .waitingTurret ∨ s.expo.state = .flashing →
         ∃ t : State, exec .coverOpened s = .next (settle s t) ∧
           t.expo.state = .stopped ∧ t.expo.flight = none ∧ t.expo.holdRequest = false ∧ t.expo.stops.cover = true ∧
           t.expo.carriage = 0 ∧ t.expo.lensTarget = s.expo.lensTarget ∧ t.expo.lens = s.expo.lens ∧
           t.turret.motion = s.turret.motion ∧ t.expo.linesExposed = s.expo.linesExposed ∧
           t.expo.linesSpoiled = (if s.expo.linesSpoiled < 65535 then s.expo.linesSpoiled + 1 else s.expo.linesSpoiled) ∧
           t.link.holds .lineSpoiled = true ∧ t.link.holds .coverOpen = true ∧ t.film = u.film ∧
           ∀ e ∈ t.queue.entries, e.serial = fl.serial →
             e.expo = .done ∧ ∀ b, e.body = .line b → LineFlag.spoiled ∈ b.flags))) ∧
    exec .coverClosed s = .next { s with
      film := { s.film with coverOpen := false }
      expo := { s.expo with stops := { s.expo.stops with cover := false } } }

/-- R158, R159, R161: LAMP ON, LAMP OFF and SET LAMP. A lamp in FAULT is not switched on, one with a line in flight not switched off; new
limits are recorded in one event and judge the lamp index at once in READY and RECOVERING. -/
def Obligations.LampRequests : Prop :=
  ∀ (s : State) (tag : Byte), s.accepting →
    let rc := s.received
    (let i := Instr.lampOn tag
     (s.lamp.state = .off →
       exec i s = .next (({ s with lamp := { s.lamp with
         state := .igniting, invalid := 0, ignitionTimer := true } } : State).answered (plainReply i tag .started))) ∧
     (∀ r, s.lamp.state = .fault r → exec i s = .next (s.answered (plainReply i tag .state))) ∧
     (s.lamp.state = .igniting ∨ s.lamp.state = .ready ∨ s.lamp.state = .economy ∨ s.lamp.state = .recovering →
       exec i s = .next (s.answered (plainReply i tag .done)))) ∧
    (let i := Instr.lampOff tag
     (∀ fl : Flight, s.expo.flight = some fl → fl.kind = .line →
       exec i s = .next ((settle rc rc).answered (plainReply i tag .busy))) ∧
     ((∀ fl : Flight, s.expo.flight = some fl → fl.kind ≠ .line) →
       (s.lamp.state = .off → exec i s = .next ((settle rc rc).answered (plainReply i tag .done))) ∧
       (s.lamp.state ≠ .off →
         exec i s = .next ((settle rc { rc with lamp := { s.lamp with
           state := .off, invalid := 0, weak := false, ignitionTimer := false, economyTimer := none
           recoveryTimer := false, validityTimer := false } }).answered (plainReply i tag .done))))) ∧
    ∀ w f timeout : Nat,
      let i := Instr.setLamp tag w f timeout
      (¬(2 ≤ w ∧ w ≤ 4031 ∧ 1 ≤ f ∧ f ≤ w - 1 ∧ timeout ≤ 255) →
        exec i s = .next ((settle rc rc).answered (plainReply i tag .range))) ∧
      (2 ≤ w → w ≤ 4031 → 1 ≤ f → f ≤ w - 1 → timeout ≤ 255 →
        let lamp : Lamp := { s.lamp with
          weakLimit := w, failLimit := f, economyTimeout := timeout
          economyTimer := if s.lamp.economyTimer.isSome ∧ 0 < timeout then some timeout else none }
        let weak := if s.lamp.index < w then true else if w + 64 ≤ s.lamp.index then false else s.lamp.weak
        (s.lamp.state ≠ .ready → s.lamp.state ≠ .recovering →
          exec i s = .next ((settle rc { rc with lamp := lamp }).answered (plainReply i tag .done))) ∧
        (s.lamp.state = .ready ∨ s.lamp.state = .recovering → f ≤ s.lamp.index →
          let u : State := { rc with lamp := { lamp with weak := weak } }
          exec i s = .next ((settle rc (if weak = true ∧ s.lamp.weak = false then u.raise .lampWeak else u)).answered
            (plainReply i tag .done))) ∧
        (s.lamp.state = .ready ∨ s.lamp.state = .recovering → s.lamp.index < f →
          ∃ t : State, exec i s = .next ((settle rc t).answered (plainReply i tag .done)) ∧
            t.lamp.state = .fault .output ∧ t.lamp.economyTimer = none ∧ t.lamp.validityTimer = false ∧
            t.lamp.recoveryTimer = false ∧ t.lamp.economyTimeout = timeout ∧ t.lamp.failLimit = f ∧ t.lamp.weakLimit = w ∧ t.link.holds .lampFault = true))

/-- R154, R157, R158, R159, R160: the photocell and the four timers of the lamp, in every lamp state. A valid sample folds into the index,
but in ECONOMY, and is judged in READY and RECOVERING, where an index below the fail limit is an OUTPUT fault; a third invalid one is a
SENSOR fault; in FAULT neither makes a transition. Ignition ends READY or in an OUTPUT fault; economy and recovery end in their states;
the validity timer ends in a SENSOR fault. The economy timer starts as nothing waits to be exposed and stops as something does, which ends
ECONOMY in RECOVERING. Log entries 6, 23 and 34: that a sample in OFF and an expiry of a stopped timer change nothing, that a valid sample
in FAULT leaves the count of invalid ones, and that the economy timer starts whatever made nothing wait, are the model's choice. -/
def Obligations.PhotocellAndLampTimers : Prop :=
  ∀ s : State,
    (∀ sample : Nat, s.lamp.state = .off → exec (.photocellSample sample) s = .next (settle s s)) ∧
    (∀ sample : Nat, s.lamp.state = .ready ∨ s.lamp.state = .recovering → 1 ≤ sample → sample ≤ 4094 →
      s.lamp.failLimit ≤ (7 * s.lamp.index + sample + 4) / 8 →
      let index := (7 * s.lamp.index + sample + 4) / 8
      let weak := if index < s.lamp.weakLimit then true else if s.lamp.weakLimit + 64 ≤ index then false else s.lamp.weak
      let u : State := { s with lamp := { s.lamp with index := index, invalid := 0, weak := weak } }
      exec (.photocellSample sample) s =
        .next (settle s (if weak = true ∧ s.lamp.weak = false then u.raise .lampWeak else u))) ∧
    (∀ sample : Nat, s.lamp.state = .ready ∨ s.lamp.state = .recovering → 1 ≤ sample → sample ≤ 4094 →
      let index := (7 * s.lamp.index + sample + 4) / 8
      index < s.lamp.failLimit →
        ∃ t : State, exec (.photocellSample sample) s = .next (settle s t) ∧
          t.lamp = { s.lamp with
            state := .fault .output, index := index, invalid := 0
            weak := if index < s.lamp.weakLimit then true else if s.lamp.weakLimit + 64 ≤ index then false else s.lamp.weak
            ignitionTimer := false, economyTimer := none, recoveryTimer := false, validityTimer := false } ∧
          t.link.holds .lampFault = true ∧ (s.expo.state = .idle ∨ s.expo.state = .waitingLamp →
            t.expo = { s.expo with state := .stopped, stops := { cover := false, lamp := true, filmOut := false, jam := false } }) ∧
          (s.expo.state = .held → t.expo = s.expo)) ∧
    (∀ sample : Nat, 1 ≤ sample → sample ≤ 4094 →
      let index := (7 * s.lamp.index + sample + 4) / 8
      (s.lamp.state = .igniting →
        exec (.photocellSample sample) s = .next (settle s { s with lamp := { s.lamp with index := index, invalid := 0 } })) ∧
      (s.lamp.state = .economy →
        exec (.photocellSample sample) s = .next (settle s { s with lamp := { s.lamp with invalid := 0 } })) ∧
      (∀ r, s.lamp.state = .fault r →
        exec (.photocellSample sample) s = .next (settle s { s with lamp := { s.lamp with index := index } }))) ∧
    (∀ (sample : Nat) (r : LampFault), s.lamp.state = .fault r → sample = 0 ∨ 4094 < sample →
      exec (.photocellSample sample) s =
        .next (settle s { s with lamp := { s.lamp with invalid := min 3 (s.lamp.invalid + 1) } })) ∧
    (∀ sample : Nat,
      s.lamp.state = .ready ∨ s.lamp.state = .recovering ∨ s.lamp.state = .igniting ∨ s.lamp.state = .economy →
      sample = 0 ∨ 4094 < sample →
      (s.lamp.invalid < 2 →
        exec (.photocellSample sample) s =
          .next (settle s { s with lamp := { s.lamp with invalid := s.lamp.invalid + 1 } })) ∧
      (2 ≤ s.lamp.invalid →
        ∃ t : State, exec (.photocellSample sample) s = .next (settle s t) ∧
          t.lamp.state = .fault .sensor ∧ t.lamp.invalid = 3 ∧ t.lamp.index = s.lamp.index ∧
          t.lamp.economyTimer = none ∧ t.lamp.validityTimer = false ∧ t.lamp.ignitionTimer = false ∧
          t.lamp.recoveryTimer = false ∧ t.link.holds .lampFault = true)) ∧
    (s.lamp.ignitionTimer = true → s.lamp.state = .igniting →
      (s.lamp.failLimit < s.lamp.weakLimit → s.lamp.weakLimit ≤ s.lamp.index →
        ∃ t : State, exec .ignitionTimerExpiry s = .next (settle s t) ∧
          t.lamp.state = .ready ∧ t.lamp.ignitionTimer = false ∧ t.lamp.validityTimer = true ∧
          t.lamp.index = s.lamp.index ∧ t.expo.stops.lamp = false ∧ t.link.holds .lampReady = true) ∧
      (s.lamp.index < s.lamp.weakLimit →
        ∃ t : State, exec .ignitionTimerExpiry s = .next (settle s t) ∧
          t.lamp.state = .fault .output ∧ t.lamp.ignitionTimer = false ∧ t.link.holds .lampFault = true)) ∧
    (s.lamp.economyTimer.isSome = true → s.lamp.state = .ready →
      exec .economyTimerExpiry s =
        .next (settle s { s with lamp := { s.lamp with state := .economy, economyTimer := none } })) ∧
    (s.lamp.recoveryTimer = true → s.lamp.state = .recovering → s.lamp.failLimit ≤ s.lamp.index →
      ∃ t : State, exec .recoveryTimerExpiry s = .next (settle s t) ∧
        t.lamp.state = .ready ∧ t.lamp.recoveryTimer = false ∧ t.lamp.index = s.lamp.index ∧ t.expo.stops.lamp = false) ∧
    (s.lamp.validityTimer = true → s.lamp.state = .ready ∨ s.lamp.state = .economy ∨ s.lamp.state = .recovering →
      ∃ t : State, exec .validityTimerExpiry s = .next (settle s t) ∧
        t.lamp.state = .fault .sensor ∧ t.lamp.validityTimer = false ∧ t.link.holds .lampFault = true) ∧
    (s.waits = true ↔
      s.expo.flight ≠ none ∨ (s.expo.named ≠ none ∧ s.expo.state ≠ .held ∧ s.expo.state ≠ .stopped)) ∧
    (∀ before : State,
      (s.lamp.state = .ready →
        before.judgeEconomy s = { s with lamp := { s.lamp with
          economyTimer := if s.waits = true then none
            else if before.waits = true ∨ before.lamp.state ≠ .ready then
              if 0 < s.lamp.economyTimeout then some s.lamp.economyTimeout else none
            else s.lamp.economyTimer } }) ∧
      (s.lamp.state = .economy → s.waits = false → before.judgeEconomy s = s) ∧
      (s.lamp.state = .economy → s.waits = true → s.lamp.failLimit ≤ s.lamp.index →
        (before.judgeEconomy s).lamp = { s.lamp with
          state := .recovering, recoveryTimer := true
          weak := if s.lamp.index < s.lamp.weakLimit then true
            else if s.lamp.weakLimit + 64 ≤ s.lamp.index then false else s.lamp.weak } ∧
        (before.judgeEconomy s).expo = s.expo) ∧
      (s.lamp.state = .economy → s.waits = true → s.lamp.index < s.lamp.failLimit →
        (before.judgeEconomy s).lamp.state = .fault .output) ∧
      (s.lamp.state ≠ .ready → s.lamp.state ≠ .economy → before.judgeEconomy s = s)) ∧
    (s.lamp.ignitionTimer = false → exec .ignitionTimerExpiry s = .next (settle s s)) ∧
    (s.lamp.economyTimer = none → exec .economyTimerExpiry s = .next (settle s s)) ∧
    (s.lamp.recoveryTimer = false → exec .recoveryTimerExpiry s = .next (settle s s)) ∧
    (s.lamp.validityTimer = false → exec .validityTimerExpiry s = .next (settle s s))

/-! ### Film transport -/

/-- R154, R165, R166, R172, R173, R174, R175: LOAD FILM and FEED AND CUT, with the checks in their order. A loading puts every position
at 0, makes the owner NONE and the transport AT REST, judges the low-film condition and clears FILM OUT and JAM. A feed runs to its
target; one that needs no motion is verified at once and makes its stroke, and one begun with the film ABSENT jams at once, which stops
a controller that is not HELD. Log entries 32, 35 and 40: that a low-film condition that stood set raises no FILM LOW, that a loading
keeps the position of the last cut, that a feed leaves JAMMED as it begins, and that the condition is judged at its verified end, are
the model's choice. -/
def Obligations.LoadFilmAndFeedAndCut : Prop :=
  ∀ (s : State) (tag : Byte), s.accepting →
    let rc := s.received
    (∀ n : Nat,
      let i := Instr.loadFilm tag n
      (2160000 < n → exec i s = .next ((settle rc rc).answered (plainReply i tag .range))) ∧
      (n ≤ 2160000 → s.expo.flight.isSome = true ∨ s.film.working = true ∨ (0 < n ∧ s.film.present = false) →
        exec i s = .next ((settle rc rc).answered (plainReply i tag .state))) ∧
      (n ≤ 2160000 → s.expo.flight = none → s.film.working = false → n = 0 ∨ s.film.present = true →
        let low := decide (0 < n ∧ n < s.film.lowThreshold)
        let u : State := { rc with
          film := { s.film with
            loaded := n, baseline := 0, highMark := 0, origin := 0, owner := .none, state := .atRest, mover := .none
            measured := 0, target := none, trims := 0, lowCondition := low }
          expo := { s.expo with stops := { s.expo.stops with filmOut := false, jam := false } } }
        exec i s = .next ((settle rc (if low = true ∧ s.film.lowCondition = false then u.raise .filmLow else u)).answered
          (plainReply i tag .done)))) ∧
    (let i := Instr.feedAndCut tag
     let idle := (s.expo.state = .idle ∨ s.expo.state = .held ∨ s.expo.state = .stopped) ∧ s.expo.flight = none
     let target := min (s.film.highMark + 900) s.film.loaded
     (¬idle ∨ s.film.loaded = 0 ∨ s.film.coverOpen = true →
       exec i s = .next ((settle rc rc).answered (plainReply i tag .state))) ∧
     (idle → s.film.loaded ≠ 0 → s.film.coverOpen = false → s.film.working = true →
       exec i s = .next ((settle rc rc).answered (plainReply i tag .busy))) ∧
     (idle → s.film.loaded ≠ 0 → s.film.coverOpen = false → s.film.working = false → s.film.present = true →
       target ≠ s.film.baseline →
       exec i s = .next ((settle rc { rc with film := { s.film with
         mover := .hostCut (decide (s.expo.state = .stopped)), target := some target, trims := 0
         state := .feeding } }).answered (plainReply i tag .started))) ∧
     (idle → s.film.loaded ≠ 0 → s.film.coverOpen = false → s.film.working = false → s.film.present = true →
       target = s.film.baseline →
       let high := max s.film.highMark target
       let low := decide (s.film.loaded < high + s.film.lowThreshold)
       let u : State := { rc with film := { s.film with
         mover := .hostCut (decide (s.expo.state = .stopped)), target := some target, trims := 0
         highMark := high, state := .cutting, lowCondition := low } }
       exec i s = .next ((settle rc (if low = true ∧ s.film.lowCondition = false then u.raise .filmLow else u)).answered
         (plainReply i tag .started))) ∧
     (idle → s.film.loaded ≠ 0 → s.film.coverOpen = false → s.film.working = false → s.film.present = false →
       let y := min (max s.film.measured (max s.film.origin (s.film.highMark - 18000) - 1)) (s.film.loaded + 1)
       let u : State := { rc with
         film := { s.film with
           state := .jammed, mover := .none, target := some target, trims := 0, baseline := y
           highMark := max s.film.highMark (min y s.film.loaded)
           jams := if s.film.jams < 65535 then s.film.jams + 1 else s.film.jams }
         expo := if s.expo.state = .held then s.expo else { s.expo with
           state := .stopped
           stops := if s.expo.state = .stopped then { s.expo.stops with jam := true }
             else { cover := false, lamp := false, filmOut := false, jam := true } } }
       exec i s = .next ((settle rc (u.raise .filmJam)).answered (plainReply i tag .started))))

/-- R177: SET LOW FILM: a threshold above 2,160,000 is refused RANGE; otherwise it is replaced in one event, in every transport
state and under either state of the house lock, the low-film condition is judged at once by R172, FILM LOW is raised when that sets
it, and the reply is DONE with the condition as it now stands. A judgement at the verified end of a move and this request leave the
same condition in either order: it is a function of the geometry and the threshold alone. Log entry 5: the byte of the condition,
clear 0 and set 1, is the model's choice. -/
def Obligations.SetLowFilmJudgesAtOnce : Prop :=
  ∀ (s : State) (tag : Byte) (n : Nat), s.accepting →
    let i := Instr.setLowFilm tag n
    (2160000 < n → exec i s = .next (s.answered (plainReply i tag .range))) ∧
    (n ≤ 2160000 →
      let low := decide (0 < s.film.loaded ∧ s.film.loaded < s.film.highMark + n)
      let u : State := { s with film := { s.film with lowThreshold := n, lowCondition := low } }
      exec i s = .next ((if low = true ∧ s.film.lowCondition = false then u.raise .filmLow else u).answered
        (replyWith i tag .done (num1 (if low = true then 1 else 0))))) ∧
    s.judgeLow.film.lowCondition = decide (0 < s.film.loaded ∧ s.film.loaded < s.film.highMark + s.film.lowThreshold)

/-- R147, R148, R152, R153, R154, R165, R166, R167, R170, R171: DRIVE STOP and FILM PRESENT CHANGE. A reading within 1 eu of the
target verifies the move: Y takes the target and a gap its origin; one further off is trimmed, five times at most, and then jams;
film that goes ABSENT in a move jams it. A verified lead is complete and begins the run reached in SELECTING, with its station and
its lens asked for, or has its line abandoned for what was recorded. A verified MOVE makes its entry DONE with its clamp flag, and
the controller IDLE, HELD or STOPPED. A jam returns a lead's entry to WAITING and makes a MOVE or CUT DONE, with JAM and what was
recorded in the stop-reason set; a jam of the host's feed stops a controller that has no entry in flight, but for HELD. Log entries
6, 16, 18, 19, 25 and 35: that a DRIVE STOP with no drive at work changes nothing, the carriage's return within the event that
abandons, the line end deferred to the arrival, what an entry without its job does at a verified gap and at a jam and that REVERSE
CLAMPED is raised at a jam too, a lens move still under way when the run begins, and that a cut's low-film condition is judged at
the end of its feed, are the model's choice. -/
def Obligations.DriveStopVerifiesTrimsOrJams : Prop :=
  ∀ (s : State) (reading : Nat),
    let f := s.film
    let bumped := fun n : Nat => if n < 65535 then n + 1 else n
    let stopped := fun (t : State) (r : Stops) =>
      t.expo.state = .stopped ∧ t.expo.flight = none ∧ t.expo.holdRequest = false ∧ t.expo.stops = r
    let lineEnds := fun t : State =>
      ((∃ n, s.turret.motion = .rotating .exposure n) → t.turret.lineEndDue = true ∧ t.turret.lineOpen = s.turret.lineOpen) ∧
      ((∀ n, s.turret.motion ≠ .rotating .exposure n) → t.turret.lineEndDue = false ∧ t.turret.lineOpen = false)
    let made := fun (t : State) (fl : Flight) (clamped : Bool) =>
      (∀ x ∈ t.queue.entries, x.serial = fl.serial → x.expo = .done ∧ ∀ d c, x.body = .move d c → c = clamped) ∧
      t.expo.linesExposed = s.expo.linesExposed ∧ t.expo.linesSpoiled = s.expo.linesSpoiled ∧
      t.expo.lastExposed = s.expo.lastExposed ∧ t.link.delayTimer = s.link.delayTimer
    let jammedAt := fun m : Nat => min (max m (max f.origin (f.highMark - 18000) - 1)) (f.loaded + 1)
    let jammed := fun (t : State) (m : Nat) =>
      t.film.state = .jammed ∧ t.film.mover = .none ∧ t.film.baseline = jammedAt m ∧
      t.film.highMark = max f.highMark (min (jammedAt m) f.loaded) ∧ t.film.origin = f.origin ∧ t.film.owner = f.owner ∧
      t.film.jams = bumped f.jams ∧ t.link.holds .filmJam = true ∧
      (∀ (fl : Flight) (g : Option Nat), s.expo.flight = some fl → s.expo.state = .leading → f.mover = .lead g →
        stopped t { cover := fl.coverSeen, lamp := fl.lampSeen, filmOut := false, jam := true } ∧ lineEnds t ∧
        t.expo.linesSpoiled = s.expo.linesSpoiled ∧ t.turret.stations = s.turret.stations ∧
        t.queue = { s.queue with
          entries := s.queue.entries.map fun x => if x.serial = fl.serial then { x with expo := .waiting } else x }) ∧
      (∀ (fl : Flight) (clamped : Bool), s.expo.flight = some fl → s.expo.state = .filmOperation →
        ((∃ g, f.mover = .forward g) ∨ f.mover = .cutEntry) ∧ clamped = false ∨ f.mover = .reverse clamped →
        stopped t { cover := fl.coverSeen, lamp := fl.lampSeen, filmOut := false, jam := true } ∧ made t fl clamped ∧
        (clamped = true → t.link.holds .reverseClamped = true)) ∧
      (∀ w : Bool, f.mover = .hostCut w →
        t.queue = s.queue ∧
        t.expo = if s.expo.state = .idle ∨ s.expo.state = .waitingLamp then
            { s.expo with state := .stopped, stops := { cover := false, lamp := false, filmOut := false, jam := true } }
          else if s.expo.state = .stopped then { s.expo with stops := { s.expo.stops with jam := true } }
          else s.expo)
    (f.inMove = false → exec (.driveStop reading) s = .next (settle s s)) ∧
    (∀ target : Nat, f.inMove = true → f.target = some target →
      (reading ≤ target + 1 → target ≤ reading + 1 → f.mover ≠ .none →
        ∃ t : State, exec (.driveStop reading) s = .next (settle s t) ∧
          t.film.baseline = target ∧ t.film.highMark = max f.highMark target ∧ t.film.measured = reading ∧
          t.film.loaded = f.loaded ∧ t.film.lowCondition = decide (0 < f.loaded ∧ f.loaded < max f.highMark target + f.lowThreshold) ∧
          ((∃ w, f.mover = .hostCut w) ∨ f.mover = .cutEntry →
            t.film.state = .cutting ∧ t.film.mover = f.mover ∧ t.expo = s.expo ∧ t.queue = s.queue) ∧
          ((∀ w, f.mover ≠ .hostCut w) → f.mover ≠ .cutEntry → t.film.state = .atRest ∧ t.film.mover = .none) ∧
          (∀ g, f.mover = .lead (some g) ∨ f.mover = .forward (some g) → t.film.origin = f.highMark + g) ∧
          ((∀ g, f.mover ≠ .lead (some g) ∧ f.mover ≠ .forward (some g)) → t.film.origin = f.origin) ∧
          (∀ (g : Option Nat) (fl : Flight) (e : Entry), f.mover = .lead g ∨ f.mover = .forward g →
            s.expo.flight = some fl → s.queue.find fl.serial = some e →
            t.film.owner = if e.attributed = true ∧ (g.isSome = true ∨ f.owner = .none) then .job e.slot e.jobId else f.owner) ∧
          (∀ c, f.mover = .reverse c → t.film.owner = f.owner ∧ (c = true → t.link.holds .reverseClamped = true)) ∧
          (∀ (fl : Flight) (g : Option Nat), s.expo.flight = some fl → f.mover = .lead g →
            (fl.coverSeen = false → fl.lampSeen = false →
              ∀ (e : Entry) (b : LineBody) (r : Run),
                s.queue.find fl.serial = some e → e.body = .line b → b.runs[fl.run]? = some r →
                t.queue = s.queue ∧ t.turret = s.turret ∧
                t.expo = { s.expo with
                  state := .selecting
                  flight := some { fl with
                    leadDone := true
                    selecting := !decide (s.turret.motion = .atRest ∧ s.turret.position = r.station) }
                  lensTarget := if s.expo.lensTarget.isSome then s.expo.lensTarget
                    else if s.expo.lens = some r.size then none else some r.size }) ∧
            (fl.coverSeen = true ∨ fl.lampSeen = true → s.expo.state = .leading →
              stopped t { cover := fl.coverSeen, lamp := fl.lampSeen, filmOut := false, jam := false } ∧ lineEnds t ∧
              t.expo.carriage = 0 ∧ t.expo.lensTarget = s.expo.lensTarget ∧ t.link.holds .lineSpoiled = true ∧
              t.expo.linesSpoiled = bumped s.expo.linesSpoiled ∧ t.expo.linesExposed = s.expo.linesExposed ∧
              t.expo.lastExposed = s.expo.lastExposed ∧ t.link.delayTimer = s.link.delayTimer ∧
              ∀ x ∈ t.queue.entries, x.serial = fl.serial →
                x.expo = .done ∧ ∀ b, x.body = .line b → LineFlag.spoiled ∈ b.flags)) ∧
          (∀ (fl : Flight) (clamped : Bool), s.expo.flight = some fl →
            (∃ g, f.mover = .forward g) ∧ clamped = false ∨ f.mover = .reverse clamped →
            made t fl clamped ∧
            (fl.coverSeen = false → fl.lampSeen = false →
              t.expo.flight = none ∧ t.expo.holdRequest = false ∧ t.expo.stops = s.expo.stops ∧
              t.expo.state = (if s.expo.holdRequest then .held else .idle) ∧
              (s.expo.holdRequest = true → t.link.holds .held = true)) ∧
            (fl.coverSeen = true ∨ fl.lampSeen = true → s.expo.state = .filmOperation →
              stopped t { cover := fl.coverSeen, lamp := fl.lampSeen, filmOut := false, jam := false }))) ∧
      (¬(reading ≤ target + 1 ∧ target ≤ reading + 1) →
        (f.trims < 5 →
          exec (.driveStop reading) s = .next (settle s { s with film := { f with
            measured := reading, trims := f.trims + 1
            state := if f.state = .feeding then .feeding else .trimming } })) ∧
        (5 ≤ f.trims → ∃ t : State, exec (.driveStop reading) s = .next (settle s t) ∧ jammed t reading))) ∧
    (∀ present : Bool, f.inMove = false ∨ present = true →
      exec (.filmPresentChange present) s = .next (settle s { s with film := { f with present := present } })) ∧
    (f.inMove = true →
      ∃ t : State, exec (.filmPresentChange false) s = .next (settle s t) ∧ t.film.present = false ∧ jammed t f.measured)

/-- R153, R154, R175: at CUTTER HOME the origin, Y and Ymax stand at the cut, the owner is NONE, the cut is counted and CUT DONE raised, and
a cut begun in STOPPED takes JAM from the stop-reason set; at CUTTER TIMEOUT the sequence ends in a jam with the film fed but not cut, and
a CUT entry is done with the controller STOPPED for JAM. Log entry 6: that both out of CUTTING change nothing is the model's choice. -/
def Obligations.CutterHomeAndTimeout : Prop :=
  ∀ s : State,
    (s.film.state ≠ .cutting →
      exec .cutterHome s = .next (settle s s) ∧ exec .cutterTimeout s = .next (settle s s)) ∧
    (∀ p : Nat, s.film.state = .cutting → s.film.target = some p →
      let low := decide (0 < s.film.loaded ∧ s.film.loaded < p + s.film.lowThreshold)
      let film : Film := { s.film with
        origin := p, baseline := p, highMark := p, owner := .none, lastCut := some p, state := .atRest, mover := .none
        cuts := if s.film.cuts < 65535 then s.film.cuts + 1 else s.film.cuts, lowCondition := low }
      ∃ t : State, exec .cutterHome s = .next (settle s t) ∧ t.film = film ∧ t.link.holds .cutDone = true ∧
        (low = true → s.film.lowCondition = false → t.link.holds .filmLow = true) ∧
        (s.film.mover = .hostCut true → t.expo = { s.expo with stops := { s.expo.stops with jam := false } }) ∧
        (s.film.mover = .hostCut false → t.expo = s.expo) ∧
        (∀ fl : Flight, s.film.mover = .cutEntry → s.expo.flight = some fl →
          t.expo.flight = none ∧ (∀ e ∈ t.queue.entries, e.serial = fl.serial → e.expo = .done) ∧
          (fl.coverSeen = false → fl.lampSeen = false →
            t.expo.state = if s.expo.holdRequest then .held else .idle) ∧
          (fl.coverSeen = true ∨ fl.lampSeen = true → t.expo.state = .stopped))) ∧
    (s.film.state = .cutting →
      ∃ t : State, exec .cutterTimeout s = .next (settle s t) ∧
        t.film = { s.film with
          state := .jammed, mover := .none, jams := if s.film.jams < 65535 then s.film.jams + 1 else s.film.jams } ∧
        t.link.holds .filmJam = true ∧
        (∀ w, s.film.mover = .hostCut w → s.expo.state = .idle ∨ s.expo.state = .waitingLamp ∨ s.expo.state = .stopped →
          t.expo.state = .stopped ∧ t.expo.stops.jam = true) ∧
        (∀ fl : Flight, s.film.mover = .cutEntry → s.expo.flight = some fl →
          t.expo.state = .stopped ∧ t.expo.stops.jam = true ∧ t.expo.flight = none ∧ t.expo.holdRequest = false ∧
          ∀ e ∈ t.queue.entries, e.serial = fl.serial → e.expo = .done))

/-! ### Proof printing -/

/-- R137, R180 to R188, R191: SET PROOF enables, disables at once or when the print list is empty, and sets the rate; its reply carries
what stands at the end of its event, with an entry named taken. PROOF BYTE SENT counts a byte, and with the last byte of a line the line
leaves the list and is counted, and the proof of an entry line's entry is done; where no entry of its serial is IN PRINT the queue is
left as it is. The taking of an entry puts the gap count on the paper, appends the entry's line and makes it IN PRINT. An entry's line
has its margin of number, asterisk and flag letters, its glyphs each in the first free text column from the one of its position, by
code, proof map or '?', cut by '>', and its passes, bold before underline. Log entries 5, 6, 9 and 36: the byte of disable pending, that
a PROOF BYTE SENT with no byte in transit changes nothing, the byte in transit, that a line set back by paper out stays begun, and that
a '?' under the '>' is counted for the letter M, are the model's choice. -/
def Obligations.SetProofAndProofByteSent : Prop :=
  ∀ s : State,
    (∀ (tag : Byte) (enable rate : Nat), s.accepting →
      let i := Instr.setProof tag enable rate
      let rc := s.received
      (¬(enable ≤ 1 ∧ rate ∈ [300, 600, 1200, 2400, 4800, 9600]) →
        exec i s = .next ((settle rc rc).answered (plainReply i tag .range))) ∧
      (enable ≤ 1 → rate ∈ [300, 600, 1200, 2400, 4800, 9600] →
        let p : Proof := { s.proof with
          rate := rate
          state := if s.proof.state = .disabled ∧ enable = 1 then .idle
            else if s.proof.state = .idle ∧ enable = 0 then .disabled else s.proof.state
          disablePending := if s.proof.state = .printing then decide (enable = 0) else s.proof.disablePending }
        let t := settle rc { rc with proof := p }
        exec i s = .next (t.answered
          (replyWith i tag .done (num1 t.proof.state.code ++ flag1 t.proof.disablePending ++ num2 t.proof.rate))) ∧
        t.proof.rate = rate)) ∧
    (s.proof.transit = .none → exec .proofByteSent s = .next (settle s s)) ∧
    (s.proof.transit = .stale →
      exec .proofByteSent s = .next (settle s { s with proof := { s.proof with transit := .none } })) ∧
    (s.proof.transit = .counted → 0 < s.proof.lead →
      exec .proofByteSent s =
        .next (settle s { s with proof := { s.proof with transit := .none, lead := s.proof.lead - 1 } })) ∧
    (∀ (l : PrintLine) (rest : List PrintLine), s.proof.transit = .counted → s.proof.lead = 0 → s.proof.list = l :: rest →
      (s.proof.sent + 1 < l.bytes.length →
        exec .proofByteSent s =
          .next (settle s { s with proof := { s.proof with transit := .none, sent := s.proof.sent + 1 } })) ∧
      (∀ serial : Nat, l.bytes.length ≤ s.proof.sent + 1 → l.kind = .entry serial →
        ∃ t : State, exec .proofByteSent s = .next (settle s t) ∧
          t.proof.list = rest ∧ t.proof.sent = 0 ∧ t.proof.begun = false ∧ t.proof.transit = .none ∧
          t.proof.linesPrinted =
            (if s.proof.linesPrinted < 65535 then s.proof.linesPrinted + 1 else s.proof.linesPrinted) ∧
          (rest = [] → t.proof.state ≠ .printing) ∧
          ((∃ e, s.queue.find serial = some e ∧ e.proof = .inPrint) →
            ∀ e ∈ t.queue.entries, e.serial = serial → e.proof = .done) ∧
          ((∀ e, s.queue.find serial = some e → e.proof ≠ .inPrint) → t.queue = s.queue) ∧
          t.expo = s.expo ∧ t.film = s.film) ∧
      (l.bytes.length ≤ s.proof.sent + 1 → l.isEntry = false →
        ∃ t : State, exec .proofByteSent s = .next (settle s t) ∧ { t with proof := s.proof } = s ∧
          t.proof.list = rest ∧ t.proof.sent = 0 ∧ t.proof.begun = false ∧ t.proof.transit = .none ∧
          t.proof.linesPrinted = s.proof.linesPrinted ∧
          t.proof.gapsPrinted =
            (if l.isGap = true ∧ s.proof.gapsPrinted < 65535 then s.proof.gapsPrinted + 1 else s.proof.gapsPrinted))) ∧
    (∀ n : Nat, n < 100000000 →
      (decimal n).foldl (fun a d => 10 * a + (d.toNat - 0x30)) 0 = n ∧ (∀ d ∈ decimal n, 0x30 ≤ d.toNat ∧ d.toNat ≤ 0x39) ∧
      (0 < n → (decimal n).head? ≠ some 0x30#8) ∧ (n < 100000 → (decimal n).length ≤ 5)) ∧
    (∀ (star : Bool) (text : List Byte), text ≠ [] → text.getLast? ≠ some 0x20#8 →
      noteLine star text =
        List.replicate 5 0x20#8 ++ [if star then 0x2A#8 else 0x20#8] ++ List.replicate 6 0x20#8 ++ text ++ [0x0D#8, 0x0A#8]) ∧
    (∀ b : LineBody, (b.runs.map Run.count).sum = b.glyphs.length →
      let fonts := b.runs.flatMap fun r => List.replicate r.count r.font
      let record := fun k : Nat => fonts[k]?.bind s.font
      let face := fun k : Nat => ((record k).map FontRecord.face).getD .plain
      let printed := fun k : Nat => b.glyphs[k]?.bind fun g =>
        if g.1.toNat ≤ 0x7E then some g.1
        else (((record k).bind FontRecord.map).bind fun m => m.find? fun x => x.1 == g.1).map Prod.snd
      let pass := fun l out : List Byte =>
        ∃ n, out = l.take n ++ [0x0D#8] ∧ (∀ x ∈ l.drop n, x = 0x20#8) ∧ (l.take n).getLast? ≠ some 0x20#8
      let bold := fun c : Column => c.face = .bold ∨ c.face = .boldUnderline
      let under := fun c : Column => c.face = .underline ∨ c.face = .boldUnderline
      ∃ (taken : List Nat) (text : List Column) (first second third : List Byte),
        let column := fun g : Byte × Nat => g.2 * 120 / b.measure
        let isCut := taken.length < b.glyphs.length
        let unknown := ∃ k ∈ List.range taken.length, printed k = none
        let letters : List Byte :=
          (if .hyphD ∈ b.flags then ascii "HD" else if .hyphX ∈ b.flags then ascii "HX"
            else if .hyphA ∈ b.flags then ascii "HA" else []) ++
          (if .loose ∈ b.flags ∨ .letterspaced ∈ b.flags then ascii "L" else []) ++
          (if .short ∈ b.flags ∨ .forced ∈ b.flags then ascii "S" else []) ++
          (if .overset ∈ b.flags then ascii "O" else []) ++ (if .missing ∈ b.flags ∨ unknown then ascii "M" else [])
        let margin : List Byte :=
          List.replicate (5 - (decimal b.lineNumber).length) 0x20#8 ++ decimal b.lineNumber ++
          [if .spoiled ∈ b.flags then 0x2A#8 else 0x20#8] ++ letters ++ List.replicate (5 - letters.length) 0x20#8 ++ [0x20#8]
        let row := margin.map (fun x => { char := x, face := .plain : Column }) ++ text
        taken.length ≤ b.glyphs.length ∧ taken.Nodup ∧
        (∀ k c, taken[k]? = some c → ∃ g, b.glyphs[k]? = some g ∧
          g.2 < b.measure ∧ column g ≤ c ∧ c ≤ 119 ∧ ∀ c', column g ≤ c' → c' < c → c' ∈ taken.take k) ∧
        (∀ g, b.glyphs[taken.length]? = some g → b.measure ≤ g.2 ∨ ∀ c', column g ≤ c' → c' ≤ 119 → c' ∈ taken) ∧
        text.length = 120 ∧
        (isCut → text[119]? = some { char := 0x3E#8, face := .plain }) ∧
        (∀ k c, taken[k]? = some c → ¬(isCut ∧ c = 119) → text[c]? = some { char := (printed k).getD 0x3F#8, face := face k }) ∧
        (∀ c, c < 120 → c ∉ taken → ¬(isCut ∧ c = 119) → text[c]? = some { char := 0x20#8, face := .plain }) ∧
        s.proofLine b = first ++ second ++ third ++ [0x0A#8] ∧ pass (row.map Column.char) first ∧
        (if ∃ c ∈ row, bold c then pass (row.map fun c => if bold c then c.char else 0x20#8) second else second = []) ∧
        (if ∃ c ∈ row, under c then pass (row.map fun c => if under c then 0x5F#8 else 0x20#8) third else third = [])) ∧
    ∀ (serial : Nat) (e : Entry),
      s.proof.state ≠ .disabled → s.proof.disablePending = false → (∀ l ∈ s.proof.list, l.isEntry = false) →
      s.proof.named = some serial → s.queue.find serial = some e →
      let gapText := fun n : Nat => noteLine false (decimal n ++ ascii " LINES NOT PROOFED")
      let begun := s.proof.begun = true ∧ ∃ l ∈ s.proof.list.head?, l.isGap = true
      let line : PrintLine :=
        { kind := .entry e.serial
          bytes := match e.body with
            | .line b => s.proofLine b
            | _ => noteLine false (ascii "JOB " ++ decimal e.jobId ++ ascii " ABORTED") }
      ∃ t : State, s.reactProof = some t ∧ { t with proof := s.proof, queue := s.queue } = s ∧
        t.queue = { s.queue with
          entries := s.queue.entries.map fun x => if x.serial = serial then { x with proof := .inPrint } else x } ∧
        t.proof = { s.proof with state := .printing, list := t.proof.list, gapCount := t.proof.gapCount } ∧
        (s.proof.gapCount = 0 → t.proof.list = s.proof.list ++ [line] ∧ t.proof.gapCount = 0) ∧
        (0 < s.proof.gapCount → (∀ l ∈ s.proof.list, l.isGap = false) →
          t.proof.list = s.proof.list ++ [{ kind := .gap s.proof.gapCount, bytes := gapText s.proof.gapCount }, line] ∧
          t.proof.gapCount = 0) ∧
        (0 < s.proof.gapCount → begun → t.proof.list = s.proof.list ++ [line] ∧ t.proof.gapCount = s.proof.gapCount) ∧
        (∀ g n, 0 < s.proof.gapCount → ¬begun → s.proof.list.find? PrintLine.isGap = some g → g.kind = .gap n →
          let sum := min 65535 (n + s.proof.gapCount)
          t.proof.list = s.proof.list.map (fun l => if l.isGap = true then { kind := .gap sum, bytes := gapText sum } else l) ++ [line] ∧
          t.proof.gapCount = 0)

/-- R188, R189, R190: the printer's flow, stall and paper. XOFF stops the bytes and starts the stall timer where a line waits; XON lets
them go on and ends a stall; the timer's expiry stops the proof with its notice; paper out sets a line begun back for its reprint, and
paper present resumes. Any other byte of the printer is discarded, and a change to the state already held changes nothing. Over a whole
event the stall timer starts as the flow OFF, the paper PRESENT and a line in the list come to hold together, runs on while they hold,
and stops as one fails. Log entries 6, 9, 23 and 33: that an expiry of a stopped stall timer and a paper event to the state already held
change nothing, that a reprint is judged by the bytes completed and takes its rate at the carriage return before it, that the stall
timer's expiry always raises its notice, and that the timer's conditions are those of the states before and after an event, are the
model's choice. -/
def Obligations.PrinterFlowStallAndPaper : Prop :=
  (∀ before p : Proof,
    let holds := fun x : Proof => x.flowOn = false ∧ x.paperOut = false ∧ x.list ≠ []
    { before.judgeStall p with stallTimer := p.stallTimer } = p ∧
    (holds p → ¬holds before → (before.judgeStall p).stallTimer = true) ∧
    (holds p → holds before → (before.judgeStall p).stallTimer = p.stallTimer) ∧
    (¬holds p → (before.judgeStall p).stallTimer = false)) ∧
  ∀ s : State,
    (∀ b : Byte, exec (.printerByteDiscarded b) s = .next s) ∧
    (s.proof.flowOn = false → exec .xoffReceived s = .next s) ∧
    (s.proof.flowOn = true →
      exec .xoffReceived s = .next { s with proof := { s.proof with
        flowOn := false, stallTimer := !s.proof.paperOut && !s.proof.list.isEmpty } }) ∧
    (s.proof.flowOn = true → exec .xonReceived s = .next s) ∧
    (s.proof.flowOn = false →
      let p : Proof := { s.proof with flowOn := true, stalled := false, stallTimer := false }
      let begins := s.proof.paperOut = false ∧ s.proof.list ≠ [] ∧ s.proof.transit = .none
      let p' : Proof := if begins then { p with
        transit := .counted, begun := true, lineRate := if p.begun = false ∨ p.lead = 2 then p.rate else p.lineRate } else p
      let u : State := { s with proof := p' }
      exec .xonReceived s =
        .next (if s.proof.stalled = true ∧ s.proof.paperOut = false then u.raise .proofResumed else u)) ∧
    (s.proof.stallTimer = true →
      exec .stallTimerExpiry s =
        .next (({ s with proof := { s.proof with stalled := true, stallTimer := false } } : State).raise .proofStopped)) ∧
    (s.proof.stallTimer = false → exec .stallTimerExpiry s = .next s) ∧
    (s.proof.paperOut = true → exec .paperOut s = .next s) ∧
    (s.proof.paperOut = false →
      let u : State := { s with proof := { s.proof with
        paperOut := true, stallTimer := false, reprint := s.proof.reprint || decide (0 < s.proof.sent), sent := 0
        transit := if 0 < s.proof.sent ∧ s.proof.transit = .counted then .stale else s.proof.transit } }
      exec .paperOut s = .next (if s.proof.stalled = true then u else u.raise .proofStopped)) ∧
    (s.proof.paperOut = false → exec .paperPresent s = .next s) ∧
    (s.proof.paperOut = true →
      ∃ t : State, exec .paperPresent s = .next t ∧ t.proof.paperOut = false ∧ t.proof.reprint = false ∧
        t.proof.list = s.proof.list ∧
        (s.proof.reprint = true → t.proof.lead = 2 ∧ t.proof.sent = 0 ∧
          t.proof.reprints = (if s.proof.reprints < 65535 then s.proof.reprints + 1 else s.proof.reprints)) ∧
        (s.proof.reprint = false → t.proof.lead = s.proof.lead ∧ t.proof.sent = s.proof.sent ∧
          t.proof.reprints = s.proof.reprints) ∧
        t.proof.stallTimer = decide (s.proof.flowOn = false ∧ s.proof.list ≠ []) ∧
        (s.proof.stalled = false → t.link.holds .proofResumed = true) ∧
        (s.proof.flowOn = true → s.proof.list ≠ [] → t.proof.transit ≠ .none) ∧
        { t with proof := s.proof, link := s.link } = s)

/-! ### What every command keeps -/

/-- R194, R195, R200: the reply queue, the summary, the mask, the frames that wait and the direction stay as LinkOk says
(the frames that wait: log entry 3). -/
def Obligations.EveryCommandKeepsTheLink : Prop :=
  ∀ (i : Instr) (s t : State), LinkOk s → exec i s = .next t → LinkOk t

/-- R1, R8, R10, R11, R24, R25, R71, R75, R85, R127, R143: no command makes two records of one font number or master code, or a
thirty-third record. And at all times, with the relations between the blocks that this rests on: every record's count equals its
holders part by part, a station that is MOUNTED or DRAINING from MOUNTED names a present record with its last-read code and no other
station names one, a station's setting claims and pins equal the lines in progress and the entries not exposure-done with a run on
it, a station with either is never OPEN or VERIFYING, and the glyphs of one font on a line in progress carry one station, a line
with a glyph, and no other, having been opened. -/
def Obligations.EveryCommandKeepsTheCatalogue : Prop :=
  ∀ (i : Instr) (s t : State), exec i s = .next t → (CatalogueOk s → CatalogueOk t) ∧ (HoldersOk s → HoldersOk t)

/-- R106 to R110: every command keeps the slots, the keys, the quotas, the words, their breaks and counts of the dictionary. -/
def Obligations.EveryCommandKeepsTheDictionary : Prop :=
  ∀ (i : Instr) (s t : State), DictOk s → exec i s = .next t → DictOk t

/-- R124: after every command a JOB entry's owner is still composing. -/
def Obligations.EveryCommandKeepsJobWordsWithTheirJob : Prop :=
  ∀ (i : Instr) (s t : State), JobWordsOk s → exec i s = .next t → JobWordsOk t

/-- R126, R133, R141: after every command the queue lies within its capacities, and the high-water condition keeps its promise. -/
def Obligations.EveryCommandKeepsTheQueue : Prop :=
  ∀ (i : Instr) (s t : State), QueueOk s → exec i s = .next t → QueueOk t

/-- R37, R40, R43, R65: every command keeps the four slots with the galley order list of those not FREE, the stations, the station
protection set, the language tables and the engine's slot numbers. -/
def Obligations.EveryCommandKeepsTheGalleyOrder : Prop :=
  ∀ (i : Instr) (s t : State), GalleyOk s → ShapeOk s → exec i s = .next t → GalleyOk t ∧ ShapeOk t

/-- R143, R154, R180, R181, R186, R187: after every command an entry is in flight in the states of the second group alone, and stop
reasons stand in STOPPED alone; and the proof state follows from the print list, which holds at most one entry line, one gap line and
eight spoil lines. -/
def Obligations.EveryCommandKeepsTheExposureAndProofStates : Prop :=
  ∀ (i : Instr) (s t : State), exec i s = .next t → (ExpoOk s → ExpoOk t) ∧ (ProofOk s → ProofOk t)

/-- R157 to R161: after every command the lamp's limits, index and timers agree with its state, and the index stands at or above the fail
limit in READY and RECOVERING. -/
def Obligations.EveryCommandKeepsTheLamp : Prop :=
  ∀ (i : Instr) (s t : State), LampOk s → exec i s = .next t → LampOk t

/-- R164 to R175: after every command the positions of the film and the target of a move under way lie in their order. -/
def Obligations.EveryCommandKeepsTheFilmGeometry : Prop :=
  ∀ (i : Instr) (s t : State), FilmOk s → exec i s = .next t → FilmOk t

/-- R18, R36, R64, R88, R105, R125, R140, R163, R179, R193, R206: the state right after reset meets every invariant of this file,
and so does the state any power-on reset leaves. Log entry 4: the readings State.reset stands on are the model's choice;
log entry 3: so is that a power-on reset drops a frame that waited at the handshake. -/
def Obligations.ResetMeetsTheInvariants : Prop :=
  ∀ (s t : State) (r : Readings), t = State.reset ∨ exec (.powerOnReset r) s = .next t →
    LinkOk t ∧ CatalogueOk t ∧ DictOk t ∧ JobWordsOk t ∧ QueueOk t ∧ GalleyOk t ∧ ShapeOk t ∧ ExpoOk t ∧ LampOk t ∧
    FilmOk t ∧ ProofOk t ∧ HoldersOk t
end

