-- ==== Sys2Proof/Laws/State.lean ====
section
/-! SUPPORT. What each update of a part of the state writes, and that it leaves every other part alone. -/

namespace Sys2Proof.Machine

open Sys2Proof

variable (s : State)

/-- `onLink` writes the field `link` alone. -/
@[simp] theorem State.onLink_link (f : Link → Link) : (s.onLink f).link = f s.link := rfl
@[simp] theorem State.onLink_fonts (f : Link → Link) : (s.onLink f).fonts = s.fonts := rfl
@[simp] theorem State.onLink_turret (f : Link → Link) : (s.onLink f).turret = s.turret := rfl
@[simp] theorem State.onLink_jobs (f : Link → Link) : (s.onLink f).jobs = s.jobs := rfl
@[simp] theorem State.onLink_galleyOrder (f : Link → Link) : (s.onLink f).galleyOrder = s.galleyOrder := rfl
@[simp] theorem State.onLink_house (f : Link → Link) : (s.onLink f).house = s.house := rfl
@[simp] theorem State.onLink_houseLocked (f : Link → Link) : (s.onLink f).houseLocked = s.houseLocked := rfl
@[simp] theorem State.onLink_galleyGap (f : Link → Link) : (s.onLink f).galleyGap = s.galleyGap := rfl
@[simp] theorem State.onLink_exposureHead (f : Link → Link) : (s.onLink f).exposureHead = s.exposureHead := rfl
@[simp] theorem State.onLink_proofHead (f : Link → Link) : (s.onLink f).proofHead = s.proofHead := rfl
@[simp] theorem State.onLink_engine (f : Link → Link) : (s.onLink f).engine = s.engine := rfl
@[simp] theorem State.onLink_languages (f : Link → Link) : (s.onLink f).languages = s.languages := rfl
@[simp] theorem State.onLink_dict (f : Link → Link) : (s.onLink f).dict = s.dict := rfl
@[simp] theorem State.onLink_queue (f : Link → Link) : (s.onLink f).queue = s.queue := rfl
@[simp] theorem State.onLink_expo (f : Link → Link) : (s.onLink f).expo = s.expo := rfl
@[simp] theorem State.onLink_lamp (f : Link → Link) : (s.onLink f).lamp = s.lamp := rfl
@[simp] theorem State.onLink_film (f : Link → Link) : (s.onLink f).film = s.film := rfl
@[simp] theorem State.onLink_proof (f : Link → Link) : (s.onLink f).proof = s.proof := rfl
@[simp] theorem State.onLink_freeCount (f : Link → Link) : (s.onLink f).freeCount = s.freeCount := rfl
@[simp] theorem State.onLink_pending (f : Link → Link) : (s.onLink f).pending = s.pending := rfl

/-- `onTurret` writes the field `turret` alone. -/
@[simp] theorem State.onTurret_turret (f : Turret → Turret) : (s.onTurret f).turret = f s.turret := rfl
@[simp] theorem State.onTurret_link (f : Turret → Turret) : (s.onTurret f).link = s.link := rfl
@[simp] theorem State.onTurret_fonts (f : Turret → Turret) : (s.onTurret f).fonts = s.fonts := rfl
@[simp] theorem State.onTurret_jobs (f : Turret → Turret) : (s.onTurret f).jobs = s.jobs := rfl
@[simp] theorem State.onTurret_galleyOrder (f : Turret → Turret) : (s.onTurret f).galleyOrder = s.galleyOrder := rfl
@[simp] theorem State.onTurret_house (f : Turret → Turret) : (s.onTurret f).house = s.house := rfl
@[simp] theorem State.onTurret_houseLocked (f : Turret → Turret) : (s.onTurret f).houseLocked = s.houseLocked := rfl
@[simp] theorem State.onTurret_galleyGap (f : Turret → Turret) : (s.onTurret f).galleyGap = s.galleyGap := rfl
@[simp] theorem State.onTurret_exposureHead (f : Turret → Turret) : (s.onTurret f).exposureHead = s.exposureHead := rfl
@[simp] theorem State.onTurret_proofHead (f : Turret → Turret) : (s.onTurret f).proofHead = s.proofHead := rfl
@[simp] theorem State.onTurret_engine (f : Turret → Turret) : (s.onTurret f).engine = s.engine := rfl
@[simp] theorem State.onTurret_languages (f : Turret → Turret) : (s.onTurret f).languages = s.languages := rfl
@[simp] theorem State.onTurret_dict (f : Turret → Turret) : (s.onTurret f).dict = s.dict := rfl
@[simp] theorem State.onTurret_queue (f : Turret → Turret) : (s.onTurret f).queue = s.queue := rfl
@[simp] theorem State.onTurret_expo (f : Turret → Turret) : (s.onTurret f).expo = s.expo := rfl
@[simp] theorem State.onTurret_lamp (f : Turret → Turret) : (s.onTurret f).lamp = s.lamp := rfl
@[simp] theorem State.onTurret_film (f : Turret → Turret) : (s.onTurret f).film = s.film := rfl
@[simp] theorem State.onTurret_proof (f : Turret → Turret) : (s.onTurret f).proof = s.proof := rfl
@[simp] theorem State.onTurret_freeCount (f : Turret → Turret) : (s.onTurret f).freeCount = s.freeCount := rfl
@[simp] theorem State.onTurret_pending (f : Turret → Turret) : (s.onTurret f).pending = s.pending := rfl

/-- `onEngine` writes the field `engine` alone. -/
@[simp] theorem State.onEngine_engine (f : Engine → Engine) : (s.onEngine f).engine = f s.engine := rfl
@[simp] theorem State.onEngine_link (f : Engine → Engine) : (s.onEngine f).link = s.link := rfl
@[simp] theorem State.onEngine_fonts (f : Engine → Engine) : (s.onEngine f).fonts = s.fonts := rfl
@[simp] theorem State.onEngine_turret (f : Engine → Engine) : (s.onEngine f).turret = s.turret := rfl
@[simp] theorem State.onEngine_jobs (f : Engine → Engine) : (s.onEngine f).jobs = s.jobs := rfl
@[simp] theorem State.onEngine_galleyOrder (f : Engine → Engine) : (s.onEngine f).galleyOrder = s.galleyOrder := rfl
@[simp] theorem State.onEngine_house (f : Engine → Engine) : (s.onEngine f).house = s.house := rfl
@[simp] theorem State.onEngine_houseLocked (f : Engine → Engine) : (s.onEngine f).houseLocked = s.houseLocked := rfl
@[simp] theorem State.onEngine_galleyGap (f : Engine → Engine) : (s.onEngine f).galleyGap = s.galleyGap := rfl
@[simp] theorem State.onEngine_exposureHead (f : Engine → Engine) : (s.onEngine f).exposureHead = s.exposureHead := rfl
@[simp] theorem State.onEngine_proofHead (f : Engine → Engine) : (s.onEngine f).proofHead = s.proofHead := rfl
@[simp] theorem State.onEngine_languages (f : Engine → Engine) : (s.onEngine f).languages = s.languages := rfl
@[simp] theorem State.onEngine_dict (f : Engine → Engine) : (s.onEngine f).dict = s.dict := rfl
@[simp] theorem State.onEngine_queue (f : Engine → Engine) : (s.onEngine f).queue = s.queue := rfl
@[simp] theorem State.onEngine_expo (f : Engine → Engine) : (s.onEngine f).expo = s.expo := rfl
@[simp] theorem State.onEngine_lamp (f : Engine → Engine) : (s.onEngine f).lamp = s.lamp := rfl
@[simp] theorem State.onEngine_film (f : Engine → Engine) : (s.onEngine f).film = s.film := rfl
@[simp] theorem State.onEngine_proof (f : Engine → Engine) : (s.onEngine f).proof = s.proof := rfl
@[simp] theorem State.onEngine_freeCount (f : Engine → Engine) : (s.onEngine f).freeCount = s.freeCount := rfl
@[simp] theorem State.onEngine_pending (f : Engine → Engine) : (s.onEngine f).pending = s.pending := rfl

/-- `onQueue` writes the field `queue` alone. -/
@[simp] theorem State.onQueue_queue (f : Queue → Queue) : (s.onQueue f).queue = f s.queue := rfl
@[simp] theorem State.onQueue_link (f : Queue → Queue) : (s.onQueue f).link = s.link := rfl
@[simp] theorem State.onQueue_fonts (f : Queue → Queue) : (s.onQueue f).fonts = s.fonts := rfl
@[simp] theorem State.onQueue_turret (f : Queue → Queue) : (s.onQueue f).turret = s.turret := rfl
@[simp] theorem State.onQueue_jobs (f : Queue → Queue) : (s.onQueue f).jobs = s.jobs := rfl
@[simp] theorem State.onQueue_galleyOrder (f : Queue → Queue) : (s.onQueue f).galleyOrder = s.galleyOrder := rfl
@[simp] theorem State.onQueue_house (f : Queue → Queue) : (s.onQueue f).house = s.house := rfl
@[simp] theorem State.onQueue_houseLocked (f : Queue → Queue) : (s.onQueue f).houseLocked = s.houseLocked := rfl
@[simp] theorem State.onQueue_galleyGap (f : Queue → Queue) : (s.onQueue f).galleyGap = s.galleyGap := rfl
@[simp] theorem State.onQueue_exposureHead (f : Queue → Queue) : (s.onQueue f).exposureHead = s.exposureHead := rfl
@[simp] theorem State.onQueue_proofHead (f : Queue → Queue) : (s.onQueue f).proofHead = s.proofHead := rfl
@[simp] theorem State.onQueue_engine (f : Queue → Queue) : (s.onQueue f).engine = s.engine := rfl
@[simp] theorem State.onQueue_languages (f : Queue → Queue) : (s.onQueue f).languages = s.languages := rfl
@[simp] theorem State.onQueue_dict (f : Queue → Queue) : (s.onQueue f).dict = s.dict := rfl
@[simp] theorem State.onQueue_expo (f : Queue → Queue) : (s.onQueue f).expo = s.expo := rfl
@[simp] theorem State.onQueue_lamp (f : Queue → Queue) : (s.onQueue f).lamp = s.lamp := rfl
@[simp] theorem State.onQueue_film (f : Queue → Queue) : (s.onQueue f).film = s.film := rfl
@[simp] theorem State.onQueue_proof (f : Queue → Queue) : (s.onQueue f).proof = s.proof := rfl
@[simp] theorem State.onQueue_freeCount (f : Queue → Queue) : (s.onQueue f).freeCount = s.freeCount := rfl
@[simp] theorem State.onQueue_pending (f : Queue → Queue) : (s.onQueue f).pending = s.pending := rfl

/-- `onExpo` writes the field `expo` alone. -/
@[simp] theorem State.onExpo_expo (f : Exposure → Exposure) : (s.onExpo f).expo = f s.expo := rfl
@[simp] theorem State.onExpo_link (f : Exposure → Exposure) : (s.onExpo f).link = s.link := rfl
@[simp] theorem State.onExpo_fonts (f : Exposure → Exposure) : (s.onExpo f).fonts = s.fonts := rfl
@[simp] theorem State.onExpo_turret (f : Exposure → Exposure) : (s.onExpo f).turret = s.turret := rfl
@[simp] theorem State.onExpo_jobs (f : Exposure → Exposure) : (s.onExpo f).jobs = s.jobs := rfl
@[simp] theorem State.onExpo_galleyOrder (f : Exposure → Exposure) : (s.onExpo f).galleyOrder = s.galleyOrder := rfl
@[simp] theorem State.onExpo_house (f : Exposure → Exposure) : (s.onExpo f).house = s.house := rfl
@[simp] theorem State.onExpo_houseLocked (f : Exposure → Exposure) : (s.onExpo f).houseLocked = s.houseLocked := rfl
@[simp] theorem State.onExpo_galleyGap (f : Exposure → Exposure) : (s.onExpo f).galleyGap = s.galleyGap := rfl
@[simp] theorem State.onExpo_exposureHead (f : Exposure → Exposure) : (s.onExpo f).exposureHead = s.exposureHead := rfl
@[simp] theorem State.onExpo_proofHead (f : Exposure → Exposure) : (s.onExpo f).proofHead = s.proofHead := rfl
@[simp] theorem State.onExpo_engine (f : Exposure → Exposure) : (s.onExpo f).engine = s.engine := rfl
@[simp] theorem State.onExpo_languages (f : Exposure → Exposure) : (s.onExpo f).languages = s.languages := rfl
@[simp] theorem State.onExpo_dict (f : Exposure → Exposure) : (s.onExpo f).dict = s.dict := rfl
@[simp] theorem State.onExpo_queue (f : Exposure → Exposure) : (s.onExpo f).queue = s.queue := rfl
@[simp] theorem State.onExpo_lamp (f : Exposure → Exposure) : (s.onExpo f).lamp = s.lamp := rfl
@[simp] theorem State.onExpo_film (f : Exposure → Exposure) : (s.onExpo f).film = s.film := rfl
@[simp] theorem State.onExpo_proof (f : Exposure → Exposure) : (s.onExpo f).proof = s.proof := rfl
@[simp] theorem State.onExpo_freeCount (f : Exposure → Exposure) : (s.onExpo f).freeCount = s.freeCount := rfl
@[simp] theorem State.onExpo_pending (f : Exposure → Exposure) : (s.onExpo f).pending = s.pending := rfl

/-- `onLamp` writes the field `lamp` alone. -/
@[simp] theorem State.onLamp_lamp (f : Lamp → Lamp) : (s.onLamp f).lamp = f s.lamp := rfl
@[simp] theorem State.onLamp_link (f : Lamp → Lamp) : (s.onLamp f).link = s.link := rfl
@[simp] theorem State.onLamp_fonts (f : Lamp → Lamp) : (s.onLamp f).fonts = s.fonts := rfl
@[simp] theorem State.onLamp_turret (f : Lamp → Lamp) : (s.onLamp f).turret = s.turret := rfl
@[simp] theorem State.onLamp_jobs (f : Lamp → Lamp) : (s.onLamp f).jobs = s.jobs := rfl
@[simp] theorem State.onLamp_galleyOrder (f : Lamp → Lamp) : (s.onLamp f).galleyOrder = s.galleyOrder := rfl
@[simp] theorem State.onLamp_house (f : Lamp → Lamp) : (s.onLamp f).house = s.house := rfl
@[simp] theorem State.onLamp_houseLocked (f : Lamp → Lamp) : (s.onLamp f).houseLocked = s.houseLocked := rfl
@[simp] theorem State.onLamp_galleyGap (f : Lamp → Lamp) : (s.onLamp f).galleyGap = s.galleyGap := rfl
@[simp] theorem State.onLamp_exposureHead (f : Lamp → Lamp) : (s.onLamp f).exposureHead = s.exposureHead := rfl
@[simp] theorem State.onLamp_proofHead (f : Lamp → Lamp) : (s.onLamp f).proofHead = s.proofHead := rfl
@[simp] theorem State.onLamp_engine (f : Lamp → Lamp) : (s.onLamp f).engine = s.engine := rfl
@[simp] theorem State.onLamp_languages (f : Lamp → Lamp) : (s.onLamp f).languages = s.languages := rfl
@[simp] theorem State.onLamp_dict (f : Lamp → Lamp) : (s.onLamp f).dict = s.dict := rfl
@[simp] theorem State.onLamp_queue (f : Lamp → Lamp) : (s.onLamp f).queue = s.queue := rfl
@[simp] theorem State.onLamp_expo (f : Lamp → Lamp) : (s.onLamp f).expo = s.expo := rfl
@[simp] theorem State.onLamp_film (f : Lamp → Lamp) : (s.onLamp f).film = s.film := rfl
@[simp] theorem State.onLamp_proof (f : Lamp → Lamp) : (s.onLamp f).proof = s.proof := rfl
@[simp] theorem State.onLamp_freeCount (f : Lamp → Lamp) : (s.onLamp f).freeCount = s.freeCount := rfl
@[simp] theorem State.onLamp_pending (f : Lamp → Lamp) : (s.onLamp f).pending = s.pending := rfl

/-- `onFilm` writes the field `film` alone. -/
@[simp] theorem State.onFilm_film (f : Film → Film) : (s.onFilm f).film = f s.film := rfl
@[simp] theorem State.onFilm_link (f : Film → Film) : (s.onFilm f).link = s.link := rfl
@[simp] theorem State.onFilm_fonts (f : Film → Film) : (s.onFilm f).fonts = s.fonts := rfl
@[simp] theorem State.onFilm_turret (f : Film → Film) : (s.onFilm f).turret = s.turret := rfl
@[simp] theorem State.onFilm_jobs (f : Film → Film) : (s.onFilm f).jobs = s.jobs := rfl
@[simp] theorem State.onFilm_galleyOrder (f : Film → Film) : (s.onFilm f).galleyOrder = s.galleyOrder := rfl
@[simp] theorem State.onFilm_house (f : Film → Film) : (s.onFilm f).house = s.house := rfl
@[simp] theorem State.onFilm_houseLocked (f : Film → Film) : (s.onFilm f).houseLocked = s.houseLocked := rfl
@[simp] theorem State.onFilm_galleyGap (f : Film → Film) : (s.onFilm f).galleyGap = s.galleyGap := rfl
@[simp] theorem State.onFilm_exposureHead (f : Film → Film) : (s.onFilm f).exposureHead = s.exposureHead := rfl
@[simp] theorem State.onFilm_proofHead (f : Film → Film) : (s.onFilm f).proofHead = s.proofHead := rfl
@[simp] theorem State.onFilm_engine (f : Film → Film) : (s.onFilm f).engine = s.engine := rfl
@[simp] theorem State.onFilm_languages (f : Film → Film) : (s.onFilm f).languages = s.languages := rfl
@[simp] theorem State.onFilm_dict (f : Film → Film) : (s.onFilm f).dict = s.dict := rfl
@[simp] theorem State.onFilm_queue (f : Film → Film) : (s.onFilm f).queue = s.queue := rfl
@[simp] theorem State.onFilm_expo (f : Film → Film) : (s.onFilm f).expo = s.expo := rfl
@[simp] theorem State.onFilm_lamp (f : Film → Film) : (s.onFilm f).lamp = s.lamp := rfl
@[simp] theorem State.onFilm_proof (f : Film → Film) : (s.onFilm f).proof = s.proof := rfl
@[simp] theorem State.onFilm_freeCount (f : Film → Film) : (s.onFilm f).freeCount = s.freeCount := rfl
@[simp] theorem State.onFilm_pending (f : Film → Film) : (s.onFilm f).pending = s.pending := rfl

/-- `onProof` writes the field `proof` alone. -/
@[simp] theorem State.onProof_proof (f : Proof → Proof) : (s.onProof f).proof = f s.proof := rfl
@[simp] theorem State.onProof_link (f : Proof → Proof) : (s.onProof f).link = s.link := rfl
@[simp] theorem State.onProof_fonts (f : Proof → Proof) : (s.onProof f).fonts = s.fonts := rfl
@[simp] theorem State.onProof_turret (f : Proof → Proof) : (s.onProof f).turret = s.turret := rfl
@[simp] theorem State.onProof_jobs (f : Proof → Proof) : (s.onProof f).jobs = s.jobs := rfl
@[simp] theorem State.onProof_galleyOrder (f : Proof → Proof) : (s.onProof f).galleyOrder = s.galleyOrder := rfl
@[simp] theorem State.onProof_house (f : Proof → Proof) : (s.onProof f).house = s.house := rfl
@[simp] theorem State.onProof_houseLocked (f : Proof → Proof) : (s.onProof f).houseLocked = s.houseLocked := rfl
@[simp] theorem State.onProof_galleyGap (f : Proof → Proof) : (s.onProof f).galleyGap = s.galleyGap := rfl
@[simp] theorem State.onProof_exposureHead (f : Proof → Proof) : (s.onProof f).exposureHead = s.exposureHead := rfl
@[simp] theorem State.onProof_proofHead (f : Proof → Proof) : (s.onProof f).proofHead = s.proofHead := rfl
@[simp] theorem State.onProof_engine (f : Proof → Proof) : (s.onProof f).engine = s.engine := rfl
@[simp] theorem State.onProof_languages (f : Proof → Proof) : (s.onProof f).languages = s.languages := rfl
@[simp] theorem State.onProof_dict (f : Proof → Proof) : (s.onProof f).dict = s.dict := rfl
@[simp] theorem State.onProof_queue (f : Proof → Proof) : (s.onProof f).queue = s.queue := rfl
@[simp] theorem State.onProof_expo (f : Proof → Proof) : (s.onProof f).expo = s.expo := rfl
@[simp] theorem State.onProof_lamp (f : Proof → Proof) : (s.onProof f).lamp = s.lamp := rfl
@[simp] theorem State.onProof_film (f : Proof → Proof) : (s.onProof f).film = s.film := rfl
@[simp] theorem State.onProof_freeCount (f : Proof → Proof) : (s.onProof f).freeCount = s.freeCount := rfl
@[simp] theorem State.onProof_pending (f : Proof → Proof) : (s.onProof f).pending = s.pending := rfl

/-- `onJob` writes one job context. -/
@[simp] theorem State.onJob_jobs (n : Nat) (f : Job → Job) : (s.onJob n f).jobs = s.jobs.modify n f := rfl
@[simp] theorem State.onJob_link (n : Nat) (f : Job → Job) : (s.onJob n f).link = s.link := rfl
@[simp] theorem State.onJob_fonts (n : Nat) (f : Job → Job) : (s.onJob n f).fonts = s.fonts := rfl
@[simp] theorem State.onJob_turret (n : Nat) (f : Job → Job) : (s.onJob n f).turret = s.turret := rfl
@[simp] theorem State.onJob_galleyOrder (n : Nat) (f : Job → Job) : (s.onJob n f).galleyOrder = s.galleyOrder := rfl
@[simp] theorem State.onJob_house (n : Nat) (f : Job → Job) : (s.onJob n f).house = s.house := rfl
@[simp] theorem State.onJob_houseLocked (n : Nat) (f : Job → Job) : (s.onJob n f).houseLocked = s.houseLocked := rfl
@[simp] theorem State.onJob_galleyGap (n : Nat) (f : Job → Job) : (s.onJob n f).galleyGap = s.galleyGap := rfl
@[simp] theorem State.onJob_exposureHead (n : Nat) (f : Job → Job) : (s.onJob n f).exposureHead = s.exposureHead := rfl
@[simp] theorem State.onJob_proofHead (n : Nat) (f : Job → Job) : (s.onJob n f).proofHead = s.proofHead := rfl
@[simp] theorem State.onJob_engine (n : Nat) (f : Job → Job) : (s.onJob n f).engine = s.engine := rfl
@[simp] theorem State.onJob_languages (n : Nat) (f : Job → Job) : (s.onJob n f).languages = s.languages := rfl
@[simp] theorem State.onJob_dict (n : Nat) (f : Job → Job) : (s.onJob n f).dict = s.dict := rfl
@[simp] theorem State.onJob_queue (n : Nat) (f : Job → Job) : (s.onJob n f).queue = s.queue := rfl
@[simp] theorem State.onJob_expo (n : Nat) (f : Job → Job) : (s.onJob n f).expo = s.expo := rfl
@[simp] theorem State.onJob_lamp (n : Nat) (f : Job → Job) : (s.onJob n f).lamp = s.lamp := rfl
@[simp] theorem State.onJob_film (n : Nat) (f : Job → Job) : (s.onJob n f).film = s.film := rfl
@[simp] theorem State.onJob_proof (n : Nat) (f : Job → Job) : (s.onJob n f).proof = s.proof := rfl
@[simp] theorem State.onJob_freeCount (n : Nat) (f : Job → Job) : (s.onJob n f).freeCount = s.freeCount := rfl
@[simp] theorem State.onJob_pending (n : Nat) (f : Job → Job) : (s.onJob n f).pending = s.pending := rfl

/-- `onLine` writes one job's line in progress. -/
@[simp] theorem State.onLine_jobs (n : Nat) (f : LineInProgress → LineInProgress) :
    (s.onLine n f).jobs = s.jobs.modify n fun j => { j with line := f j.line } := rfl
@[simp] theorem State.onLine_link (n : Nat) (f : LineInProgress → LineInProgress) : (s.onLine n f).link = s.link := rfl
@[simp] theorem State.onLine_fonts (n : Nat) (f : LineInProgress → LineInProgress) : (s.onLine n f).fonts = s.fonts := rfl
@[simp] theorem State.onLine_turret (n : Nat) (f : LineInProgress → LineInProgress) : (s.onLine n f).turret = s.turret := rfl
@[simp] theorem State.onLine_galleyOrder (n : Nat) (f : LineInProgress → LineInProgress) : (s.onLine n f).galleyOrder = s.galleyOrder := rfl
@[simp] theorem State.onLine_house (n : Nat) (f : LineInProgress → LineInProgress) : (s.onLine n f).house = s.house := rfl
@[simp] theorem State.onLine_houseLocked (n : Nat) (f : LineInProgress → LineInProgress) : (s.onLine n f).houseLocked = s.houseLocked := rfl
@[simp] theorem State.onLine_galleyGap (n : Nat) (f : LineInProgress → LineInProgress) : (s.onLine n f).galleyGap = s.galleyGap := rfl
@[simp] theorem State.onLine_exposureHead (n : Nat) (f : LineInProgress → LineInProgress) : (s.onLine n f).exposureHead = s.exposureHead := rfl
@[simp] theorem State.onLine_proofHead (n : Nat) (f : LineInProgress → LineInProgress) : (s.onLine n f).proofHead = s.proofHead := rfl
@[simp] theorem State.onLine_engine (n : Nat) (f : LineInProgress → LineInProgress) : (s.onLine n f).engine = s.engine := rfl
@[simp] theorem State.onLine_languages (n : Nat) (f : LineInProgress → LineInProgress) : (s.onLine n f).languages = s.languages := rfl
@[simp] theorem State.onLine_dict (n : Nat) (f : LineInProgress → LineInProgress) : (s.onLine n f).dict = s.dict := rfl
@[simp] theorem State.onLine_queue (n : Nat) (f : LineInProgress → LineInProgress) : (s.onLine n f).queue = s.queue := rfl
@[simp] theorem State.onLine_expo (n : Nat) (f : LineInProgress → LineInProgress) : (s.onLine n f).expo = s.expo := rfl
@[simp] theorem State.onLine_lamp (n : Nat) (f : LineInProgress → LineInProgress) : (s.onLine n f).lamp = s.lamp := rfl
@[simp] theorem State.onLine_film (n : Nat) (f : LineInProgress → LineInProgress) : (s.onLine n f).film = s.film := rfl
@[simp] theorem State.onLine_proof (n : Nat) (f : LineInProgress → LineInProgress) : (s.onLine n f).proof = s.proof := rfl
@[simp] theorem State.onLine_freeCount (n : Nat) (f : LineInProgress → LineInProgress) : (s.onLine n f).freeCount = s.freeCount := rfl
@[simp] theorem State.onLine_pending (n : Nat) (f : LineInProgress → LineInProgress) : (s.onLine n f).pending = s.pending := rfl

/-- `onStation` writes one station record. -/
@[simp] theorem State.onStation_turret (n : Nat) (f : Station → Station) :
    (s.onStation n f).turret = { s.turret with stations := s.turret.stations.modify n f } := rfl
@[simp] theorem State.onStation_link (n : Nat) (f : Station → Station) : (s.onStation n f).link = s.link := rfl
@[simp] theorem State.onStation_fonts (n : Nat) (f : Station → Station) : (s.onStation n f).fonts = s.fonts := rfl
@[simp] theorem State.onStation_jobs (n : Nat) (f : Station → Station) : (s.onStation n f).jobs = s.jobs := rfl
@[simp] theorem State.onStation_galleyOrder (n : Nat) (f : Station → Station) : (s.onStation n f).galleyOrder = s.galleyOrder := rfl
@[simp] theorem State.onStation_house (n : Nat) (f : Station → Station) : (s.onStation n f).house = s.house := rfl
@[simp] theorem State.onStation_houseLocked (n : Nat) (f : Station → Station) : (s.onStation n f).houseLocked = s.houseLocked := rfl
@[simp] theorem State.onStation_galleyGap (n : Nat) (f : Station → Station) : (s.onStation n f).galleyGap = s.galleyGap := rfl
@[simp] theorem State.onStation_exposureHead (n : Nat) (f : Station → Station) : (s.onStation n f).exposureHead = s.exposureHead := rfl
@[simp] theorem State.onStation_proofHead (n : Nat) (f : Station → Station) : (s.onStation n f).proofHead = s.proofHead := rfl
@[simp] theorem State.onStation_engine (n : Nat) (f : Station → Station) : (s.onStation n f).engine = s.engine := rfl
@[simp] theorem State.onStation_languages (n : Nat) (f : Station → Station) : (s.onStation n f).languages = s.languages := rfl
@[simp] theorem State.onStation_dict (n : Nat) (f : Station → Station) : (s.onStation n f).dict = s.dict := rfl
@[simp] theorem State.onStation_queue (n : Nat) (f : Station → Station) : (s.onStation n f).queue = s.queue := rfl
@[simp] theorem State.onStation_expo (n : Nat) (f : Station → Station) : (s.onStation n f).expo = s.expo := rfl
@[simp] theorem State.onStation_lamp (n : Nat) (f : Station → Station) : (s.onStation n f).lamp = s.lamp := rfl
@[simp] theorem State.onStation_film (n : Nat) (f : Station → Station) : (s.onStation n f).film = s.film := rfl
@[simp] theorem State.onStation_proof (n : Nat) (f : Station → Station) : (s.onStation n f).proof = s.proof := rfl
@[simp] theorem State.onStation_freeCount (n : Nat) (f : Station → Station) : (s.onStation n f).freeCount = s.freeCount := rfl
@[simp] theorem State.onStation_pending (n : Nat) (f : Station → Station) : (s.onStation n f).pending = s.pending := rfl

/-- `onFont` writes the records of one font number. -/
@[simp] theorem State.onFont_fonts (n : Nat) (f : FontRecord → FontRecord) :
    (s.onFont n f).fonts = s.fonts.map fun r => if r.number == n then f r else r := rfl
@[simp] theorem State.onFont_link (n : Nat) (f : FontRecord → FontRecord) : (s.onFont n f).link = s.link := rfl
@[simp] theorem State.onFont_turret (n : Nat) (f : FontRecord → FontRecord) : (s.onFont n f).turret = s.turret := rfl
@[simp] theorem State.onFont_jobs (n : Nat) (f : FontRecord → FontRecord) : (s.onFont n f).jobs = s.jobs := rfl
@[simp] theorem State.onFont_galleyOrder (n : Nat) (f : FontRecord → FontRecord) : (s.onFont n f).galleyOrder = s.galleyOrder := rfl
@[simp] theorem State.onFont_house (n : Nat) (f : FontRecord → FontRecord) : (s.onFont n f).house = s.house := rfl
@[simp] theorem State.onFont_houseLocked (n : Nat) (f : FontRecord → FontRecord) : (s.onFont n f).houseLocked = s.houseLocked := rfl
@[simp] theorem State.onFont_galleyGap (n : Nat) (f : FontRecord → FontRecord) : (s.onFont n f).galleyGap = s.galleyGap := rfl
@[simp] theorem State.onFont_exposureHead (n : Nat) (f : FontRecord → FontRecord) : (s.onFont n f).exposureHead = s.exposureHead := rfl
@[simp] theorem State.onFont_proofHead (n : Nat) (f : FontRecord → FontRecord) : (s.onFont n f).proofHead = s.proofHead := rfl
@[simp] theorem State.onFont_engine (n : Nat) (f : FontRecord → FontRecord) : (s.onFont n f).engine = s.engine := rfl
@[simp] theorem State.onFont_languages (n : Nat) (f : FontRecord → FontRecord) : (s.onFont n f).languages = s.languages := rfl
@[simp] theorem State.onFont_dict (n : Nat) (f : FontRecord → FontRecord) : (s.onFont n f).dict = s.dict := rfl
@[simp] theorem State.onFont_queue (n : Nat) (f : FontRecord → FontRecord) : (s.onFont n f).queue = s.queue := rfl
@[simp] theorem State.onFont_expo (n : Nat) (f : FontRecord → FontRecord) : (s.onFont n f).expo = s.expo := rfl
@[simp] theorem State.onFont_lamp (n : Nat) (f : FontRecord → FontRecord) : (s.onFont n f).lamp = s.lamp := rfl
@[simp] theorem State.onFont_film (n : Nat) (f : FontRecord → FontRecord) : (s.onFont n f).film = s.film := rfl
@[simp] theorem State.onFont_proof (n : Nat) (f : FontRecord → FontRecord) : (s.onFont n f).proof = s.proof := rfl
@[simp] theorem State.onFont_freeCount (n : Nat) (f : FontRecord → FontRecord) : (s.onFont n f).freeCount = s.freeCount := rfl
@[simp] theorem State.onFont_pending (n : Nat) (f : FontRecord → FontRecord) : (s.onFont n f).pending = s.pending := rfl

/-- `raise` writes the notice summary. -/
@[simp] theorem State.raise_link (n : Notice) : (s.raise n).link = { s.link with summary := s.link.summary ||| n.mask } := rfl
@[simp] theorem State.raise_fonts (n : Notice) : (s.raise n).fonts = s.fonts := rfl
@[simp] theorem State.raise_turret (n : Notice) : (s.raise n).turret = s.turret := rfl
@[simp] theorem State.raise_jobs (n : Notice) : (s.raise n).jobs = s.jobs := rfl
@[simp] theorem State.raise_galleyOrder (n : Notice) : (s.raise n).galleyOrder = s.galleyOrder := rfl
@[simp] theorem State.raise_house (n : Notice) : (s.raise n).house = s.house := rfl
@[simp] theorem State.raise_houseLocked (n : Notice) : (s.raise n).houseLocked = s.houseLocked := rfl
@[simp] theorem State.raise_galleyGap (n : Notice) : (s.raise n).galleyGap = s.galleyGap := rfl
@[simp] theorem State.raise_exposureHead (n : Notice) : (s.raise n).exposureHead = s.exposureHead := rfl
@[simp] theorem State.raise_proofHead (n : Notice) : (s.raise n).proofHead = s.proofHead := rfl
@[simp] theorem State.raise_engine (n : Notice) : (s.raise n).engine = s.engine := rfl
@[simp] theorem State.raise_languages (n : Notice) : (s.raise n).languages = s.languages := rfl
@[simp] theorem State.raise_dict (n : Notice) : (s.raise n).dict = s.dict := rfl
@[simp] theorem State.raise_queue (n : Notice) : (s.raise n).queue = s.queue := rfl
@[simp] theorem State.raise_expo (n : Notice) : (s.raise n).expo = s.expo := rfl
@[simp] theorem State.raise_lamp (n : Notice) : (s.raise n).lamp = s.lamp := rfl
@[simp] theorem State.raise_film (n : Notice) : (s.raise n).film = s.film := rfl
@[simp] theorem State.raise_proof (n : Notice) : (s.raise n).proof = s.proof := rfl
@[simp] theorem State.raise_freeCount (n : Notice) : (s.raise n).freeCount = s.freeCount := rfl
@[simp] theorem State.raise_pending (n : Notice) : (s.raise n).pending = s.pending := rfl

/-- `retireWhere` writes the dictionary. -/
@[simp] theorem retireWhere_dict (p : DictEntry → Bool) : (retireWhere p s).dict = s.dict.filter fun e => !p e := rfl
@[simp] theorem retireWhere_link (p : DictEntry → Bool) : (retireWhere p s).link = s.link := rfl
@[simp] theorem retireWhere_fonts (p : DictEntry → Bool) : (retireWhere p s).fonts = s.fonts := rfl
@[simp] theorem retireWhere_turret (p : DictEntry → Bool) : (retireWhere p s).turret = s.turret := rfl
@[simp] theorem retireWhere_jobs (p : DictEntry → Bool) : (retireWhere p s).jobs = s.jobs := rfl
@[simp] theorem retireWhere_galleyOrder (p : DictEntry → Bool) : (retireWhere p s).galleyOrder = s.galleyOrder := rfl
@[simp] theorem retireWhere_house (p : DictEntry → Bool) : (retireWhere p s).house = s.house := rfl
@[simp] theorem retireWhere_houseLocked (p : DictEntry → Bool) : (retireWhere p s).houseLocked = s.houseLocked := rfl
@[simp] theorem retireWhere_galleyGap (p : DictEntry → Bool) : (retireWhere p s).galleyGap = s.galleyGap := rfl
@[simp] theorem retireWhere_exposureHead (p : DictEntry → Bool) : (retireWhere p s).exposureHead = s.exposureHead := rfl
@[simp] theorem retireWhere_proofHead (p : DictEntry → Bool) : (retireWhere p s).proofHead = s.proofHead := rfl
@[simp] theorem retireWhere_engine (p : DictEntry → Bool) : (retireWhere p s).engine = s.engine := rfl
@[simp] theorem retireWhere_languages (p : DictEntry → Bool) : (retireWhere p s).languages = s.languages := rfl
@[simp] theorem retireWhere_queue (p : DictEntry → Bool) : (retireWhere p s).queue = s.queue := rfl
@[simp] theorem retireWhere_expo (p : DictEntry → Bool) : (retireWhere p s).expo = s.expo := rfl
@[simp] theorem retireWhere_lamp (p : DictEntry → Bool) : (retireWhere p s).lamp = s.lamp := rfl
@[simp] theorem retireWhere_film (p : DictEntry → Bool) : (retireWhere p s).film = s.film := rfl
@[simp] theorem retireWhere_proof (p : DictEntry → Bool) : (retireWhere p s).proof = s.proof := rfl
@[simp] theorem retireWhere_freeCount (p : DictEntry → Bool) : (retireWhere p s).freeCount = s.freeCount := rfl
@[simp] theorem retireWhere_pending (p : DictEntry → Bool) : (retireWhere p s).pending = s.pending := rfl

/-- A rotation begun writes the motion and its direction alone (R20). -/
@[simp] theorem Turret.rotate_motion (p : Purpose) (n : Nat) (t : Turret) : (t.rotate p n).motion = .rotating p n := rfl
@[simp] theorem Turret.rotate_ascending (p : Purpose) (n : Nat) (t : Turret) :
    (t.rotate p n).ascending = ascendingTo t.position n := rfl
@[simp] theorem Turret.rotate_position (p : Purpose) (n : Nat) (t : Turret) : (t.rotate p n).position = t.position := rfl
@[simp] theorem Turret.rotate_pass (p : Purpose) (n : Nat) (t : Turret) : (t.rotate p n).pass = t.pass := rfl
@[simp] theorem Turret.rotate_stations (p : Purpose) (n : Nat) (t : Turret) : (t.rotate p n).stations = t.stations := rfl
@[simp] theorem Turret.rotate_latchEngaged (p : Purpose) (n : Nat) (t : Turret) : (t.rotate p n).latchEngaged = t.latchEngaged := rfl
@[simp] theorem Turret.rotate_hatchOpen (p : Purpose) (n : Nat) (t : Turret) : (t.rotate p n).hatchOpen = t.hatchOpen := rfl
@[simp] theorem Turret.rotate_hatchMark (p : Purpose) (n : Nat) (t : Turret) : (t.rotate p n).hatchMark = t.hatchMark := rfl
@[simp] theorem Turret.rotate_exchange (p : Purpose) (n : Nat) (t : Turret) : (t.rotate p n).exchange = t.exchange := rfl
@[simp] theorem Turret.rotate_cancelPending (p : Purpose) (n : Nat) (t : Turret) : (t.rotate p n).cancelPending = t.cancelPending := rfl
@[simp] theorem Turret.rotate_read (p : Purpose) (n : Nat) (t : Turret) : (t.rotate p n).read = t.read := rfl
@[simp] theorem Turret.rotate_protection (p : Purpose) (n : Nat) (t : Turret) : (t.rotate p n).protection = t.protection := rfl
@[simp] theorem Turret.rotate_lineOpen (p : Purpose) (n : Nat) (t : Turret) : (t.rotate p n).lineOpen = t.lineOpen := rfl
@[simp] theorem Turret.rotate_lineEndDue (p : Purpose) (n : Nat) (t : Turret) : (t.rotate p n).lineEndDue = t.lineEndDue := rfl

/-- The context of a slot after a change of that slot. -/
theorem State.job_onJob_self {n : Nat} (f : Job → Job) (h : n < s.jobs.length) : (s.onJob n f).job n = f (s.job n) := by
  simp [State.job, List.getD_eq_getElem?_getD, h]

/-- The context of another slot. -/
theorem State.job_onJob_ne {n m : Nat} (f : Job → Job) (h : n ≠ m) : (s.onJob n f).job m = s.job m := by
  simp [State.job, List.getD_eq_getElem?_getD, h]

/-- A station record after a change of that station. -/
theorem State.station_onStation_self {n : Nat} (f : Station → Station) (h : n < s.turret.stations.length) :
    (s.onStation n f).station n = f (s.station n) := by
  simp [State.station, List.getD_eq_getElem?_getD, h]

/-- Another station record. -/
theorem State.station_onStation_ne {n m : Nat} (f : Station → Station) (h : n ≠ m) :
    (s.onStation n f).station m = s.station m := by
  simp [State.station, List.getD_eq_getElem?_getD, h]

end Sys2Proof.Machine
end

