-- ==== Sys2Proof/Laws/Frames.lean ====
section
/-! SUPPORT. What each operation, each command's effect and each reaction of the closing part leaves unchanged: one lemma for each,
X_keeps, naming every field that X leaves as it was. -/

namespace Sys2Proof.Machine

open Sys2Proof

-- One theorem at a time: the lemmas are many, and each rests on those before it.
set_option Elab.async false

/-- What no update of a font record changes. -/
def FontRecord.key (r : FontRecord) : Nat × Nat := (r.number, r.master)

/-- A fold keeps what each of its steps keeps. -/
theorem foldl_keeps {α β γ : Type} {P : α → γ} {f : α → β → α} (h : ∀ s b, P (f s b) = P s) (s : α) (l : List β) :
    P (l.foldl f s) = P s := by
  induction l generalizing s with
  | nil => rfl
  | cons b l ih => simp [ih, h]

@[simp] theorem raiseIf_keeps (s : State) (b : Bool) (n : Notice) :
    (s.raiseIf b n).link.mask = s.link.mask ∧
    (s.raiseIf b n).link.throttleMs = s.link.throttleMs ∧
    (s.raiseIf b n).link.delayMs = s.link.delayMs ∧
    (s.raiseIf b n).link.limitMs = s.link.limitMs ∧
    (s.raiseIf b n).link.throttle = s.link.throttle ∧
    (s.raiseIf b n).link.delayTimer = s.link.delayTimer ∧
    (s.raiseIf b n).link.absTimer = s.link.absTimer ∧
    (s.raiseIf b n).link.cause = s.link.cause ∧
    (s.raiseIf b n).link.replies = s.link.replies ∧
    (s.raiseIf b n).link.direction = s.link.direction ∧
    (s.raiseIf b n).link.frameBegun = s.link.frameBegun ∧
    (s.raiseIf b n).link.discarding = s.link.discarding ∧
    (s.raiseIf b n).link.withheld = s.link.withheld ∧
    (s.raiseIf b n).fonts = s.fonts ∧
    (s.raiseIf b n).turret = s.turret ∧
    (s.raiseIf b n).jobs = s.jobs ∧
    (s.raiseIf b n).galleyOrder = s.galleyOrder ∧
    (s.raiseIf b n).house = s.house ∧
    (s.raiseIf b n).houseLocked = s.houseLocked ∧
    (s.raiseIf b n).galleyGap = s.galleyGap ∧
    (s.raiseIf b n).exposureHead = s.exposureHead ∧
    (s.raiseIf b n).proofHead = s.proofHead ∧
    (s.raiseIf b n).engine = s.engine ∧
    (s.raiseIf b n).languages = s.languages ∧
    (s.raiseIf b n).dict = s.dict ∧
    (s.raiseIf b n).queue = s.queue ∧
    (s.raiseIf b n).expo = s.expo ∧
    (s.raiseIf b n).lamp = s.lamp ∧
    (s.raiseIf b n).film = s.film ∧
    (s.raiseIf b n).proof = s.proof ∧
    (s.raiseIf b n).freeCount = s.freeCount ∧
    (s.raiseIf b n).pending = s.pending := by
  simp only [State.raiseIf]
  (repeat' split) <;> simp

@[simp] theorem pushReply_keeps (s : State) (c t : Byte) (a : Answer) :
    (s.pushReply c t a).link.mask = s.link.mask ∧
    (s.pushReply c t a).link.throttleMs = s.link.throttleMs ∧
    (s.pushReply c t a).link.delayMs = s.link.delayMs ∧
    (s.pushReply c t a).link.limitMs = s.link.limitMs ∧
    (s.pushReply c t a).link.throttle = s.link.throttle ∧
    (s.pushReply c t a).link.delayTimer = s.link.delayTimer ∧
    (s.pushReply c t a).link.absTimer = s.link.absTimer ∧
    (s.pushReply c t a).link.cause = s.link.cause ∧
    (s.pushReply c t a).link.frameBegun = s.link.frameBegun ∧
    (s.pushReply c t a).link.discarding = s.link.discarding ∧
    (s.pushReply c t a).link.withheld = s.link.withheld ∧
    (s.pushReply c t a).fonts = s.fonts ∧
    (s.pushReply c t a).turret = s.turret ∧
    (s.pushReply c t a).jobs = s.jobs ∧
    (s.pushReply c t a).galleyOrder = s.galleyOrder ∧
    (s.pushReply c t a).house = s.house ∧
    (s.pushReply c t a).houseLocked = s.houseLocked ∧
    (s.pushReply c t a).galleyGap = s.galleyGap ∧
    (s.pushReply c t a).exposureHead = s.exposureHead ∧
    (s.pushReply c t a).proofHead = s.proofHead ∧
    (s.pushReply c t a).engine = s.engine ∧
    (s.pushReply c t a).languages = s.languages ∧
    (s.pushReply c t a).dict = s.dict ∧
    (s.pushReply c t a).queue = s.queue ∧
    (s.pushReply c t a).expo = s.expo ∧
    (s.pushReply c t a).lamp = s.lamp ∧
    (s.pushReply c t a).film = s.film ∧
    (s.pushReply c t a).proof = s.proof ∧
    (s.pushReply c t a).freeCount = s.freeCount ∧
    (s.pushReply c t a).pending = s.pending := by
  simp [State.pushReply]

@[simp] theorem setStatus_keeps (s : State) (n : Nat) (c : CompStatus) :
    (s.setStatus n c).link.mask = s.link.mask ∧
    (s.setStatus n c).link.throttleMs = s.link.throttleMs ∧
    (s.setStatus n c).link.delayMs = s.link.delayMs ∧
    (s.setStatus n c).link.limitMs = s.link.limitMs ∧
    (s.setStatus n c).link.throttle = s.link.throttle ∧
    (s.setStatus n c).link.delayTimer = s.link.delayTimer ∧
    (s.setStatus n c).link.absTimer = s.link.absTimer ∧
    (s.setStatus n c).link.cause = s.link.cause ∧
    (s.setStatus n c).link.replies = s.link.replies ∧
    (s.setStatus n c).link.direction = s.link.direction ∧
    (s.setStatus n c).link.frameBegun = s.link.frameBegun ∧
    (s.setStatus n c).link.discarding = s.link.discarding ∧
    (s.setStatus n c).link.withheld = s.link.withheld ∧
    (s.setStatus n c).fonts = s.fonts ∧
    (s.setStatus n c).turret = s.turret ∧
    (s.setStatus n c).jobs.length = s.jobs.length ∧
    (s.setStatus n c).galleyOrder = s.galleyOrder ∧
    (s.setStatus n c).house = s.house ∧
    (s.setStatus n c).houseLocked = s.houseLocked ∧
    (s.setStatus n c).galleyGap = s.galleyGap ∧
    (s.setStatus n c).exposureHead = s.exposureHead ∧
    (s.setStatus n c).proofHead = s.proofHead ∧
    (s.setStatus n c).engine = s.engine ∧
    (s.setStatus n c).languages = s.languages ∧
    (s.setStatus n c).dict = s.dict ∧
    (s.setStatus n c).queue = s.queue ∧
    (s.setStatus n c).expo = s.expo ∧
    (s.setStatus n c).lamp = s.lamp ∧
    (s.setStatus n c).film = s.film ∧
    (s.setStatus n c).proof = s.proof ∧
    (s.setStatus n c).freeCount = s.freeCount ∧
    (s.setStatus n c).pending = s.pending := by
  simp only [State.setStatus]
  (repeat' split) <;> simp

@[simp] theorem reask_keeps (s : State) (n : Nat) :
    (s.reask n).link.mask = s.link.mask ∧
    (s.reask n).link.throttleMs = s.link.throttleMs ∧
    (s.reask n).link.delayMs = s.link.delayMs ∧
    (s.reask n).link.limitMs = s.link.limitMs ∧
    (s.reask n).link.throttle = s.link.throttle ∧
    (s.reask n).link.delayTimer = s.link.delayTimer ∧
    (s.reask n).link.absTimer = s.link.absTimer ∧
    (s.reask n).link.cause = s.link.cause ∧
    (s.reask n).link.replies = s.link.replies ∧
    (s.reask n).link.direction = s.link.direction ∧
    (s.reask n).link.frameBegun = s.link.frameBegun ∧
    (s.reask n).link.discarding = s.link.discarding ∧
    (s.reask n).link.withheld = s.link.withheld ∧
    (s.reask n).fonts = s.fonts ∧
    (s.reask n).turret = s.turret ∧
    (s.reask n).jobs.length = s.jobs.length ∧
    (s.reask n).galleyOrder = s.galleyOrder ∧
    (s.reask n).house = s.house ∧
    (s.reask n).houseLocked = s.houseLocked ∧
    (s.reask n).galleyGap = s.galleyGap ∧
    (s.reask n).exposureHead = s.exposureHead ∧
    (s.reask n).proofHead = s.proofHead ∧
    (s.reask n).engine = s.engine ∧
    (s.reask n).languages = s.languages ∧
    (s.reask n).dict = s.dict ∧
    (s.reask n).queue = s.queue ∧
    (s.reask n).expo = s.expo ∧
    (s.reask n).lamp = s.lamp ∧
    (s.reask n).film = s.film ∧
    (s.reask n).proof = s.proof ∧
    (s.reask n).freeCount = s.freeCount ∧
    (s.reask n).pending = s.pending := by
  simp only [State.reask]
  (repeat' split) <;> simp

@[simp] theorem reaskAll_keeps (s : State)  :
    (s.reaskAll).link.mask = s.link.mask ∧
    (s.reaskAll).link.throttleMs = s.link.throttleMs ∧
    (s.reaskAll).link.delayMs = s.link.delayMs ∧
    (s.reaskAll).link.limitMs = s.link.limitMs ∧
    (s.reaskAll).link.throttle = s.link.throttle ∧
    (s.reaskAll).link.delayTimer = s.link.delayTimer ∧
    (s.reaskAll).link.absTimer = s.link.absTimer ∧
    (s.reaskAll).link.cause = s.link.cause ∧
    (s.reaskAll).link.replies = s.link.replies ∧
    (s.reaskAll).link.direction = s.link.direction ∧
    (s.reaskAll).link.frameBegun = s.link.frameBegun ∧
    (s.reaskAll).link.discarding = s.link.discarding ∧
    (s.reaskAll).link.withheld = s.link.withheld ∧
    (s.reaskAll).fonts = s.fonts ∧
    (s.reaskAll).turret = s.turret ∧
    (s.reaskAll).jobs.length = s.jobs.length ∧
    (s.reaskAll).galleyOrder = s.galleyOrder ∧
    (s.reaskAll).house = s.house ∧
    (s.reaskAll).houseLocked = s.houseLocked ∧
    (s.reaskAll).galleyGap = s.galleyGap ∧
    (s.reaskAll).exposureHead = s.exposureHead ∧
    (s.reaskAll).proofHead = s.proofHead ∧
    (s.reaskAll).engine = s.engine ∧
    (s.reaskAll).languages = s.languages ∧
    (s.reaskAll).dict = s.dict ∧
    (s.reaskAll).queue = s.queue ∧
    (s.reaskAll).expo = s.expo ∧
    (s.reaskAll).lamp = s.lamp ∧
    (s.reaskAll).film = s.film ∧
    (s.reaskAll).proof = s.proof ∧
    (s.reaskAll).freeCount = s.freeCount ∧
    (s.reaskAll).pending = s.pending := by
  exact ⟨by (simp only [State.reaskAll]; exact foldl_keeps (P := fun s : State => s.link.mask) (fun s n => by simp) _ _), by (simp only [State.reaskAll]; exact foldl_keeps (P := fun s : State => s.link.throttleMs) (fun s n => by simp) _ _), by (simp only [State.reaskAll]; exact foldl_keeps (P := fun s : State => s.link.delayMs) (fun s n => by simp) _ _), by (simp only [State.reaskAll]; exact foldl_keeps (P := fun s : State => s.link.limitMs) (fun s n => by simp) _ _), by (simp only [State.reaskAll]; exact foldl_keeps (P := fun s : State => s.link.throttle) (fun s n => by simp) _ _), by (simp only [State.reaskAll]; exact foldl_keeps (P := fun s : State => s.link.delayTimer) (fun s n => by simp) _ _), by (simp only [State.reaskAll]; exact foldl_keeps (P := fun s : State => s.link.absTimer) (fun s n => by simp) _ _), by (simp only [State.reaskAll]; exact foldl_keeps (P := fun s : State => s.link.cause) (fun s n => by simp) _ _), by (simp only [State.reaskAll]; exact foldl_keeps (P := fun s : State => s.link.replies) (fun s n => by simp) _ _), by (simp only [State.reaskAll]; exact foldl_keeps (P := fun s : State => s.link.direction) (fun s n => by simp) _ _), by (simp only [State.reaskAll]; exact foldl_keeps (P := fun s : State => s.link.frameBegun) (fun s n => by simp) _ _), by (simp only [State.reaskAll]; exact foldl_keeps (P := fun s : State => s.link.discarding) (fun s n => by simp) _ _), by (simp only [State.reaskAll]; exact foldl_keeps (P := fun s : State => s.link.withheld) (fun s n => by simp) _ _), by (simp only [State.reaskAll]; exact foldl_keeps (P := fun s : State => s.fonts) (fun s n => by simp) _ _), by (simp only [State.reaskAll]; exact foldl_keeps (P := fun s : State => s.turret) (fun s n => by simp) _ _), by (simp only [State.reaskAll]; exact foldl_keeps (P := fun s : State => s.jobs.length) (fun s n => by simp) _ _), by (simp only [State.reaskAll]; exact foldl_keeps (P := fun s : State => s.galleyOrder) (fun s n => by simp) _ _), by (simp only [State.reaskAll]; exact foldl_keeps (P := fun s : State => s.house) (fun s n => by simp) _ _), by (simp only [State.reaskAll]; exact foldl_keeps (P := fun s : State => s.houseLocked) (fun s n => by simp) _ _), by (simp only [State.reaskAll]; exact foldl_keeps (P := fun s : State => s.galleyGap) (fun s n => by simp) _ _), by (simp only [State.reaskAll]; exact foldl_keeps (P := fun s : State => s.exposureHead) (fun s n => by simp) _ _), by (simp only [State.reaskAll]; exact foldl_keeps (P := fun s : State => s.proofHead) (fun s n => by simp) _ _), by (simp only [State.reaskAll]; exact foldl_keeps (P := fun s : State => s.engine) (fun s n => by simp) _ _), by (simp only [State.reaskAll]; exact foldl_keeps (P := fun s : State => s.languages) (fun s n => by simp) _ _), by (simp only [State.reaskAll]; exact foldl_keeps (P := fun s : State => s.dict) (fun s n => by simp) _ _), by (simp only [State.reaskAll]; exact foldl_keeps (P := fun s : State => s.queue) (fun s n => by simp) _ _), by (simp only [State.reaskAll]; exact foldl_keeps (P := fun s : State => s.expo) (fun s n => by simp) _ _), by (simp only [State.reaskAll]; exact foldl_keeps (P := fun s : State => s.lamp) (fun s n => by simp) _ _), by (simp only [State.reaskAll]; exact foldl_keeps (P := fun s : State => s.film) (fun s n => by simp) _ _), by (simp only [State.reaskAll]; exact foldl_keeps (P := fun s : State => s.proof) (fun s n => by simp) _ _), by (simp only [State.reaskAll]; exact foldl_keeps (P := fun s : State => s.freeCount) (fun s n => by simp) _ _), by (simp only [State.reaskAll]; exact foldl_keeps (P := fun s : State => s.pending) (fun s n => by simp) _ _)⟩

@[simp] theorem changeStation_keeps (s : State) (n : Nat) (f : Station → Station) :
    (s.changeStation n f).link.mask = s.link.mask ∧
    (s.changeStation n f).link.throttleMs = s.link.throttleMs ∧
    (s.changeStation n f).link.delayMs = s.link.delayMs ∧
    (s.changeStation n f).link.limitMs = s.link.limitMs ∧
    (s.changeStation n f).link.throttle = s.link.throttle ∧
    (s.changeStation n f).link.delayTimer = s.link.delayTimer ∧
    (s.changeStation n f).link.absTimer = s.link.absTimer ∧
    (s.changeStation n f).link.cause = s.link.cause ∧
    (s.changeStation n f).link.replies = s.link.replies ∧
    (s.changeStation n f).link.direction = s.link.direction ∧
    (s.changeStation n f).link.frameBegun = s.link.frameBegun ∧
    (s.changeStation n f).link.discarding = s.link.discarding ∧
    (s.changeStation n f).link.withheld = s.link.withheld ∧
    (s.changeStation n f).fonts = s.fonts ∧
    (s.changeStation n f).turret.position = s.turret.position ∧
    (s.changeStation n f).turret.motion = s.turret.motion ∧
    (s.changeStation n f).turret.pass = s.turret.pass ∧
    (s.changeStation n f).turret.latchEngaged = s.turret.latchEngaged ∧
    (s.changeStation n f).turret.hatchOpen = s.turret.hatchOpen ∧
    (s.changeStation n f).turret.hatchMark = s.turret.hatchMark ∧
    (s.changeStation n f).turret.exchange = s.turret.exchange ∧
    (s.changeStation n f).turret.cancelPending = s.turret.cancelPending ∧
    (s.changeStation n f).turret.read = s.turret.read ∧
    (s.changeStation n f).turret.protection = s.turret.protection ∧
    (s.changeStation n f).turret.lineOpen = s.turret.lineOpen ∧
    (s.changeStation n f).turret.lineEndDue = s.turret.lineEndDue ∧
    (s.changeStation n f).turret.stations.length = s.turret.stations.length ∧
    (s.changeStation n f).jobs.length = s.jobs.length ∧
    (s.changeStation n f).galleyOrder = s.galleyOrder ∧
    (s.changeStation n f).house = s.house ∧
    (s.changeStation n f).houseLocked = s.houseLocked ∧
    (s.changeStation n f).galleyGap = s.galleyGap ∧
    (s.changeStation n f).exposureHead = s.exposureHead ∧
    (s.changeStation n f).proofHead = s.proofHead ∧
    (s.changeStation n f).engine = s.engine ∧
    (s.changeStation n f).languages = s.languages ∧
    (s.changeStation n f).dict = s.dict ∧
    (s.changeStation n f).queue = s.queue ∧
    (s.changeStation n f).expo = s.expo ∧
    (s.changeStation n f).lamp = s.lamp ∧
    (s.changeStation n f).film = s.film ∧
    (s.changeStation n f).proof = s.proof ∧
    (s.changeStation n f).freeCount = s.freeCount ∧
    (s.changeStation n f).pending = s.pending := by
  simp [State.changeStation]

@[simp] theorem mount_keeps (s : State) (n k : Nat) :
    (s.mount n k).link.mask = s.link.mask ∧
    (s.mount n k).link.throttleMs = s.link.throttleMs ∧
    (s.mount n k).link.delayMs = s.link.delayMs ∧
    (s.mount n k).link.limitMs = s.link.limitMs ∧
    (s.mount n k).link.throttle = s.link.throttle ∧
    (s.mount n k).link.delayTimer = s.link.delayTimer ∧
    (s.mount n k).link.absTimer = s.link.absTimer ∧
    (s.mount n k).link.cause = s.link.cause ∧
    (s.mount n k).link.replies = s.link.replies ∧
    (s.mount n k).link.direction = s.link.direction ∧
    (s.mount n k).link.frameBegun = s.link.frameBegun ∧
    (s.mount n k).link.discarding = s.link.discarding ∧
    (s.mount n k).link.withheld = s.link.withheld ∧
    (s.mount n k).turret.position = s.turret.position ∧
    (s.mount n k).turret.motion = s.turret.motion ∧
    (s.mount n k).turret.pass = s.turret.pass ∧
    (s.mount n k).turret.latchEngaged = s.turret.latchEngaged ∧
    (s.mount n k).turret.hatchOpen = s.turret.hatchOpen ∧
    (s.mount n k).turret.hatchMark = s.turret.hatchMark ∧
    (s.mount n k).turret.exchange = s.turret.exchange ∧
    (s.mount n k).turret.cancelPending = s.turret.cancelPending ∧
    (s.mount n k).turret.read = s.turret.read ∧
    (s.mount n k).turret.protection = s.turret.protection ∧
    (s.mount n k).turret.lineOpen = s.turret.lineOpen ∧
    (s.mount n k).turret.lineEndDue = s.turret.lineEndDue ∧
    (s.mount n k).turret.stations.length = s.turret.stations.length ∧
    (s.mount n k).jobs.length = s.jobs.length ∧
    (s.mount n k).galleyOrder = s.galleyOrder ∧
    (s.mount n k).house = s.house ∧
    (s.mount n k).houseLocked = s.houseLocked ∧
    (s.mount n k).galleyGap = s.galleyGap ∧
    (s.mount n k).exposureHead = s.exposureHead ∧
    (s.mount n k).proofHead = s.proofHead ∧
    (s.mount n k).engine = s.engine ∧
    (s.mount n k).languages = s.languages ∧
    (s.mount n k).dict = s.dict ∧
    (s.mount n k).queue = s.queue ∧
    (s.mount n k).expo = s.expo ∧
    (s.mount n k).lamp = s.lamp ∧
    (s.mount n k).film = s.film ∧
    (s.mount n k).proof = s.proof ∧
    (s.mount n k).freeCount = s.freeCount ∧
    (s.mount n k).pending = s.pending := by
  simp [State.mount]

@[simp] theorem settleStation_keeps (s : State) (n : Nat) :
    (s.settleStation n).link.mask = s.link.mask ∧
    (s.settleStation n).link.throttleMs = s.link.throttleMs ∧
    (s.settleStation n).link.delayMs = s.link.delayMs ∧
    (s.settleStation n).link.limitMs = s.link.limitMs ∧
    (s.settleStation n).link.throttle = s.link.throttle ∧
    (s.settleStation n).link.delayTimer = s.link.delayTimer ∧
    (s.settleStation n).link.absTimer = s.link.absTimer ∧
    (s.settleStation n).link.cause = s.link.cause ∧
    (s.settleStation n).link.replies = s.link.replies ∧
    (s.settleStation n).link.direction = s.link.direction ∧
    (s.settleStation n).link.frameBegun = s.link.frameBegun ∧
    (s.settleStation n).link.discarding = s.link.discarding ∧
    (s.settleStation n).link.withheld = s.link.withheld ∧
    (s.settleStation n).turret.position = s.turret.position ∧
    (s.settleStation n).turret.motion = s.turret.motion ∧
    (s.settleStation n).turret.pass = s.turret.pass ∧
    (s.settleStation n).turret.latchEngaged = s.turret.latchEngaged ∧
    (s.settleStation n).turret.hatchOpen = s.turret.hatchOpen ∧
    (s.settleStation n).turret.hatchMark = s.turret.hatchMark ∧
    (s.settleStation n).turret.exchange = s.turret.exchange ∧
    (s.settleStation n).turret.cancelPending = s.turret.cancelPending ∧
    (s.settleStation n).turret.read = s.turret.read ∧
    (s.settleStation n).turret.protection = s.turret.protection ∧
    (s.settleStation n).turret.lineOpen = s.turret.lineOpen ∧
    (s.settleStation n).turret.lineEndDue = s.turret.lineEndDue ∧
    (s.settleStation n).turret.stations.length = s.turret.stations.length ∧
    (s.settleStation n).jobs.length = s.jobs.length ∧
    (s.settleStation n).galleyOrder = s.galleyOrder ∧
    (s.settleStation n).house = s.house ∧
    (s.settleStation n).houseLocked = s.houseLocked ∧
    (s.settleStation n).galleyGap = s.galleyGap ∧
    (s.settleStation n).exposureHead = s.exposureHead ∧
    (s.settleStation n).proofHead = s.proofHead ∧
    (s.settleStation n).engine = s.engine ∧
    (s.settleStation n).languages = s.languages ∧
    (s.settleStation n).dict = s.dict ∧
    (s.settleStation n).queue = s.queue ∧
    (s.settleStation n).expo = s.expo ∧
    (s.settleStation n).lamp = s.lamp ∧
    (s.settleStation n).film = s.film ∧
    (s.settleStation n).proof = s.proof ∧
    (s.settleStation n).freeCount = s.freeCount ∧
    (s.settleStation n).pending = s.pending := by
  simp only [State.settleStation]
  (repeat' split) <;> simp

@[simp] theorem endExchange_keeps (s : State)  :
    (s.endExchange).link = s.link ∧
    (s.endExchange).fonts = s.fonts ∧
    (s.endExchange).turret.position = s.turret.position ∧
    (s.endExchange).turret.motion = s.turret.motion ∧
    (s.endExchange).turret.pass = s.turret.pass ∧
    (s.endExchange).turret.latchEngaged = s.turret.latchEngaged ∧
    (s.endExchange).turret.hatchOpen = s.turret.hatchOpen ∧
    (s.endExchange).turret.read = s.turret.read ∧
    (s.endExchange).turret.protection = s.turret.protection ∧
    (s.endExchange).turret.lineOpen = s.turret.lineOpen ∧
    (s.endExchange).turret.lineEndDue = s.turret.lineEndDue ∧
    (s.endExchange).turret.stations.length = s.turret.stations.length ∧
    (s.endExchange).jobs = s.jobs ∧
    (s.endExchange).galleyOrder = s.galleyOrder ∧
    (s.endExchange).house = s.house ∧
    (s.endExchange).houseLocked = s.houseLocked ∧
    (s.endExchange).galleyGap = s.galleyGap ∧
    (s.endExchange).exposureHead = s.exposureHead ∧
    (s.endExchange).proofHead = s.proofHead ∧
    (s.endExchange).engine = s.engine ∧
    (s.endExchange).languages = s.languages ∧
    (s.endExchange).dict = s.dict ∧
    (s.endExchange).queue = s.queue ∧
    (s.endExchange).expo = s.expo ∧
    (s.endExchange).lamp = s.lamp ∧
    (s.endExchange).film = s.film ∧
    (s.endExchange).proof = s.proof ∧
    (s.endExchange).freeCount = s.freeCount ∧
    (s.endExchange).pending = s.pending := by
  simp [State.endExchange]

@[simp] theorem releaseHatch_keeps (s : State) (n : Nat) :
    (s.releaseHatch n).link.mask = s.link.mask ∧
    (s.releaseHatch n).link.throttleMs = s.link.throttleMs ∧
    (s.releaseHatch n).link.delayMs = s.link.delayMs ∧
    (s.releaseHatch n).link.limitMs = s.link.limitMs ∧
    (s.releaseHatch n).link.throttle = s.link.throttle ∧
    (s.releaseHatch n).link.delayTimer = s.link.delayTimer ∧
    (s.releaseHatch n).link.absTimer = s.link.absTimer ∧
    (s.releaseHatch n).link.cause = s.link.cause ∧
    (s.releaseHatch n).link.replies = s.link.replies ∧
    (s.releaseHatch n).link.direction = s.link.direction ∧
    (s.releaseHatch n).link.frameBegun = s.link.frameBegun ∧
    (s.releaseHatch n).link.discarding = s.link.discarding ∧
    (s.releaseHatch n).link.withheld = s.link.withheld ∧
    (s.releaseHatch n).turret.position = s.turret.position ∧
    (s.releaseHatch n).turret.motion = s.turret.motion ∧
    (s.releaseHatch n).turret.pass = s.turret.pass ∧
    (s.releaseHatch n).turret.hatchOpen = s.turret.hatchOpen ∧
    (s.releaseHatch n).turret.exchange = s.turret.exchange ∧
    (s.releaseHatch n).turret.cancelPending = s.turret.cancelPending ∧
    (s.releaseHatch n).turret.read = s.turret.read ∧
    (s.releaseHatch n).turret.protection = s.turret.protection ∧
    (s.releaseHatch n).turret.lineOpen = s.turret.lineOpen ∧
    (s.releaseHatch n).turret.lineEndDue = s.turret.lineEndDue ∧
    (s.releaseHatch n).turret.stations.length = s.turret.stations.length ∧
    (s.releaseHatch n).jobs.length = s.jobs.length ∧
    (s.releaseHatch n).galleyOrder = s.galleyOrder ∧
    (s.releaseHatch n).house = s.house ∧
    (s.releaseHatch n).houseLocked = s.houseLocked ∧
    (s.releaseHatch n).galleyGap = s.galleyGap ∧
    (s.releaseHatch n).exposureHead = s.exposureHead ∧
    (s.releaseHatch n).proofHead = s.proofHead ∧
    (s.releaseHatch n).engine = s.engine ∧
    (s.releaseHatch n).languages = s.languages ∧
    (s.releaseHatch n).dict = s.dict ∧
    (s.releaseHatch n).queue = s.queue ∧
    (s.releaseHatch n).expo = s.expo ∧
    (s.releaseHatch n).lamp = s.lamp ∧
    (s.releaseHatch n).film = s.film ∧
    (s.releaseHatch n).proof = s.proof ∧
    (s.releaseHatch n).freeCount = s.freeCount ∧
    (s.releaseHatch n).pending = s.pending := by
  simp only [State.releaseHatch]
  (repeat' split) <;> simp

@[simp] theorem returnPrior_keeps (s : State) (n : Nat) :
    (s.returnPrior n).link.mask = s.link.mask ∧
    (s.returnPrior n).link.throttleMs = s.link.throttleMs ∧
    (s.returnPrior n).link.delayMs = s.link.delayMs ∧
    (s.returnPrior n).link.limitMs = s.link.limitMs ∧
    (s.returnPrior n).link.throttle = s.link.throttle ∧
    (s.returnPrior n).link.delayTimer = s.link.delayTimer ∧
    (s.returnPrior n).link.absTimer = s.link.absTimer ∧
    (s.returnPrior n).link.cause = s.link.cause ∧
    (s.returnPrior n).link.replies = s.link.replies ∧
    (s.returnPrior n).link.direction = s.link.direction ∧
    (s.returnPrior n).link.frameBegun = s.link.frameBegun ∧
    (s.returnPrior n).link.discarding = s.link.discarding ∧
    (s.returnPrior n).link.withheld = s.link.withheld ∧
    (s.returnPrior n).turret.position = s.turret.position ∧
    (s.returnPrior n).turret.motion = s.turret.motion ∧
    (s.returnPrior n).turret.pass = s.turret.pass ∧
    (s.returnPrior n).turret.latchEngaged = s.turret.latchEngaged ∧
    (s.returnPrior n).turret.hatchOpen = s.turret.hatchOpen ∧
    (s.returnPrior n).turret.read = s.turret.read ∧
    (s.returnPrior n).turret.protection = s.turret.protection ∧
    (s.returnPrior n).turret.lineOpen = s.turret.lineOpen ∧
    (s.returnPrior n).turret.lineEndDue = s.turret.lineEndDue ∧
    (s.returnPrior n).turret.stations.length = s.turret.stations.length ∧
    (s.returnPrior n).jobs.length = s.jobs.length ∧
    (s.returnPrior n).galleyOrder = s.galleyOrder ∧
    (s.returnPrior n).house = s.house ∧
    (s.returnPrior n).houseLocked = s.houseLocked ∧
    (s.returnPrior n).galleyGap = s.galleyGap ∧
    (s.returnPrior n).exposureHead = s.exposureHead ∧
    (s.returnPrior n).proofHead = s.proofHead ∧
    (s.returnPrior n).engine = s.engine ∧
    (s.returnPrior n).languages = s.languages ∧
    (s.returnPrior n).dict = s.dict ∧
    (s.returnPrior n).queue = s.queue ∧
    (s.returnPrior n).expo = s.expo ∧
    (s.returnPrior n).lamp = s.lamp ∧
    (s.returnPrior n).film = s.film ∧
    (s.returnPrior n).proof = s.proof ∧
    (s.returnPrior n).freeCount = s.freeCount ∧
    (s.returnPrior n).pending = s.pending := by
  simp only [State.returnPrior]
  (repeat' split) <;> simp

@[simp] theorem beginPositioning_keeps (s : State) (n : Nat) :
    (s.beginPositioning n).link.mask = s.link.mask ∧
    (s.beginPositioning n).link.throttleMs = s.link.throttleMs ∧
    (s.beginPositioning n).link.delayMs = s.link.delayMs ∧
    (s.beginPositioning n).link.limitMs = s.link.limitMs ∧
    (s.beginPositioning n).link.throttle = s.link.throttle ∧
    (s.beginPositioning n).link.delayTimer = s.link.delayTimer ∧
    (s.beginPositioning n).link.absTimer = s.link.absTimer ∧
    (s.beginPositioning n).link.cause = s.link.cause ∧
    (s.beginPositioning n).link.replies = s.link.replies ∧
    (s.beginPositioning n).link.direction = s.link.direction ∧
    (s.beginPositioning n).link.frameBegun = s.link.frameBegun ∧
    (s.beginPositioning n).link.discarding = s.link.discarding ∧
    (s.beginPositioning n).link.withheld = s.link.withheld ∧
    (s.beginPositioning n).turret.position = s.turret.position ∧
    (s.beginPositioning n).turret.pass = s.turret.pass ∧
    (s.beginPositioning n).turret.hatchOpen = s.turret.hatchOpen ∧
    (s.beginPositioning n).turret.exchange = s.turret.exchange ∧
    (s.beginPositioning n).turret.cancelPending = s.turret.cancelPending ∧
    (s.beginPositioning n).turret.read = s.turret.read ∧
    (s.beginPositioning n).turret.protection = s.turret.protection ∧
    (s.beginPositioning n).turret.lineOpen = s.turret.lineOpen ∧
    (s.beginPositioning n).turret.lineEndDue = s.turret.lineEndDue ∧
    (s.beginPositioning n).turret.stations.length = s.turret.stations.length ∧
    (s.beginPositioning n).jobs.length = s.jobs.length ∧
    (s.beginPositioning n).galleyOrder = s.galleyOrder ∧
    (s.beginPositioning n).house = s.house ∧
    (s.beginPositioning n).houseLocked = s.houseLocked ∧
    (s.beginPositioning n).galleyGap = s.galleyGap ∧
    (s.beginPositioning n).exposureHead = s.exposureHead ∧
    (s.beginPositioning n).proofHead = s.proofHead ∧
    (s.beginPositioning n).engine = s.engine ∧
    (s.beginPositioning n).languages = s.languages ∧
    (s.beginPositioning n).dict = s.dict ∧
    (s.beginPositioning n).queue = s.queue ∧
    (s.beginPositioning n).expo = s.expo ∧
    (s.beginPositioning n).lamp = s.lamp ∧
    (s.beginPositioning n).film = s.film ∧
    (s.beginPositioning n).proof = s.proof ∧
    (s.beginPositioning n).freeCount = s.freeCount ∧
    (s.beginPositioning n).pending = s.pending := by
  simp only [State.beginPositioning]
  (repeat' split) <;> simp

@[simp] theorem beginRead_keeps (s : State)  :
    (s.beginRead).link = s.link ∧
    (s.beginRead).fonts = s.fonts ∧
    (s.beginRead).turret.position = s.turret.position ∧
    (s.beginRead).turret.motion = s.turret.motion ∧
    (s.beginRead).turret.pass = s.turret.pass ∧
    (s.beginRead).turret.latchEngaged = s.turret.latchEngaged ∧
    (s.beginRead).turret.hatchOpen = s.turret.hatchOpen ∧
    (s.beginRead).turret.hatchMark = s.turret.hatchMark ∧
    (s.beginRead).turret.exchange = s.turret.exchange ∧
    (s.beginRead).turret.cancelPending = s.turret.cancelPending ∧
    (s.beginRead).turret.protection = s.turret.protection ∧
    (s.beginRead).turret.lineOpen = s.turret.lineOpen ∧
    (s.beginRead).turret.lineEndDue = s.turret.lineEndDue ∧
    (s.beginRead).turret.stations.length = s.turret.stations.length ∧
    (s.beginRead).jobs = s.jobs ∧
    (s.beginRead).galleyOrder = s.galleyOrder ∧
    (s.beginRead).house = s.house ∧
    (s.beginRead).houseLocked = s.houseLocked ∧
    (s.beginRead).galleyGap = s.galleyGap ∧
    (s.beginRead).exposureHead = s.exposureHead ∧
    (s.beginRead).proofHead = s.proofHead ∧
    (s.beginRead).engine = s.engine ∧
    (s.beginRead).languages = s.languages ∧
    (s.beginRead).dict = s.dict ∧
    (s.beginRead).queue = s.queue ∧
    (s.beginRead).expo = s.expo ∧
    (s.beginRead).lamp = s.lamp ∧
    (s.beginRead).film = s.film ∧
    (s.beginRead).proof = s.proof ∧
    (s.beginRead).freeCount = s.freeCount ∧
    (s.beginRead).pending = s.pending := by
  simp [State.beginRead]

@[simp] theorem rotationArrivalEffect_keeps (s : State)  :
    (rotationArrivalEffect s).link.mask = s.link.mask ∧
    (rotationArrivalEffect s).link.throttleMs = s.link.throttleMs ∧
    (rotationArrivalEffect s).link.delayMs = s.link.delayMs ∧
    (rotationArrivalEffect s).link.limitMs = s.link.limitMs ∧
    (rotationArrivalEffect s).link.throttle = s.link.throttle ∧
    (rotationArrivalEffect s).link.delayTimer = s.link.delayTimer ∧
    (rotationArrivalEffect s).link.absTimer = s.link.absTimer ∧
    (rotationArrivalEffect s).link.cause = s.link.cause ∧
    (rotationArrivalEffect s).link.replies = s.link.replies ∧
    (rotationArrivalEffect s).link.direction = s.link.direction ∧
    (rotationArrivalEffect s).link.frameBegun = s.link.frameBegun ∧
    (rotationArrivalEffect s).link.discarding = s.link.discarding ∧
    (rotationArrivalEffect s).link.withheld = s.link.withheld ∧
    (rotationArrivalEffect s).turret.hatchOpen = s.turret.hatchOpen ∧
    (rotationArrivalEffect s).turret.protection = s.turret.protection ∧
    (rotationArrivalEffect s).turret.stations.length = s.turret.stations.length ∧
    (rotationArrivalEffect s).jobs.length = s.jobs.length ∧
    (rotationArrivalEffect s).galleyOrder = s.galleyOrder ∧
    (rotationArrivalEffect s).house = s.house ∧
    (rotationArrivalEffect s).houseLocked = s.houseLocked ∧
    (rotationArrivalEffect s).galleyGap = s.galleyGap ∧
    (rotationArrivalEffect s).exposureHead = s.exposureHead ∧
    (rotationArrivalEffect s).proofHead = s.proofHead ∧
    (rotationArrivalEffect s).engine = s.engine ∧
    (rotationArrivalEffect s).languages = s.languages ∧
    (rotationArrivalEffect s).dict = s.dict ∧
    (rotationArrivalEffect s).queue = s.queue ∧
    (rotationArrivalEffect s).expo = s.expo ∧
    (rotationArrivalEffect s).lamp = s.lamp ∧
    (rotationArrivalEffect s).film = s.film ∧
    (rotationArrivalEffect s).proof = s.proof ∧
    (rotationArrivalEffect s).freeCount = s.freeCount ∧
    (rotationArrivalEffect s).pending = s.pending := by
  simp only [rotationArrivalEffect]
  (repeat' split) <;> simp

@[simp] theorem indexFoundEffect_keeps (s : State)  :
    (indexFoundEffect s).link = s.link ∧
    (indexFoundEffect s).fonts = s.fonts ∧
    (indexFoundEffect s).turret.latchEngaged = s.turret.latchEngaged ∧
    (indexFoundEffect s).turret.hatchOpen = s.turret.hatchOpen ∧
    (indexFoundEffect s).turret.hatchMark = s.turret.hatchMark ∧
    (indexFoundEffect s).turret.exchange = s.turret.exchange ∧
    (indexFoundEffect s).turret.cancelPending = s.turret.cancelPending ∧
    (indexFoundEffect s).turret.protection = s.turret.protection ∧
    (indexFoundEffect s).turret.lineOpen = s.turret.lineOpen ∧
    (indexFoundEffect s).turret.lineEndDue = s.turret.lineEndDue ∧
    (indexFoundEffect s).turret.stations.length = s.turret.stations.length ∧
    (indexFoundEffect s).jobs = s.jobs ∧
    (indexFoundEffect s).galleyOrder = s.galleyOrder ∧
    (indexFoundEffect s).house = s.house ∧
    (indexFoundEffect s).houseLocked = s.houseLocked ∧
    (indexFoundEffect s).galleyGap = s.galleyGap ∧
    (indexFoundEffect s).exposureHead = s.exposureHead ∧
    (indexFoundEffect s).proofHead = s.proofHead ∧
    (indexFoundEffect s).engine = s.engine ∧
    (indexFoundEffect s).languages = s.languages ∧
    (indexFoundEffect s).dict = s.dict ∧
    (indexFoundEffect s).queue = s.queue ∧
    (indexFoundEffect s).expo = s.expo ∧
    (indexFoundEffect s).lamp = s.lamp ∧
    (indexFoundEffect s).film = s.film ∧
    (indexFoundEffect s).proof = s.proof ∧
    (indexFoundEffect s).freeCount = s.freeCount ∧
    (indexFoundEffect s).pending = s.pending := by
  simp only [indexFoundEffect]
  (repeat' split) <;> simp

@[simp] theorem hatchOpenedEffect_keeps (s : State)  :
    (hatchOpenedEffect s).link = s.link ∧
    (hatchOpenedEffect s).fonts = s.fonts ∧
    (hatchOpenedEffect s).turret.position = s.turret.position ∧
    (hatchOpenedEffect s).turret.motion = s.turret.motion ∧
    (hatchOpenedEffect s).turret.pass = s.turret.pass ∧
    (hatchOpenedEffect s).turret.latchEngaged = s.turret.latchEngaged ∧
    (hatchOpenedEffect s).turret.exchange = s.turret.exchange ∧
    (hatchOpenedEffect s).turret.cancelPending = s.turret.cancelPending ∧
    (hatchOpenedEffect s).turret.read = s.turret.read ∧
    (hatchOpenedEffect s).turret.protection = s.turret.protection ∧
    (hatchOpenedEffect s).turret.lineOpen = s.turret.lineOpen ∧
    (hatchOpenedEffect s).turret.lineEndDue = s.turret.lineEndDue ∧
    (hatchOpenedEffect s).turret.stations.length = s.turret.stations.length ∧
    (hatchOpenedEffect s).jobs = s.jobs ∧
    (hatchOpenedEffect s).galleyOrder = s.galleyOrder ∧
    (hatchOpenedEffect s).house = s.house ∧
    (hatchOpenedEffect s).houseLocked = s.houseLocked ∧
    (hatchOpenedEffect s).galleyGap = s.galleyGap ∧
    (hatchOpenedEffect s).exposureHead = s.exposureHead ∧
    (hatchOpenedEffect s).proofHead = s.proofHead ∧
    (hatchOpenedEffect s).engine = s.engine ∧
    (hatchOpenedEffect s).languages = s.languages ∧
    (hatchOpenedEffect s).dict = s.dict ∧
    (hatchOpenedEffect s).queue = s.queue ∧
    (hatchOpenedEffect s).expo = s.expo ∧
    (hatchOpenedEffect s).lamp = s.lamp ∧
    (hatchOpenedEffect s).film = s.film ∧
    (hatchOpenedEffect s).proof = s.proof ∧
    (hatchOpenedEffect s).freeCount = s.freeCount ∧
    (hatchOpenedEffect s).pending = s.pending := by
  simp [hatchOpenedEffect]

@[simp] theorem hatchClosedEffect_keeps (s : State)  :
    (hatchClosedEffect s).link.mask = s.link.mask ∧
    (hatchClosedEffect s).link.throttleMs = s.link.throttleMs ∧
    (hatchClosedEffect s).link.delayMs = s.link.delayMs ∧
    (hatchClosedEffect s).link.limitMs = s.link.limitMs ∧
    (hatchClosedEffect s).link.throttle = s.link.throttle ∧
    (hatchClosedEffect s).link.delayTimer = s.link.delayTimer ∧
    (hatchClosedEffect s).link.absTimer = s.link.absTimer ∧
    (hatchClosedEffect s).link.cause = s.link.cause ∧
    (hatchClosedEffect s).link.replies = s.link.replies ∧
    (hatchClosedEffect s).link.direction = s.link.direction ∧
    (hatchClosedEffect s).link.frameBegun = s.link.frameBegun ∧
    (hatchClosedEffect s).link.discarding = s.link.discarding ∧
    (hatchClosedEffect s).link.withheld = s.link.withheld ∧
    (hatchClosedEffect s).fonts = s.fonts ∧
    (hatchClosedEffect s).turret.position = s.turret.position ∧
    (hatchClosedEffect s).turret.motion = s.turret.motion ∧
    (hatchClosedEffect s).turret.hatchMark = s.turret.hatchMark ∧
    (hatchClosedEffect s).turret.exchange = s.turret.exchange ∧
    (hatchClosedEffect s).turret.cancelPending = s.turret.cancelPending ∧
    (hatchClosedEffect s).turret.protection = s.turret.protection ∧
    (hatchClosedEffect s).turret.lineOpen = s.turret.lineOpen ∧
    (hatchClosedEffect s).turret.lineEndDue = s.turret.lineEndDue ∧
    (hatchClosedEffect s).turret.stations.length = s.turret.stations.length ∧
    (hatchClosedEffect s).jobs.length = s.jobs.length ∧
    (hatchClosedEffect s).galleyOrder = s.galleyOrder ∧
    (hatchClosedEffect s).house = s.house ∧
    (hatchClosedEffect s).houseLocked = s.houseLocked ∧
    (hatchClosedEffect s).galleyGap = s.galleyGap ∧
    (hatchClosedEffect s).exposureHead = s.exposureHead ∧
    (hatchClosedEffect s).proofHead = s.proofHead ∧
    (hatchClosedEffect s).engine = s.engine ∧
    (hatchClosedEffect s).languages = s.languages ∧
    (hatchClosedEffect s).dict = s.dict ∧
    (hatchClosedEffect s).queue = s.queue ∧
    (hatchClosedEffect s).expo = s.expo ∧
    (hatchClosedEffect s).lamp = s.lamp ∧
    (hatchClosedEffect s).film = s.film ∧
    (hatchClosedEffect s).proof = s.proof ∧
    (hatchClosedEffect s).freeCount = s.freeCount ∧
    (hatchClosedEffect s).pending = s.pending := by
  simp only [hatchClosedEffect]
  (repeat' split) <;> simp

@[simp] theorem verdict_keeps (s : State) (c : Nat) :
    (s.verdict c).link.mask = s.link.mask ∧
    (s.verdict c).link.throttleMs = s.link.throttleMs ∧
    (s.verdict c).link.delayMs = s.link.delayMs ∧
    (s.verdict c).link.limitMs = s.link.limitMs ∧
    (s.verdict c).link.throttle = s.link.throttle ∧
    (s.verdict c).link.delayTimer = s.link.delayTimer ∧
    (s.verdict c).link.absTimer = s.link.absTimer ∧
    (s.verdict c).link.cause = s.link.cause ∧
    (s.verdict c).link.replies = s.link.replies ∧
    (s.verdict c).link.direction = s.link.direction ∧
    (s.verdict c).link.frameBegun = s.link.frameBegun ∧
    (s.verdict c).link.discarding = s.link.discarding ∧
    (s.verdict c).link.withheld = s.link.withheld ∧
    (s.verdict c).turret.position = s.turret.position ∧
    (s.verdict c).turret.latchEngaged = s.turret.latchEngaged ∧
    (s.verdict c).turret.hatchOpen = s.turret.hatchOpen ∧
    (s.verdict c).turret.protection = s.turret.protection ∧
    (s.verdict c).turret.lineOpen = s.turret.lineOpen ∧
    (s.verdict c).turret.lineEndDue = s.turret.lineEndDue ∧
    (s.verdict c).turret.stations.length = s.turret.stations.length ∧
    (s.verdict c).jobs.length = s.jobs.length ∧
    (s.verdict c).galleyOrder = s.galleyOrder ∧
    (s.verdict c).house = s.house ∧
    (s.verdict c).houseLocked = s.houseLocked ∧
    (s.verdict c).galleyGap = s.galleyGap ∧
    (s.verdict c).exposureHead = s.exposureHead ∧
    (s.verdict c).proofHead = s.proofHead ∧
    (s.verdict c).engine = s.engine ∧
    (s.verdict c).languages = s.languages ∧
    (s.verdict c).dict = s.dict ∧
    (s.verdict c).queue = s.queue ∧
    (s.verdict c).expo = s.expo ∧
    (s.verdict c).lamp = s.lamp ∧
    (s.verdict c).film = s.film ∧
    (s.verdict c).proof = s.proof ∧
    (s.verdict c).freeCount = s.freeCount ∧
    (s.verdict c).pending = s.pending := by
  simp only [State.verdict]
  (repeat' split) <;> simp

@[simp] theorem stripReadCompleteEffect_keeps (s : State) (c : Nat) :
    (stripReadCompleteEffect c s).link.mask = s.link.mask ∧
    (stripReadCompleteEffect c s).link.throttleMs = s.link.throttleMs ∧
    (stripReadCompleteEffect c s).link.delayMs = s.link.delayMs ∧
    (stripReadCompleteEffect c s).link.limitMs = s.link.limitMs ∧
    (stripReadCompleteEffect c s).link.throttle = s.link.throttle ∧
    (stripReadCompleteEffect c s).link.delayTimer = s.link.delayTimer ∧
    (stripReadCompleteEffect c s).link.absTimer = s.link.absTimer ∧
    (stripReadCompleteEffect c s).link.cause = s.link.cause ∧
    (stripReadCompleteEffect c s).link.replies = s.link.replies ∧
    (stripReadCompleteEffect c s).link.direction = s.link.direction ∧
    (stripReadCompleteEffect c s).link.frameBegun = s.link.frameBegun ∧
    (stripReadCompleteEffect c s).link.discarding = s.link.discarding ∧
    (stripReadCompleteEffect c s).link.withheld = s.link.withheld ∧
    (stripReadCompleteEffect c s).turret.position = s.turret.position ∧
    (stripReadCompleteEffect c s).turret.latchEngaged = s.turret.latchEngaged ∧
    (stripReadCompleteEffect c s).turret.hatchOpen = s.turret.hatchOpen ∧
    (stripReadCompleteEffect c s).turret.protection = s.turret.protection ∧
    (stripReadCompleteEffect c s).turret.lineOpen = s.turret.lineOpen ∧
    (stripReadCompleteEffect c s).turret.lineEndDue = s.turret.lineEndDue ∧
    (stripReadCompleteEffect c s).turret.stations.length = s.turret.stations.length ∧
    (stripReadCompleteEffect c s).jobs.length = s.jobs.length ∧
    (stripReadCompleteEffect c s).galleyOrder = s.galleyOrder ∧
    (stripReadCompleteEffect c s).house = s.house ∧
    (stripReadCompleteEffect c s).houseLocked = s.houseLocked ∧
    (stripReadCompleteEffect c s).galleyGap = s.galleyGap ∧
    (stripReadCompleteEffect c s).exposureHead = s.exposureHead ∧
    (stripReadCompleteEffect c s).proofHead = s.proofHead ∧
    (stripReadCompleteEffect c s).engine = s.engine ∧
    (stripReadCompleteEffect c s).languages = s.languages ∧
    (stripReadCompleteEffect c s).dict = s.dict ∧
    (stripReadCompleteEffect c s).queue = s.queue ∧
    (stripReadCompleteEffect c s).expo = s.expo ∧
    (stripReadCompleteEffect c s).lamp = s.lamp ∧
    (stripReadCompleteEffect c s).film = s.film ∧
    (stripReadCompleteEffect c s).proof = s.proof ∧
    (stripReadCompleteEffect c s).freeCount = s.freeCount ∧
    (stripReadCompleteEffect c s).pending = s.pending := by
  simp only [stripReadCompleteEffect]
  (repeat' split) <;> simp

@[simp] theorem reviseFontEffect_keeps (s : State) (n : Nat) (r : FontRevision) :
    ((reviseFontEffect n r s).1).link = s.link ∧
    ((reviseFontEffect n r s).1).turret = s.turret ∧
    ((reviseFontEffect n r s).1).jobs = s.jobs ∧
    ((reviseFontEffect n r s).1).galleyOrder = s.galleyOrder ∧
    ((reviseFontEffect n r s).1).house = s.house ∧
    ((reviseFontEffect n r s).1).houseLocked = s.houseLocked ∧
    ((reviseFontEffect n r s).1).galleyGap = s.galleyGap ∧
    ((reviseFontEffect n r s).1).exposureHead = s.exposureHead ∧
    ((reviseFontEffect n r s).1).proofHead = s.proofHead ∧
    ((reviseFontEffect n r s).1).engine = s.engine ∧
    ((reviseFontEffect n r s).1).languages = s.languages ∧
    ((reviseFontEffect n r s).1).dict = s.dict ∧
    ((reviseFontEffect n r s).1).queue = s.queue ∧
    ((reviseFontEffect n r s).1).expo = s.expo ∧
    ((reviseFontEffect n r s).1).lamp = s.lamp ∧
    ((reviseFontEffect n r s).1).film = s.film ∧
    ((reviseFontEffect n r s).1).proof = s.proof ∧
    ((reviseFontEffect n r s).1).freeCount = s.freeCount ∧
    ((reviseFontEffect n r s).1).pending = s.pending := by
  simp only [reviseFontEffect]
  (repeat' split) <;> simp [refuse, done]

@[simp] theorem retireFontEffect_keeps (s : State) (n : Nat) :
    ((retireFontEffect n s).1).link = s.link ∧
    ((retireFontEffect n s).1).turret = s.turret ∧
    ((retireFontEffect n s).1).jobs = s.jobs ∧
    ((retireFontEffect n s).1).galleyOrder = s.galleyOrder ∧
    ((retireFontEffect n s).1).house = s.house ∧
    ((retireFontEffect n s).1).houseLocked = s.houseLocked ∧
    ((retireFontEffect n s).1).galleyGap = s.galleyGap ∧
    ((retireFontEffect n s).1).exposureHead = s.exposureHead ∧
    ((retireFontEffect n s).1).proofHead = s.proofHead ∧
    ((retireFontEffect n s).1).engine = s.engine ∧
    ((retireFontEffect n s).1).languages = s.languages ∧
    ((retireFontEffect n s).1).dict = s.dict ∧
    ((retireFontEffect n s).1).queue = s.queue ∧
    ((retireFontEffect n s).1).expo = s.expo ∧
    ((retireFontEffect n s).1).lamp = s.lamp ∧
    ((retireFontEffect n s).1).film = s.film ∧
    ((retireFontEffect n s).1).proof = s.proof ∧
    ((retireFontEffect n s).1).freeCount = s.freeCount ∧
    ((retireFontEffect n s).1).pending = s.pending := by
  simp only [retireFontEffect]
  (repeat' split) <;> simp [refuse, done]

@[simp] theorem queryFontEffect_keeps (s : State) (n : Nat) :
    ((queryFontEffect n s).1).link = s.link ∧
    ((queryFontEffect n s).1).fonts = s.fonts ∧
    ((queryFontEffect n s).1).turret = s.turret ∧
    ((queryFontEffect n s).1).jobs = s.jobs ∧
    ((queryFontEffect n s).1).galleyOrder = s.galleyOrder ∧
    ((queryFontEffect n s).1).house = s.house ∧
    ((queryFontEffect n s).1).houseLocked = s.houseLocked ∧
    ((queryFontEffect n s).1).galleyGap = s.galleyGap ∧
    ((queryFontEffect n s).1).exposureHead = s.exposureHead ∧
    ((queryFontEffect n s).1).proofHead = s.proofHead ∧
    ((queryFontEffect n s).1).engine = s.engine ∧
    ((queryFontEffect n s).1).languages = s.languages ∧
    ((queryFontEffect n s).1).dict = s.dict ∧
    ((queryFontEffect n s).1).queue = s.queue ∧
    ((queryFontEffect n s).1).expo = s.expo ∧
    ((queryFontEffect n s).1).lamp = s.lamp ∧
    ((queryFontEffect n s).1).film = s.film ∧
    ((queryFontEffect n s).1).proof = s.proof ∧
    ((queryFontEffect n s).1).freeCount = s.freeCount ∧
    ((queryFontEffect n s).1).pending = s.pending := by
  simp only [queryFontEffect]
  (repeat' split) <;> simp [refuse, done]

@[simp] theorem prepareExchangeEffect_keeps (s : State) (n : Nat) :
    ((prepareExchangeEffect n s).1).link.mask = s.link.mask ∧
    ((prepareExchangeEffect n s).1).link.throttleMs = s.link.throttleMs ∧
    ((prepareExchangeEffect n s).1).link.delayMs = s.link.delayMs ∧
    ((prepareExchangeEffect n s).1).link.limitMs = s.link.limitMs ∧
    ((prepareExchangeEffect n s).1).link.throttle = s.link.throttle ∧
    ((prepareExchangeEffect n s).1).link.delayTimer = s.link.delayTimer ∧
    ((prepareExchangeEffect n s).1).link.absTimer = s.link.absTimer ∧
    ((prepareExchangeEffect n s).1).link.cause = s.link.cause ∧
    ((prepareExchangeEffect n s).1).link.replies = s.link.replies ∧
    ((prepareExchangeEffect n s).1).link.direction = s.link.direction ∧
    ((prepareExchangeEffect n s).1).link.frameBegun = s.link.frameBegun ∧
    ((prepareExchangeEffect n s).1).link.discarding = s.link.discarding ∧
    ((prepareExchangeEffect n s).1).link.withheld = s.link.withheld ∧
    ((prepareExchangeEffect n s).1).fonts = s.fonts ∧
    ((prepareExchangeEffect n s).1).turret.position = s.turret.position ∧
    ((prepareExchangeEffect n s).1).turret.motion = s.turret.motion ∧
    ((prepareExchangeEffect n s).1).turret.pass = s.turret.pass ∧
    ((prepareExchangeEffect n s).1).turret.latchEngaged = s.turret.latchEngaged ∧
    ((prepareExchangeEffect n s).1).turret.hatchOpen = s.turret.hatchOpen ∧
    ((prepareExchangeEffect n s).1).turret.read = s.turret.read ∧
    ((prepareExchangeEffect n s).1).turret.protection = s.turret.protection ∧
    ((prepareExchangeEffect n s).1).turret.lineOpen = s.turret.lineOpen ∧
    ((prepareExchangeEffect n s).1).turret.lineEndDue = s.turret.lineEndDue ∧
    ((prepareExchangeEffect n s).1).turret.stations.length = s.turret.stations.length ∧
    ((prepareExchangeEffect n s).1).jobs.length = s.jobs.length ∧
    ((prepareExchangeEffect n s).1).galleyOrder = s.galleyOrder ∧
    ((prepareExchangeEffect n s).1).house = s.house ∧
    ((prepareExchangeEffect n s).1).houseLocked = s.houseLocked ∧
    ((prepareExchangeEffect n s).1).galleyGap = s.galleyGap ∧
    ((prepareExchangeEffect n s).1).exposureHead = s.exposureHead ∧
    ((prepareExchangeEffect n s).1).proofHead = s.proofHead ∧
    ((prepareExchangeEffect n s).1).engine = s.engine ∧
    ((prepareExchangeEffect n s).1).languages = s.languages ∧
    ((prepareExchangeEffect n s).1).dict = s.dict ∧
    ((prepareExchangeEffect n s).1).queue = s.queue ∧
    ((prepareExchangeEffect n s).1).expo = s.expo ∧
    ((prepareExchangeEffect n s).1).lamp = s.lamp ∧
    ((prepareExchangeEffect n s).1).film = s.film ∧
    ((prepareExchangeEffect n s).1).proof = s.proof ∧
    ((prepareExchangeEffect n s).1).freeCount = s.freeCount ∧
    ((prepareExchangeEffect n s).1).pending = s.pending := by
  simp only [prepareExchangeEffect]
  (repeat' split) <;> simp [refuse, done]

@[simp] theorem cancelExchangeEffect_keeps (s : State) (n : Nat) :
    ((cancelExchangeEffect n s).1).link.mask = s.link.mask ∧
    ((cancelExchangeEffect n s).1).link.throttleMs = s.link.throttleMs ∧
    ((cancelExchangeEffect n s).1).link.delayMs = s.link.delayMs ∧
    ((cancelExchangeEffect n s).1).link.limitMs = s.link.limitMs ∧
    ((cancelExchangeEffect n s).1).link.throttle = s.link.throttle ∧
    ((cancelExchangeEffect n s).1).link.delayTimer = s.link.delayTimer ∧
    ((cancelExchangeEffect n s).1).link.absTimer = s.link.absTimer ∧
    ((cancelExchangeEffect n s).1).link.cause = s.link.cause ∧
    ((cancelExchangeEffect n s).1).link.replies = s.link.replies ∧
    ((cancelExchangeEffect n s).1).link.direction = s.link.direction ∧
    ((cancelExchangeEffect n s).1).link.frameBegun = s.link.frameBegun ∧
    ((cancelExchangeEffect n s).1).link.discarding = s.link.discarding ∧
    ((cancelExchangeEffect n s).1).link.withheld = s.link.withheld ∧
    ((cancelExchangeEffect n s).1).turret.position = s.turret.position ∧
    ((cancelExchangeEffect n s).1).turret.motion = s.turret.motion ∧
    ((cancelExchangeEffect n s).1).turret.pass = s.turret.pass ∧
    ((cancelExchangeEffect n s).1).turret.hatchOpen = s.turret.hatchOpen ∧
    ((cancelExchangeEffect n s).1).turret.read = s.turret.read ∧
    ((cancelExchangeEffect n s).1).turret.protection = s.turret.protection ∧
    ((cancelExchangeEffect n s).1).turret.lineOpen = s.turret.lineOpen ∧
    ((cancelExchangeEffect n s).1).turret.lineEndDue = s.turret.lineEndDue ∧
    ((cancelExchangeEffect n s).1).turret.stations.length = s.turret.stations.length ∧
    ((cancelExchangeEffect n s).1).jobs.length = s.jobs.length ∧
    ((cancelExchangeEffect n s).1).galleyOrder = s.galleyOrder ∧
    ((cancelExchangeEffect n s).1).house = s.house ∧
    ((cancelExchangeEffect n s).1).houseLocked = s.houseLocked ∧
    ((cancelExchangeEffect n s).1).galleyGap = s.galleyGap ∧
    ((cancelExchangeEffect n s).1).exposureHead = s.exposureHead ∧
    ((cancelExchangeEffect n s).1).proofHead = s.proofHead ∧
    ((cancelExchangeEffect n s).1).engine = s.engine ∧
    ((cancelExchangeEffect n s).1).languages = s.languages ∧
    ((cancelExchangeEffect n s).1).dict = s.dict ∧
    ((cancelExchangeEffect n s).1).queue = s.queue ∧
    ((cancelExchangeEffect n s).1).expo = s.expo ∧
    ((cancelExchangeEffect n s).1).lamp = s.lamp ∧
    ((cancelExchangeEffect n s).1).film = s.film ∧
    ((cancelExchangeEffect n s).1).proof = s.proof ∧
    ((cancelExchangeEffect n s).1).freeCount = s.freeCount ∧
    ((cancelExchangeEffect n s).1).pending = s.pending := by
  simp only [cancelExchangeEffect]
  (repeat' split) <;> simp [refuse, done]

@[simp] theorem setStationProtectionEffect_keeps (s : State) (l : List Nat) :
    ((setStationProtectionEffect l s).1).link = s.link ∧
    ((setStationProtectionEffect l s).1).fonts = s.fonts ∧
    ((setStationProtectionEffect l s).1).turret.position = s.turret.position ∧
    ((setStationProtectionEffect l s).1).turret.motion = s.turret.motion ∧
    ((setStationProtectionEffect l s).1).turret.pass = s.turret.pass ∧
    ((setStationProtectionEffect l s).1).turret.latchEngaged = s.turret.latchEngaged ∧
    ((setStationProtectionEffect l s).1).turret.hatchOpen = s.turret.hatchOpen ∧
    ((setStationProtectionEffect l s).1).turret.hatchMark = s.turret.hatchMark ∧
    ((setStationProtectionEffect l s).1).turret.exchange = s.turret.exchange ∧
    ((setStationProtectionEffect l s).1).turret.cancelPending = s.turret.cancelPending ∧
    ((setStationProtectionEffect l s).1).turret.read = s.turret.read ∧
    ((setStationProtectionEffect l s).1).turret.lineOpen = s.turret.lineOpen ∧
    ((setStationProtectionEffect l s).1).turret.lineEndDue = s.turret.lineEndDue ∧
    ((setStationProtectionEffect l s).1).turret.stations.length = s.turret.stations.length ∧
    ((setStationProtectionEffect l s).1).jobs = s.jobs ∧
    ((setStationProtectionEffect l s).1).galleyOrder = s.galleyOrder ∧
    ((setStationProtectionEffect l s).1).house = s.house ∧
    ((setStationProtectionEffect l s).1).houseLocked = s.houseLocked ∧
    ((setStationProtectionEffect l s).1).galleyGap = s.galleyGap ∧
    ((setStationProtectionEffect l s).1).exposureHead = s.exposureHead ∧
    ((setStationProtectionEffect l s).1).proofHead = s.proofHead ∧
    ((setStationProtectionEffect l s).1).engine = s.engine ∧
    ((setStationProtectionEffect l s).1).languages = s.languages ∧
    ((setStationProtectionEffect l s).1).dict = s.dict ∧
    ((setStationProtectionEffect l s).1).queue = s.queue ∧
    ((setStationProtectionEffect l s).1).expo = s.expo ∧
    ((setStationProtectionEffect l s).1).lamp = s.lamp ∧
    ((setStationProtectionEffect l s).1).film = s.film ∧
    ((setStationProtectionEffect l s).1).proof = s.proof ∧
    ((setStationProtectionEffect l s).1).freeCount = s.freeCount ∧
    ((setStationProtectionEffect l s).1).pending = s.pending := by
  simp only [setStationProtectionEffect]
  (repeat' split) <;> simp [refuse, done]

@[simp] theorem queryStationsEffect_keeps (s : State)  :
    ((queryStationsEffect s).1).link = s.link ∧
    ((queryStationsEffect s).1).fonts = s.fonts ∧
    ((queryStationsEffect s).1).turret.position = s.turret.position ∧
    ((queryStationsEffect s).1).turret.motion = s.turret.motion ∧
    ((queryStationsEffect s).1).turret.pass = s.turret.pass ∧
    ((queryStationsEffect s).1).turret.latchEngaged = s.turret.latchEngaged ∧
    ((queryStationsEffect s).1).turret.hatchOpen = s.turret.hatchOpen ∧
    ((queryStationsEffect s).1).turret.hatchMark = s.turret.hatchMark ∧
    ((queryStationsEffect s).1).turret.exchange = s.turret.exchange ∧
    ((queryStationsEffect s).1).turret.cancelPending = s.turret.cancelPending ∧
    ((queryStationsEffect s).1).turret.read = s.turret.read ∧
    ((queryStationsEffect s).1).turret.protection = s.turret.protection ∧
    ((queryStationsEffect s).1).turret.lineOpen = s.turret.lineOpen ∧
    ((queryStationsEffect s).1).turret.lineEndDue = s.turret.lineEndDue ∧
    ((queryStationsEffect s).1).turret.stations.length = s.turret.stations.length ∧
    ((queryStationsEffect s).1).jobs = s.jobs ∧
    ((queryStationsEffect s).1).galleyOrder = s.galleyOrder ∧
    ((queryStationsEffect s).1).house = s.house ∧
    ((queryStationsEffect s).1).houseLocked = s.houseLocked ∧
    ((queryStationsEffect s).1).galleyGap = s.galleyGap ∧
    ((queryStationsEffect s).1).exposureHead = s.exposureHead ∧
    ((queryStationsEffect s).1).proofHead = s.proofHead ∧
    ((queryStationsEffect s).1).engine = s.engine ∧
    ((queryStationsEffect s).1).languages = s.languages ∧
    ((queryStationsEffect s).1).dict = s.dict ∧
    ((queryStationsEffect s).1).queue = s.queue ∧
    ((queryStationsEffect s).1).expo = s.expo ∧
    ((queryStationsEffect s).1).lamp = s.lamp ∧
    ((queryStationsEffect s).1).film = s.film ∧
    ((queryStationsEffect s).1).proof = s.proof ∧
    ((queryStationsEffect s).1).freeCount = s.freeCount ∧
    ((queryStationsEffect s).1).pending = s.pending := by
  simp [queryStationsEffect]

@[simp] theorem mountAll_keeps (s : State) (l : List Nat) (k : Nat) :
    (l.foldl (fun s n => s.mount n k) s).link.mask = s.link.mask ∧
    (l.foldl (fun s n => s.mount n k) s).link.throttleMs = s.link.throttleMs ∧
    (l.foldl (fun s n => s.mount n k) s).link.delayMs = s.link.delayMs ∧
    (l.foldl (fun s n => s.mount n k) s).link.limitMs = s.link.limitMs ∧
    (l.foldl (fun s n => s.mount n k) s).link.throttle = s.link.throttle ∧
    (l.foldl (fun s n => s.mount n k) s).link.delayTimer = s.link.delayTimer ∧
    (l.foldl (fun s n => s.mount n k) s).link.absTimer = s.link.absTimer ∧
    (l.foldl (fun s n => s.mount n k) s).link.cause = s.link.cause ∧
    (l.foldl (fun s n => s.mount n k) s).link.replies = s.link.replies ∧
    (l.foldl (fun s n => s.mount n k) s).link.direction = s.link.direction ∧
    (l.foldl (fun s n => s.mount n k) s).link.frameBegun = s.link.frameBegun ∧
    (l.foldl (fun s n => s.mount n k) s).link.discarding = s.link.discarding ∧
    (l.foldl (fun s n => s.mount n k) s).link.withheld = s.link.withheld ∧
    (l.foldl (fun s n => s.mount n k) s).turret.position = s.turret.position ∧
    (l.foldl (fun s n => s.mount n k) s).turret.motion = s.turret.motion ∧
    (l.foldl (fun s n => s.mount n k) s).turret.pass = s.turret.pass ∧
    (l.foldl (fun s n => s.mount n k) s).turret.latchEngaged = s.turret.latchEngaged ∧
    (l.foldl (fun s n => s.mount n k) s).turret.hatchOpen = s.turret.hatchOpen ∧
    (l.foldl (fun s n => s.mount n k) s).turret.hatchMark = s.turret.hatchMark ∧
    (l.foldl (fun s n => s.mount n k) s).turret.exchange = s.turret.exchange ∧
    (l.foldl (fun s n => s.mount n k) s).turret.cancelPending = s.turret.cancelPending ∧
    (l.foldl (fun s n => s.mount n k) s).turret.read = s.turret.read ∧
    (l.foldl (fun s n => s.mount n k) s).turret.protection = s.turret.protection ∧
    (l.foldl (fun s n => s.mount n k) s).turret.lineOpen = s.turret.lineOpen ∧
    (l.foldl (fun s n => s.mount n k) s).turret.lineEndDue = s.turret.lineEndDue ∧
    (l.foldl (fun s n => s.mount n k) s).turret.stations.length = s.turret.stations.length ∧
    (l.foldl (fun s n => s.mount n k) s).jobs.length = s.jobs.length ∧
    (l.foldl (fun s n => s.mount n k) s).galleyOrder = s.galleyOrder ∧
    (l.foldl (fun s n => s.mount n k) s).house = s.house ∧
    (l.foldl (fun s n => s.mount n k) s).houseLocked = s.houseLocked ∧
    (l.foldl (fun s n => s.mount n k) s).galleyGap = s.galleyGap ∧
    (l.foldl (fun s n => s.mount n k) s).exposureHead = s.exposureHead ∧
    (l.foldl (fun s n => s.mount n k) s).proofHead = s.proofHead ∧
    (l.foldl (fun s n => s.mount n k) s).engine = s.engine ∧
    (l.foldl (fun s n => s.mount n k) s).languages = s.languages ∧
    (l.foldl (fun s n => s.mount n k) s).dict = s.dict ∧
    (l.foldl (fun s n => s.mount n k) s).queue = s.queue ∧
    (l.foldl (fun s n => s.mount n k) s).expo = s.expo ∧
    (l.foldl (fun s n => s.mount n k) s).lamp = s.lamp ∧
    (l.foldl (fun s n => s.mount n k) s).film = s.film ∧
    (l.foldl (fun s n => s.mount n k) s).proof = s.proof ∧
    (l.foldl (fun s n => s.mount n k) s).freeCount = s.freeCount ∧
    (l.foldl (fun s n => s.mount n k) s).pending = s.pending := by
  exact ⟨by exact foldl_keeps (P := fun s : State => s.link.mask) (fun s n => by simp) _ _, by exact foldl_keeps (P := fun s : State => s.link.throttleMs) (fun s n => by simp) _ _, by exact foldl_keeps (P := fun s : State => s.link.delayMs) (fun s n => by simp) _ _, by exact foldl_keeps (P := fun s : State => s.link.limitMs) (fun s n => by simp) _ _, by exact foldl_keeps (P := fun s : State => s.link.throttle) (fun s n => by simp) _ _, by exact foldl_keeps (P := fun s : State => s.link.delayTimer) (fun s n => by simp) _ _, by exact foldl_keeps (P := fun s : State => s.link.absTimer) (fun s n => by simp) _ _, by exact foldl_keeps (P := fun s : State => s.link.cause) (fun s n => by simp) _ _, by exact foldl_keeps (P := fun s : State => s.link.replies) (fun s n => by simp) _ _, by exact foldl_keeps (P := fun s : State => s.link.direction) (fun s n => by simp) _ _, by exact foldl_keeps (P := fun s : State => s.link.frameBegun) (fun s n => by simp) _ _, by exact foldl_keeps (P := fun s : State => s.link.discarding) (fun s n => by simp) _ _, by exact foldl_keeps (P := fun s : State => s.link.withheld) (fun s n => by simp) _ _, by exact foldl_keeps (P := fun s : State => s.turret.position) (fun s n => by simp) _ _, by exact foldl_keeps (P := fun s : State => s.turret.motion) (fun s n => by simp) _ _, by exact foldl_keeps (P := fun s : State => s.turret.pass) (fun s n => by simp) _ _, by exact foldl_keeps (P := fun s : State => s.turret.latchEngaged) (fun s n => by simp) _ _, by exact foldl_keeps (P := fun s : State => s.turret.hatchOpen) (fun s n => by simp) _ _, by exact foldl_keeps (P := fun s : State => s.turret.hatchMark) (fun s n => by simp) _ _, by exact foldl_keeps (P := fun s : State => s.turret.exchange) (fun s n => by simp) _ _, by exact foldl_keeps (P := fun s : State => s.turret.cancelPending) (fun s n => by simp) _ _, by exact foldl_keeps (P := fun s : State => s.turret.read) (fun s n => by simp) _ _, by exact foldl_keeps (P := fun s : State => s.turret.protection) (fun s n => by simp) _ _, by exact foldl_keeps (P := fun s : State => s.turret.lineOpen) (fun s n => by simp) _ _, by exact foldl_keeps (P := fun s : State => s.turret.lineEndDue) (fun s n => by simp) _ _, by exact foldl_keeps (P := fun s : State => s.turret.stations.length) (fun s n => by simp) _ _, by exact foldl_keeps (P := fun s : State => s.jobs.length) (fun s n => by simp) _ _, by exact foldl_keeps (P := fun s : State => s.galleyOrder) (fun s n => by simp) _ _, by exact foldl_keeps (P := fun s : State => s.house) (fun s n => by simp) _ _, by exact foldl_keeps (P := fun s : State => s.houseLocked) (fun s n => by simp) _ _, by exact foldl_keeps (P := fun s : State => s.galleyGap) (fun s n => by simp) _ _, by exact foldl_keeps (P := fun s : State => s.exposureHead) (fun s n => by simp) _ _, by exact foldl_keeps (P := fun s : State => s.proofHead) (fun s n => by simp) _ _, by exact foldl_keeps (P := fun s : State => s.engine) (fun s n => by simp) _ _, by exact foldl_keeps (P := fun s : State => s.languages) (fun s n => by simp) _ _, by exact foldl_keeps (P := fun s : State => s.dict) (fun s n => by simp) _ _, by exact foldl_keeps (P := fun s : State => s.queue) (fun s n => by simp) _ _, by exact foldl_keeps (P := fun s : State => s.expo) (fun s n => by simp) _ _, by exact foldl_keeps (P := fun s : State => s.lamp) (fun s n => by simp) _ _, by exact foldl_keeps (P := fun s : State => s.film) (fun s n => by simp) _ _, by exact foldl_keeps (P := fun s : State => s.proof) (fun s n => by simp) _ _, by exact foldl_keeps (P := fun s : State => s.freeCount) (fun s n => by simp) _ _, by exact foldl_keeps (P := fun s : State => s.pending) (fun s n => by simp) _ _⟩

@[simp] theorem defineFontEffect_keeps (s : State) (d : FontDef) :
    ((defineFontEffect d s).1).link.mask = s.link.mask ∧
    ((defineFontEffect d s).1).link.throttleMs = s.link.throttleMs ∧
    ((defineFontEffect d s).1).link.delayMs = s.link.delayMs ∧
    ((defineFontEffect d s).1).link.limitMs = s.link.limitMs ∧
    ((defineFontEffect d s).1).link.throttle = s.link.throttle ∧
    ((defineFontEffect d s).1).link.delayTimer = s.link.delayTimer ∧
    ((defineFontEffect d s).1).link.absTimer = s.link.absTimer ∧
    ((defineFontEffect d s).1).link.cause = s.link.cause ∧
    ((defineFontEffect d s).1).link.replies = s.link.replies ∧
    ((defineFontEffect d s).1).link.direction = s.link.direction ∧
    ((defineFontEffect d s).1).link.frameBegun = s.link.frameBegun ∧
    ((defineFontEffect d s).1).link.discarding = s.link.discarding ∧
    ((defineFontEffect d s).1).link.withheld = s.link.withheld ∧
    ((defineFontEffect d s).1).turret.position = s.turret.position ∧
    ((defineFontEffect d s).1).turret.motion = s.turret.motion ∧
    ((defineFontEffect d s).1).turret.pass = s.turret.pass ∧
    ((defineFontEffect d s).1).turret.latchEngaged = s.turret.latchEngaged ∧
    ((defineFontEffect d s).1).turret.hatchOpen = s.turret.hatchOpen ∧
    ((defineFontEffect d s).1).turret.hatchMark = s.turret.hatchMark ∧
    ((defineFontEffect d s).1).turret.exchange = s.turret.exchange ∧
    ((defineFontEffect d s).1).turret.cancelPending = s.turret.cancelPending ∧
    ((defineFontEffect d s).1).turret.read = s.turret.read ∧
    ((defineFontEffect d s).1).turret.protection = s.turret.protection ∧
    ((defineFontEffect d s).1).turret.lineOpen = s.turret.lineOpen ∧
    ((defineFontEffect d s).1).turret.lineEndDue = s.turret.lineEndDue ∧
    ((defineFontEffect d s).1).turret.stations.length = s.turret.stations.length ∧
    ((defineFontEffect d s).1).jobs.length = s.jobs.length ∧
    ((defineFontEffect d s).1).galleyOrder = s.galleyOrder ∧
    ((defineFontEffect d s).1).house = s.house ∧
    ((defineFontEffect d s).1).houseLocked = s.houseLocked ∧
    ((defineFontEffect d s).1).galleyGap = s.galleyGap ∧
    ((defineFontEffect d s).1).exposureHead = s.exposureHead ∧
    ((defineFontEffect d s).1).proofHead = s.proofHead ∧
    ((defineFontEffect d s).1).engine = s.engine ∧
    ((defineFontEffect d s).1).languages = s.languages ∧
    ((defineFontEffect d s).1).dict = s.dict ∧
    ((defineFontEffect d s).1).queue = s.queue ∧
    ((defineFontEffect d s).1).expo = s.expo ∧
    ((defineFontEffect d s).1).lamp = s.lamp ∧
    ((defineFontEffect d s).1).film = s.film ∧
    ((defineFontEffect d s).1).proof = s.proof ∧
    ((defineFontEffect d s).1).freeCount = s.freeCount ∧
    ((defineFontEffect d s).1).pending = s.pending := by
  simp only [defineFontEffect]
  (repeat' split) <;> simp [refuse, done]

@[simp] theorem addWordEffect_keeps (s : State) (l : Nat) (w : List Byte) (bs : List WordBreak) (o : ScopeArg) :
    ((addWordEffect l w bs o s).1).link = s.link ∧
    ((addWordEffect l w bs o s).1).fonts = s.fonts ∧
    ((addWordEffect l w bs o s).1).turret = s.turret ∧
    ((addWordEffect l w bs o s).1).jobs = s.jobs ∧
    ((addWordEffect l w bs o s).1).galleyOrder = s.galleyOrder ∧
    ((addWordEffect l w bs o s).1).house = s.house ∧
    ((addWordEffect l w bs o s).1).houseLocked = s.houseLocked ∧
    ((addWordEffect l w bs o s).1).galleyGap = s.galleyGap ∧
    ((addWordEffect l w bs o s).1).exposureHead = s.exposureHead ∧
    ((addWordEffect l w bs o s).1).proofHead = s.proofHead ∧
    ((addWordEffect l w bs o s).1).engine = s.engine ∧
    ((addWordEffect l w bs o s).1).languages = s.languages ∧
    ((addWordEffect l w bs o s).1).queue = s.queue ∧
    ((addWordEffect l w bs o s).1).expo = s.expo ∧
    ((addWordEffect l w bs o s).1).lamp = s.lamp ∧
    ((addWordEffect l w bs o s).1).film = s.film ∧
    ((addWordEffect l w bs o s).1).proof = s.proof ∧
    ((addWordEffect l w bs o s).1).freeCount = s.freeCount ∧
    ((addWordEffect l w bs o s).1).pending = s.pending := by
  simp only [addWordEffect]
  (repeat' split) <;> simp [refuse, done]

@[simp] theorem amendWordEffect_keeps (s : State) (w : WordName) (bs : List WordBreak) :
    ((amendWordEffect w bs s).1).link = s.link ∧
    ((amendWordEffect w bs s).1).fonts = s.fonts ∧
    ((amendWordEffect w bs s).1).turret = s.turret ∧
    ((amendWordEffect w bs s).1).jobs = s.jobs ∧
    ((amendWordEffect w bs s).1).galleyOrder = s.galleyOrder ∧
    ((amendWordEffect w bs s).1).house = s.house ∧
    ((amendWordEffect w bs s).1).houseLocked = s.houseLocked ∧
    ((amendWordEffect w bs s).1).galleyGap = s.galleyGap ∧
    ((amendWordEffect w bs s).1).exposureHead = s.exposureHead ∧
    ((amendWordEffect w bs s).1).proofHead = s.proofHead ∧
    ((amendWordEffect w bs s).1).engine = s.engine ∧
    ((amendWordEffect w bs s).1).languages = s.languages ∧
    ((amendWordEffect w bs s).1).queue = s.queue ∧
    ((amendWordEffect w bs s).1).expo = s.expo ∧
    ((amendWordEffect w bs s).1).lamp = s.lamp ∧
    ((amendWordEffect w bs s).1).film = s.film ∧
    ((amendWordEffect w bs s).1).proof = s.proof ∧
    ((amendWordEffect w bs s).1).freeCount = s.freeCount ∧
    ((amendWordEffect w bs s).1).pending = s.pending := by
  simp only [amendWordEffect]
  (repeat' split) <;> simp [refuse, done]

@[simp] theorem retireWordEffect_keeps (s : State) (w : WordName) :
    ((retireWordEffect w s).1).link = s.link ∧
    ((retireWordEffect w s).1).fonts = s.fonts ∧
    ((retireWordEffect w s).1).turret = s.turret ∧
    ((retireWordEffect w s).1).jobs = s.jobs ∧
    ((retireWordEffect w s).1).galleyOrder = s.galleyOrder ∧
    ((retireWordEffect w s).1).house = s.house ∧
    ((retireWordEffect w s).1).houseLocked = s.houseLocked ∧
    ((retireWordEffect w s).1).galleyGap = s.galleyGap ∧
    ((retireWordEffect w s).1).exposureHead = s.exposureHead ∧
    ((retireWordEffect w s).1).proofHead = s.proofHead ∧
    ((retireWordEffect w s).1).engine = s.engine ∧
    ((retireWordEffect w s).1).languages = s.languages ∧
    ((retireWordEffect w s).1).queue = s.queue ∧
    ((retireWordEffect w s).1).expo = s.expo ∧
    ((retireWordEffect w s).1).lamp = s.lamp ∧
    ((retireWordEffect w s).1).film = s.film ∧
    ((retireWordEffect w s).1).proof = s.proof ∧
    ((retireWordEffect w s).1).freeCount = s.freeCount ∧
    ((retireWordEffect w s).1).pending = s.pending := by
  simp only [retireWordEffect]
  (repeat' split) <;> simp [refuse, done]

@[simp] theorem retireWordsEffect_keeps (s : State) (c l j i : Nat) :
    ((retireWordsEffect c l j i s).1).link = s.link ∧
    ((retireWordsEffect c l j i s).1).fonts = s.fonts ∧
    ((retireWordsEffect c l j i s).1).turret = s.turret ∧
    ((retireWordsEffect c l j i s).1).jobs = s.jobs ∧
    ((retireWordsEffect c l j i s).1).galleyOrder = s.galleyOrder ∧
    ((retireWordsEffect c l j i s).1).house = s.house ∧
    ((retireWordsEffect c l j i s).1).houseLocked = s.houseLocked ∧
    ((retireWordsEffect c l j i s).1).galleyGap = s.galleyGap ∧
    ((retireWordsEffect c l j i s).1).exposureHead = s.exposureHead ∧
    ((retireWordsEffect c l j i s).1).proofHead = s.proofHead ∧
    ((retireWordsEffect c l j i s).1).engine = s.engine ∧
    ((retireWordsEffect c l j i s).1).languages = s.languages ∧
    ((retireWordsEffect c l j i s).1).queue = s.queue ∧
    ((retireWordsEffect c l j i s).1).expo = s.expo ∧
    ((retireWordsEffect c l j i s).1).lamp = s.lamp ∧
    ((retireWordsEffect c l j i s).1).film = s.film ∧
    ((retireWordsEffect c l j i s).1).proof = s.proof ∧
    ((retireWordsEffect c l j i s).1).freeCount = s.freeCount ∧
    ((retireWordsEffect c l j i s).1).pending = s.pending := by
  simp only [retireWordsEffect]
  (repeat' split) <;> simp [refuse, done]

@[simp] theorem pruneWordsEffect_keeps (s : State) (l t : Nat) :
    ((pruneWordsEffect l t s).1).link = s.link ∧
    ((pruneWordsEffect l t s).1).fonts = s.fonts ∧
    ((pruneWordsEffect l t s).1).turret = s.turret ∧
    ((pruneWordsEffect l t s).1).jobs = s.jobs ∧
    ((pruneWordsEffect l t s).1).galleyOrder = s.galleyOrder ∧
    ((pruneWordsEffect l t s).1).house = s.house ∧
    ((pruneWordsEffect l t s).1).houseLocked = s.houseLocked ∧
    ((pruneWordsEffect l t s).1).galleyGap = s.galleyGap ∧
    ((pruneWordsEffect l t s).1).exposureHead = s.exposureHead ∧
    ((pruneWordsEffect l t s).1).proofHead = s.proofHead ∧
    ((pruneWordsEffect l t s).1).engine = s.engine ∧
    ((pruneWordsEffect l t s).1).languages = s.languages ∧
    ((pruneWordsEffect l t s).1).queue = s.queue ∧
    ((pruneWordsEffect l t s).1).expo = s.expo ∧
    ((pruneWordsEffect l t s).1).lamp = s.lamp ∧
    ((pruneWordsEffect l t s).1).film = s.film ∧
    ((pruneWordsEffect l t s).1).proof = s.proof ∧
    ((pruneWordsEffect l t s).1).freeCount = s.freeCount ∧
    ((pruneWordsEffect l t s).1).pending = s.pending := by
  simp only [pruneWordsEffect]
  (repeat' split) <;> simp [refuse, done]

@[simp] theorem queryWordEffect_keeps (s : State) (q : WordQuery) :
    ((queryWordEffect q s).1).link = s.link ∧
    ((queryWordEffect q s).1).fonts = s.fonts ∧
    ((queryWordEffect q s).1).turret = s.turret ∧
    ((queryWordEffect q s).1).jobs = s.jobs ∧
    ((queryWordEffect q s).1).galleyOrder = s.galleyOrder ∧
    ((queryWordEffect q s).1).house = s.house ∧
    ((queryWordEffect q s).1).houseLocked = s.houseLocked ∧
    ((queryWordEffect q s).1).galleyGap = s.galleyGap ∧
    ((queryWordEffect q s).1).exposureHead = s.exposureHead ∧
    ((queryWordEffect q s).1).proofHead = s.proofHead ∧
    ((queryWordEffect q s).1).engine = s.engine ∧
    ((queryWordEffect q s).1).languages = s.languages ∧
    ((queryWordEffect q s).1).dict = s.dict ∧
    ((queryWordEffect q s).1).queue = s.queue ∧
    ((queryWordEffect q s).1).expo = s.expo ∧
    ((queryWordEffect q s).1).lamp = s.lamp ∧
    ((queryWordEffect q s).1).film = s.film ∧
    ((queryWordEffect q s).1).proof = s.proof ∧
    ((queryWordEffect q s).1).freeCount = s.freeCount ∧
    ((queryWordEffect q s).1).pending = s.pending := by
  simp only [queryWordEffect]
  (repeat' split) <;> simp [refuse, done]

@[simp] theorem listWordsEffect_keeps (s : State) (c l k j i : Nat) :
    ((listWordsEffect c l k j i s).1).link = s.link ∧
    ((listWordsEffect c l k j i s).1).fonts = s.fonts ∧
    ((listWordsEffect c l k j i s).1).turret = s.turret ∧
    ((listWordsEffect c l k j i s).1).jobs = s.jobs ∧
    ((listWordsEffect c l k j i s).1).galleyOrder = s.galleyOrder ∧
    ((listWordsEffect c l k j i s).1).house = s.house ∧
    ((listWordsEffect c l k j i s).1).houseLocked = s.houseLocked ∧
    ((listWordsEffect c l k j i s).1).galleyGap = s.galleyGap ∧
    ((listWordsEffect c l k j i s).1).exposureHead = s.exposureHead ∧
    ((listWordsEffect c l k j i s).1).proofHead = s.proofHead ∧
    ((listWordsEffect c l k j i s).1).engine = s.engine ∧
    ((listWordsEffect c l k j i s).1).languages = s.languages ∧
    ((listWordsEffect c l k j i s).1).dict = s.dict ∧
    ((listWordsEffect c l k j i s).1).queue = s.queue ∧
    ((listWordsEffect c l k j i s).1).expo = s.expo ∧
    ((listWordsEffect c l k j i s).1).lamp = s.lamp ∧
    ((listWordsEffect c l k j i s).1).film = s.film ∧
    ((listWordsEffect c l k j i s).1).proof = s.proof ∧
    ((listWordsEffect c l k j i s).1).freeCount = s.freeCount ∧
    ((listWordsEffect c l k j i s).1).pending = s.pending := by
  simp only [listWordsEffect]
  (repeat' split) <;> simp [refuse, done]

@[simp] theorem identifyEffect_keeps (s : State)  :
    ((identifyEffect s).1).link = s.link ∧
    ((identifyEffect s).1).fonts = s.fonts ∧
    ((identifyEffect s).1).turret = s.turret ∧
    ((identifyEffect s).1).jobs = s.jobs ∧
    ((identifyEffect s).1).galleyOrder = s.galleyOrder ∧
    ((identifyEffect s).1).house = s.house ∧
    ((identifyEffect s).1).houseLocked = s.houseLocked ∧
    ((identifyEffect s).1).galleyGap = s.galleyGap ∧
    ((identifyEffect s).1).exposureHead = s.exposureHead ∧
    ((identifyEffect s).1).proofHead = s.proofHead ∧
    ((identifyEffect s).1).engine = s.engine ∧
    ((identifyEffect s).1).languages = s.languages ∧
    ((identifyEffect s).1).dict = s.dict ∧
    ((identifyEffect s).1).queue = s.queue ∧
    ((identifyEffect s).1).expo = s.expo ∧
    ((identifyEffect s).1).lamp = s.lamp ∧
    ((identifyEffect s).1).film = s.film ∧
    ((identifyEffect s).1).proof = s.proof ∧
    ((identifyEffect s).1).freeCount = s.freeCount ∧
    ((identifyEffect s).1).pending = s.pending := by
  simp [identifyEffect]

@[simp] theorem statusEffect_keeps (s : State)  :
    ((statusEffect s).1).link = s.link ∧
    ((statusEffect s).1).fonts = s.fonts ∧
    ((statusEffect s).1).turret = s.turret ∧
    ((statusEffect s).1).jobs = s.jobs ∧
    ((statusEffect s).1).galleyOrder = s.galleyOrder ∧
    ((statusEffect s).1).house = s.house ∧
    ((statusEffect s).1).houseLocked = s.houseLocked ∧
    ((statusEffect s).1).galleyGap = s.galleyGap ∧
    ((statusEffect s).1).exposureHead = s.exposureHead ∧
    ((statusEffect s).1).proofHead = s.proofHead ∧
    ((statusEffect s).1).engine = s.engine ∧
    ((statusEffect s).1).languages = s.languages ∧
    ((statusEffect s).1).dict = s.dict ∧
    ((statusEffect s).1).queue = s.queue ∧
    ((statusEffect s).1).expo = s.expo ∧
    ((statusEffect s).1).lamp = s.lamp ∧
    ((statusEffect s).1).film = s.film ∧
    ((statusEffect s).1).proof = s.proof ∧
    ((statusEffect s).1).freeCount = s.freeCount ∧
    ((statusEffect s).1).pending = s.pending := by
  simp [statusEffect]

@[simp] theorem readNoticesEffect_keeps (s : State)  :
    ((readNoticesEffect s).1).link.mask = s.link.mask ∧
    ((readNoticesEffect s).1).link.throttleMs = s.link.throttleMs ∧
    ((readNoticesEffect s).1).link.delayMs = s.link.delayMs ∧
    ((readNoticesEffect s).1).link.limitMs = s.link.limitMs ∧
    ((readNoticesEffect s).1).link.delayTimer = s.link.delayTimer ∧
    ((readNoticesEffect s).1).link.absTimer = s.link.absTimer ∧
    ((readNoticesEffect s).1).link.cause = s.link.cause ∧
    ((readNoticesEffect s).1).link.replies = s.link.replies ∧
    ((readNoticesEffect s).1).link.direction = s.link.direction ∧
    ((readNoticesEffect s).1).link.frameBegun = s.link.frameBegun ∧
    ((readNoticesEffect s).1).link.discarding = s.link.discarding ∧
    ((readNoticesEffect s).1).link.withheld = s.link.withheld ∧
    ((readNoticesEffect s).1).fonts = s.fonts ∧
    ((readNoticesEffect s).1).turret = s.turret ∧
    ((readNoticesEffect s).1).jobs = s.jobs ∧
    ((readNoticesEffect s).1).galleyOrder = s.galleyOrder ∧
    ((readNoticesEffect s).1).house = s.house ∧
    ((readNoticesEffect s).1).houseLocked = s.houseLocked ∧
    ((readNoticesEffect s).1).galleyGap = s.galleyGap ∧
    ((readNoticesEffect s).1).exposureHead = s.exposureHead ∧
    ((readNoticesEffect s).1).proofHead = s.proofHead ∧
    ((readNoticesEffect s).1).engine = s.engine ∧
    ((readNoticesEffect s).1).languages = s.languages ∧
    ((readNoticesEffect s).1).dict = s.dict ∧
    ((readNoticesEffect s).1).queue = s.queue ∧
    ((readNoticesEffect s).1).expo = s.expo ∧
    ((readNoticesEffect s).1).lamp = s.lamp ∧
    ((readNoticesEffect s).1).film = s.film ∧
    ((readNoticesEffect s).1).proof = s.proof ∧
    ((readNoticesEffect s).1).freeCount = s.freeCount ∧
    ((readNoticesEffect s).1).pending = s.pending := by
  simp [readNoticesEffect]

@[simp] theorem setNoticeMaskEffect_keeps (s : State) (m : BitVec 24) :
    ((setNoticeMaskEffect m s).1).link.throttleMs = s.link.throttleMs ∧
    ((setNoticeMaskEffect m s).1).link.delayMs = s.link.delayMs ∧
    ((setNoticeMaskEffect m s).1).link.limitMs = s.link.limitMs ∧
    ((setNoticeMaskEffect m s).1).link.throttle = s.link.throttle ∧
    ((setNoticeMaskEffect m s).1).link.delayTimer = s.link.delayTimer ∧
    ((setNoticeMaskEffect m s).1).link.absTimer = s.link.absTimer ∧
    ((setNoticeMaskEffect m s).1).link.cause = s.link.cause ∧
    ((setNoticeMaskEffect m s).1).link.replies = s.link.replies ∧
    ((setNoticeMaskEffect m s).1).link.direction = s.link.direction ∧
    ((setNoticeMaskEffect m s).1).link.frameBegun = s.link.frameBegun ∧
    ((setNoticeMaskEffect m s).1).link.discarding = s.link.discarding ∧
    ((setNoticeMaskEffect m s).1).link.withheld = s.link.withheld ∧
    ((setNoticeMaskEffect m s).1).fonts = s.fonts ∧
    ((setNoticeMaskEffect m s).1).turret = s.turret ∧
    ((setNoticeMaskEffect m s).1).jobs = s.jobs ∧
    ((setNoticeMaskEffect m s).1).galleyOrder = s.galleyOrder ∧
    ((setNoticeMaskEffect m s).1).house = s.house ∧
    ((setNoticeMaskEffect m s).1).houseLocked = s.houseLocked ∧
    ((setNoticeMaskEffect m s).1).galleyGap = s.galleyGap ∧
    ((setNoticeMaskEffect m s).1).exposureHead = s.exposureHead ∧
    ((setNoticeMaskEffect m s).1).proofHead = s.proofHead ∧
    ((setNoticeMaskEffect m s).1).engine = s.engine ∧
    ((setNoticeMaskEffect m s).1).languages = s.languages ∧
    ((setNoticeMaskEffect m s).1).dict = s.dict ∧
    ((setNoticeMaskEffect m s).1).queue = s.queue ∧
    ((setNoticeMaskEffect m s).1).expo = s.expo ∧
    ((setNoticeMaskEffect m s).1).lamp = s.lamp ∧
    ((setNoticeMaskEffect m s).1).film = s.film ∧
    ((setNoticeMaskEffect m s).1).proof = s.proof ∧
    ((setNoticeMaskEffect m s).1).freeCount = s.freeCount ∧
    ((setNoticeMaskEffect m s).1).pending = s.pending := by
  simp only [setNoticeMaskEffect]
  (repeat' split) <;> simp [refuse, done]

@[simp] theorem setNoticeTimingEffect_keeps (s : State) (a b c : Nat) :
    ((setNoticeTimingEffect a b c s).1).link.mask = s.link.mask ∧
    ((setNoticeTimingEffect a b c s).1).link.throttle = s.link.throttle ∧
    ((setNoticeTimingEffect a b c s).1).link.delayTimer = s.link.delayTimer ∧
    ((setNoticeTimingEffect a b c s).1).link.absTimer = s.link.absTimer ∧
    ((setNoticeTimingEffect a b c s).1).link.cause = s.link.cause ∧
    ((setNoticeTimingEffect a b c s).1).link.replies = s.link.replies ∧
    ((setNoticeTimingEffect a b c s).1).link.direction = s.link.direction ∧
    ((setNoticeTimingEffect a b c s).1).link.frameBegun = s.link.frameBegun ∧
    ((setNoticeTimingEffect a b c s).1).link.discarding = s.link.discarding ∧
    ((setNoticeTimingEffect a b c s).1).link.withheld = s.link.withheld ∧
    ((setNoticeTimingEffect a b c s).1).fonts = s.fonts ∧
    ((setNoticeTimingEffect a b c s).1).turret = s.turret ∧
    ((setNoticeTimingEffect a b c s).1).jobs = s.jobs ∧
    ((setNoticeTimingEffect a b c s).1).galleyOrder = s.galleyOrder ∧
    ((setNoticeTimingEffect a b c s).1).house = s.house ∧
    ((setNoticeTimingEffect a b c s).1).houseLocked = s.houseLocked ∧
    ((setNoticeTimingEffect a b c s).1).galleyGap = s.galleyGap ∧
    ((setNoticeTimingEffect a b c s).1).exposureHead = s.exposureHead ∧
    ((setNoticeTimingEffect a b c s).1).proofHead = s.proofHead ∧
    ((setNoticeTimingEffect a b c s).1).engine = s.engine ∧
    ((setNoticeTimingEffect a b c s).1).languages = s.languages ∧
    ((setNoticeTimingEffect a b c s).1).dict = s.dict ∧
    ((setNoticeTimingEffect a b c s).1).queue = s.queue ∧
    ((setNoticeTimingEffect a b c s).1).expo = s.expo ∧
    ((setNoticeTimingEffect a b c s).1).lamp = s.lamp ∧
    ((setNoticeTimingEffect a b c s).1).film = s.film ∧
    ((setNoticeTimingEffect a b c s).1).proof = s.proof ∧
    ((setNoticeTimingEffect a b c s).1).freeCount = s.freeCount ∧
    ((setNoticeTimingEffect a b c s).1).pending = s.pending := by
  simp only [setNoticeTimingEffect]
  (repeat' split) <;> simp [refuse, done]

@[simp] theorem resetLinkEffect_keeps (s : State)  :
    ((resetLinkEffect s).1).fonts = s.fonts ∧
    ((resetLinkEffect s).1).turret = s.turret ∧
    ((resetLinkEffect s).1).jobs = s.jobs ∧
    ((resetLinkEffect s).1).galleyOrder = s.galleyOrder ∧
    ((resetLinkEffect s).1).house = s.house ∧
    ((resetLinkEffect s).1).houseLocked = s.houseLocked ∧
    ((resetLinkEffect s).1).galleyGap = s.galleyGap ∧
    ((resetLinkEffect s).1).exposureHead = s.exposureHead ∧
    ((resetLinkEffect s).1).proofHead = s.proofHead ∧
    ((resetLinkEffect s).1).engine = s.engine ∧
    ((resetLinkEffect s).1).languages = s.languages ∧
    ((resetLinkEffect s).1).dict = s.dict ∧
    ((resetLinkEffect s).1).queue = s.queue ∧
    ((resetLinkEffect s).1).expo = s.expo ∧
    ((resetLinkEffect s).1).lamp = s.lamp ∧
    ((resetLinkEffect s).1).film = s.film ∧
    ((resetLinkEffect s).1).proof = s.proof ∧
    ((resetLinkEffect s).1).freeCount = s.freeCount ∧
    ((resetLinkEffect s).1).pending = s.pending := by
  simp only [resetLinkEffect]
  (repeat' split) <;> simp [refuse, done]

@[simp] theorem defineLanguageEffect_keeps (s : State) (l : Nat) (t : LanguageDef) :
    ((defineLanguageEffect l t s).1).link = s.link ∧
    ((defineLanguageEffect l t s).1).fonts = s.fonts ∧
    ((defineLanguageEffect l t s).1).turret = s.turret ∧
    ((defineLanguageEffect l t s).1).jobs = s.jobs ∧
    ((defineLanguageEffect l t s).1).galleyOrder = s.galleyOrder ∧
    ((defineLanguageEffect l t s).1).house = s.house ∧
    ((defineLanguageEffect l t s).1).houseLocked = s.houseLocked ∧
    ((defineLanguageEffect l t s).1).galleyGap = s.galleyGap ∧
    ((defineLanguageEffect l t s).1).exposureHead = s.exposureHead ∧
    ((defineLanguageEffect l t s).1).proofHead = s.proofHead ∧
    ((defineLanguageEffect l t s).1).engine = s.engine ∧
    ((defineLanguageEffect l t s).1).dict = s.dict ∧
    ((defineLanguageEffect l t s).1).queue = s.queue ∧
    ((defineLanguageEffect l t s).1).expo = s.expo ∧
    ((defineLanguageEffect l t s).1).lamp = s.lamp ∧
    ((defineLanguageEffect l t s).1).film = s.film ∧
    ((defineLanguageEffect l t s).1).proof = s.proof ∧
    ((defineLanguageEffect l t s).1).freeCount = s.freeCount ∧
    ((defineLanguageEffect l t s).1).pending = s.pending := by
  simp only [defineLanguageEffect]
  (repeat' split) <;> simp [refuse, done]

@[simp] theorem queryLanguageEffect_keeps (s : State) (l : Nat) :
    ((queryLanguageEffect l s).1).link = s.link ∧
    ((queryLanguageEffect l s).1).fonts = s.fonts ∧
    ((queryLanguageEffect l s).1).turret = s.turret ∧
    ((queryLanguageEffect l s).1).jobs = s.jobs ∧
    ((queryLanguageEffect l s).1).galleyOrder = s.galleyOrder ∧
    ((queryLanguageEffect l s).1).house = s.house ∧
    ((queryLanguageEffect l s).1).houseLocked = s.houseLocked ∧
    ((queryLanguageEffect l s).1).galleyGap = s.galleyGap ∧
    ((queryLanguageEffect l s).1).exposureHead = s.exposureHead ∧
    ((queryLanguageEffect l s).1).proofHead = s.proofHead ∧
    ((queryLanguageEffect l s).1).engine = s.engine ∧
    ((queryLanguageEffect l s).1).languages = s.languages ∧
    ((queryLanguageEffect l s).1).dict = s.dict ∧
    ((queryLanguageEffect l s).1).queue = s.queue ∧
    ((queryLanguageEffect l s).1).expo = s.expo ∧
    ((queryLanguageEffect l s).1).lamp = s.lamp ∧
    ((queryLanguageEffect l s).1).film = s.film ∧
    ((queryLanguageEffect l s).1).proof = s.proof ∧
    ((queryLanguageEffect l s).1).freeCount = s.freeCount ∧
    ((queryLanguageEffect l s).1).pending = s.pending := by
  simp only [queryLanguageEffect]
  (repeat' split) <;> simp [refuse, done]

@[simp] theorem tryWordEffect_keeps (s : State) (n : Nat) (t : List Byte) :
    ((tryWordEffect n t s).1).link = s.link ∧
    ((tryWordEffect n t s).1).fonts = s.fonts ∧
    ((tryWordEffect n t s).1).turret = s.turret ∧
    ((tryWordEffect n t s).1).jobs = s.jobs ∧
    ((tryWordEffect n t s).1).galleyOrder = s.galleyOrder ∧
    ((tryWordEffect n t s).1).house = s.house ∧
    ((tryWordEffect n t s).1).houseLocked = s.houseLocked ∧
    ((tryWordEffect n t s).1).galleyGap = s.galleyGap ∧
    ((tryWordEffect n t s).1).exposureHead = s.exposureHead ∧
    ((tryWordEffect n t s).1).proofHead = s.proofHead ∧
    ((tryWordEffect n t s).1).engine = s.engine ∧
    ((tryWordEffect n t s).1).languages = s.languages ∧
    ((tryWordEffect n t s).1).dict = s.dict ∧
    ((tryWordEffect n t s).1).queue = s.queue ∧
    ((tryWordEffect n t s).1).expo = s.expo ∧
    ((tryWordEffect n t s).1).lamp = s.lamp ∧
    ((tryWordEffect n t s).1).film = s.film ∧
    ((tryWordEffect n t s).1).proof = s.proof ∧
    ((tryWordEffect n t s).1).freeCount = s.freeCount ∧
    ((tryWordEffect n t s).1).pending = s.pending := by
  simp only [tryWordEffect]
  (repeat' split) <;> simp [refuse, done]

@[simp] theorem queryJobEffect_keeps (s : State) (n : Nat) :
    ((queryJobEffect n s).1).link = s.link ∧
    ((queryJobEffect n s).1).fonts = s.fonts ∧
    ((queryJobEffect n s).1).turret = s.turret ∧
    ((queryJobEffect n s).1).jobs = s.jobs ∧
    ((queryJobEffect n s).1).galleyOrder = s.galleyOrder ∧
    ((queryJobEffect n s).1).house = s.house ∧
    ((queryJobEffect n s).1).houseLocked = s.houseLocked ∧
    ((queryJobEffect n s).1).galleyGap = s.galleyGap ∧
    ((queryJobEffect n s).1).exposureHead = s.exposureHead ∧
    ((queryJobEffect n s).1).proofHead = s.proofHead ∧
    ((queryJobEffect n s).1).engine = s.engine ∧
    ((queryJobEffect n s).1).languages = s.languages ∧
    ((queryJobEffect n s).1).dict = s.dict ∧
    ((queryJobEffect n s).1).queue = s.queue ∧
    ((queryJobEffect n s).1).expo = s.expo ∧
    ((queryJobEffect n s).1).lamp = s.lamp ∧
    ((queryJobEffect n s).1).film = s.film ∧
    ((queryJobEffect n s).1).proof = s.proof ∧
    ((queryJobEffect n s).1).freeCount = s.freeCount ∧
    ((queryJobEffect n s).1).pending = s.pending := by
  simp only [queryJobEffect]
  (repeat' split) <;> simp

@[simp] theorem setHouseStyleEffect_keeps (s : State) (h : HouseStyle) :
    ((setHouseStyleEffect h s).1).link = s.link ∧
    ((setHouseStyleEffect h s).1).fonts = s.fonts ∧
    ((setHouseStyleEffect h s).1).turret = s.turret ∧
    ((setHouseStyleEffect h s).1).jobs = s.jobs ∧
    ((setHouseStyleEffect h s).1).galleyOrder = s.galleyOrder ∧
    ((setHouseStyleEffect h s).1).houseLocked = s.houseLocked ∧
    ((setHouseStyleEffect h s).1).galleyGap = s.galleyGap ∧
    ((setHouseStyleEffect h s).1).exposureHead = s.exposureHead ∧
    ((setHouseStyleEffect h s).1).proofHead = s.proofHead ∧
    ((setHouseStyleEffect h s).1).engine = s.engine ∧
    ((setHouseStyleEffect h s).1).languages = s.languages ∧
    ((setHouseStyleEffect h s).1).dict = s.dict ∧
    ((setHouseStyleEffect h s).1).queue = s.queue ∧
    ((setHouseStyleEffect h s).1).expo = s.expo ∧
    ((setHouseStyleEffect h s).1).lamp = s.lamp ∧
    ((setHouseStyleEffect h s).1).film = s.film ∧
    ((setHouseStyleEffect h s).1).proof = s.proof ∧
    ((setHouseStyleEffect h s).1).freeCount = s.freeCount ∧
    ((setHouseStyleEffect h s).1).pending = s.pending := by
  simp only [setHouseStyleEffect]
  (repeat' split) <;> simp [refuse, done]

@[simp] theorem lockHouseEffect_keeps (s : State)  :
    ((lockHouseEffect s).1).link = s.link ∧
    ((lockHouseEffect s).1).fonts = s.fonts ∧
    ((lockHouseEffect s).1).turret = s.turret ∧
    ((lockHouseEffect s).1).jobs = s.jobs ∧
    ((lockHouseEffect s).1).galleyOrder = s.galleyOrder ∧
    ((lockHouseEffect s).1).house = s.house ∧
    ((lockHouseEffect s).1).galleyGap = s.galleyGap ∧
    ((lockHouseEffect s).1).exposureHead = s.exposureHead ∧
    ((lockHouseEffect s).1).proofHead = s.proofHead ∧
    ((lockHouseEffect s).1).engine = s.engine ∧
    ((lockHouseEffect s).1).languages = s.languages ∧
    ((lockHouseEffect s).1).dict = s.dict ∧
    ((lockHouseEffect s).1).queue = s.queue ∧
    ((lockHouseEffect s).1).expo = s.expo ∧
    ((lockHouseEffect s).1).lamp = s.lamp ∧
    ((lockHouseEffect s).1).film = s.film ∧
    ((lockHouseEffect s).1).proof = s.proof ∧
    ((lockHouseEffect s).1).freeCount = s.freeCount ∧
    ((lockHouseEffect s).1).pending = s.pending := by
  simp only [lockHouseEffect]
  (repeat' split) <;> simp [refuse, done]

@[simp] theorem setGalleyGapEffect_keeps (s : State) (g : Nat) :
    ((setGalleyGapEffect g s).1).link = s.link ∧
    ((setGalleyGapEffect g s).1).fonts = s.fonts ∧
    ((setGalleyGapEffect g s).1).turret = s.turret ∧
    ((setGalleyGapEffect g s).1).jobs = s.jobs ∧
    ((setGalleyGapEffect g s).1).galleyOrder = s.galleyOrder ∧
    ((setGalleyGapEffect g s).1).house = s.house ∧
    ((setGalleyGapEffect g s).1).houseLocked = s.houseLocked ∧
    ((setGalleyGapEffect g s).1).exposureHead = s.exposureHead ∧
    ((setGalleyGapEffect g s).1).proofHead = s.proofHead ∧
    ((setGalleyGapEffect g s).1).engine = s.engine ∧
    ((setGalleyGapEffect g s).1).languages = s.languages ∧
    ((setGalleyGapEffect g s).1).dict = s.dict ∧
    ((setGalleyGapEffect g s).1).queue = s.queue ∧
    ((setGalleyGapEffect g s).1).expo = s.expo ∧
    ((setGalleyGapEffect g s).1).lamp = s.lamp ∧
    ((setGalleyGapEffect g s).1).film = s.film ∧
    ((setGalleyGapEffect g s).1).proof = s.proof ∧
    ((setGalleyGapEffect g s).1).freeCount = s.freeCount ∧
    ((setGalleyGapEffect g s).1).pending = s.pending := by
  simp only [setGalleyGapEffect]
  (repeat' split) <;> simp [refuse, done]

@[simp] theorem queryExposureEffect_keeps (s : State)  :
    ((queryExposureEffect s).1).link = s.link ∧
    ((queryExposureEffect s).1).fonts = s.fonts ∧
    ((queryExposureEffect s).1).turret = s.turret ∧
    ((queryExposureEffect s).1).jobs = s.jobs ∧
    ((queryExposureEffect s).1).galleyOrder = s.galleyOrder ∧
    ((queryExposureEffect s).1).house = s.house ∧
    ((queryExposureEffect s).1).houseLocked = s.houseLocked ∧
    ((queryExposureEffect s).1).galleyGap = s.galleyGap ∧
    ((queryExposureEffect s).1).exposureHead = s.exposureHead ∧
    ((queryExposureEffect s).1).proofHead = s.proofHead ∧
    ((queryExposureEffect s).1).engine = s.engine ∧
    ((queryExposureEffect s).1).languages = s.languages ∧
    ((queryExposureEffect s).1).dict = s.dict ∧
    ((queryExposureEffect s).1).queue = s.queue ∧
    ((queryExposureEffect s).1).expo = s.expo ∧
    ((queryExposureEffect s).1).lamp = s.lamp ∧
    ((queryExposureEffect s).1).film = s.film ∧
    ((queryExposureEffect s).1).proof = s.proof ∧
    ((queryExposureEffect s).1).freeCount = s.freeCount ∧
    ((queryExposureEffect s).1).pending = s.pending := by
  simp [queryExposureEffect]

@[simp] theorem holdExposureEffect_keeps (s : State)  :
    ((holdExposureEffect s).1).link.mask = s.link.mask ∧
    ((holdExposureEffect s).1).link.throttleMs = s.link.throttleMs ∧
    ((holdExposureEffect s).1).link.delayMs = s.link.delayMs ∧
    ((holdExposureEffect s).1).link.limitMs = s.link.limitMs ∧
    ((holdExposureEffect s).1).link.throttle = s.link.throttle ∧
    ((holdExposureEffect s).1).link.delayTimer = s.link.delayTimer ∧
    ((holdExposureEffect s).1).link.absTimer = s.link.absTimer ∧
    ((holdExposureEffect s).1).link.cause = s.link.cause ∧
    ((holdExposureEffect s).1).link.replies = s.link.replies ∧
    ((holdExposureEffect s).1).link.direction = s.link.direction ∧
    ((holdExposureEffect s).1).link.frameBegun = s.link.frameBegun ∧
    ((holdExposureEffect s).1).link.discarding = s.link.discarding ∧
    ((holdExposureEffect s).1).link.withheld = s.link.withheld ∧
    ((holdExposureEffect s).1).fonts = s.fonts ∧
    ((holdExposureEffect s).1).turret = s.turret ∧
    ((holdExposureEffect s).1).jobs = s.jobs ∧
    ((holdExposureEffect s).1).galleyOrder = s.galleyOrder ∧
    ((holdExposureEffect s).1).house = s.house ∧
    ((holdExposureEffect s).1).houseLocked = s.houseLocked ∧
    ((holdExposureEffect s).1).galleyGap = s.galleyGap ∧
    ((holdExposureEffect s).1).exposureHead = s.exposureHead ∧
    ((holdExposureEffect s).1).proofHead = s.proofHead ∧
    ((holdExposureEffect s).1).engine = s.engine ∧
    ((holdExposureEffect s).1).languages = s.languages ∧
    ((holdExposureEffect s).1).dict = s.dict ∧
    ((holdExposureEffect s).1).queue = s.queue ∧
    ((holdExposureEffect s).1).expo.stops = s.expo.stops ∧
    ((holdExposureEffect s).1).expo.flight = s.expo.flight ∧
    ((holdExposureEffect s).1).expo.named = s.expo.named ∧
    ((holdExposureEffect s).1).expo.lastExposed = s.expo.lastExposed ∧
    ((holdExposureEffect s).1).expo.linesExposed = s.expo.linesExposed ∧
    ((holdExposureEffect s).1).expo.linesSpoiled = s.expo.linesSpoiled ∧
    ((holdExposureEffect s).1).expo.lens = s.expo.lens ∧
    ((holdExposureEffect s).1).expo.lensTarget = s.expo.lensTarget ∧
    ((holdExposureEffect s).1).expo.carriage = s.expo.carriage ∧
    ((holdExposureEffect s).1).expo.carriageTarget = s.expo.carriageTarget ∧
    ((holdExposureEffect s).1).expo.flashing = s.expo.flashing ∧
    ((holdExposureEffect s).1).expo.lastDuration = s.expo.lastDuration ∧
    ((holdExposureEffect s).1).expo.lastClamped = s.expo.lastClamped ∧
    ((holdExposureEffect s).1).lamp = s.lamp ∧
    ((holdExposureEffect s).1).film = s.film ∧
    ((holdExposureEffect s).1).proof = s.proof ∧
    ((holdExposureEffect s).1).freeCount = s.freeCount ∧
    ((holdExposureEffect s).1).pending = s.pending := by
  simp only [holdExposureEffect]
  (repeat' split) <;> simp [refuse, done]

@[simp] theorem releaseExposureEffect_keeps (s : State)  :
    ((releaseExposureEffect s).1).link = s.link ∧
    ((releaseExposureEffect s).1).fonts = s.fonts ∧
    ((releaseExposureEffect s).1).turret = s.turret ∧
    ((releaseExposureEffect s).1).jobs = s.jobs ∧
    ((releaseExposureEffect s).1).galleyOrder = s.galleyOrder ∧
    ((releaseExposureEffect s).1).house = s.house ∧
    ((releaseExposureEffect s).1).houseLocked = s.houseLocked ∧
    ((releaseExposureEffect s).1).galleyGap = s.galleyGap ∧
    ((releaseExposureEffect s).1).exposureHead = s.exposureHead ∧
    ((releaseExposureEffect s).1).proofHead = s.proofHead ∧
    ((releaseExposureEffect s).1).engine = s.engine ∧
    ((releaseExposureEffect s).1).languages = s.languages ∧
    ((releaseExposureEffect s).1).dict = s.dict ∧
    ((releaseExposureEffect s).1).queue = s.queue ∧
    ((releaseExposureEffect s).1).expo.stops = s.expo.stops ∧
    ((releaseExposureEffect s).1).expo.flight = s.expo.flight ∧
    ((releaseExposureEffect s).1).expo.named = s.expo.named ∧
    ((releaseExposureEffect s).1).expo.lastExposed = s.expo.lastExposed ∧
    ((releaseExposureEffect s).1).expo.linesExposed = s.expo.linesExposed ∧
    ((releaseExposureEffect s).1).expo.linesSpoiled = s.expo.linesSpoiled ∧
    ((releaseExposureEffect s).1).expo.lens = s.expo.lens ∧
    ((releaseExposureEffect s).1).expo.lensTarget = s.expo.lensTarget ∧
    ((releaseExposureEffect s).1).expo.carriage = s.expo.carriage ∧
    ((releaseExposureEffect s).1).expo.carriageTarget = s.expo.carriageTarget ∧
    ((releaseExposureEffect s).1).expo.flashing = s.expo.flashing ∧
    ((releaseExposureEffect s).1).expo.lastDuration = s.expo.lastDuration ∧
    ((releaseExposureEffect s).1).expo.lastClamped = s.expo.lastClamped ∧
    ((releaseExposureEffect s).1).lamp = s.lamp ∧
    ((releaseExposureEffect s).1).film = s.film ∧
    ((releaseExposureEffect s).1).proof = s.proof ∧
    ((releaseExposureEffect s).1).freeCount = s.freeCount ∧
    ((releaseExposureEffect s).1).pending = s.pending := by
  simp only [releaseExposureEffect]
  (repeat' split) <;> simp [refuse, done]

@[simp] theorem lampOnEffect_keeps (s : State)  :
    ((lampOnEffect s).1).link = s.link ∧
    ((lampOnEffect s).1).fonts = s.fonts ∧
    ((lampOnEffect s).1).turret = s.turret ∧
    ((lampOnEffect s).1).jobs = s.jobs ∧
    ((lampOnEffect s).1).galleyOrder = s.galleyOrder ∧
    ((lampOnEffect s).1).house = s.house ∧
    ((lampOnEffect s).1).houseLocked = s.houseLocked ∧
    ((lampOnEffect s).1).galleyGap = s.galleyGap ∧
    ((lampOnEffect s).1).exposureHead = s.exposureHead ∧
    ((lampOnEffect s).1).proofHead = s.proofHead ∧
    ((lampOnEffect s).1).engine = s.engine ∧
    ((lampOnEffect s).1).languages = s.languages ∧
    ((lampOnEffect s).1).dict = s.dict ∧
    ((lampOnEffect s).1).queue = s.queue ∧
    ((lampOnEffect s).1).expo = s.expo ∧
    ((lampOnEffect s).1).lamp.index = s.lamp.index ∧
    ((lampOnEffect s).1).lamp.weak = s.lamp.weak ∧
    ((lampOnEffect s).1).lamp.weakLimit = s.lamp.weakLimit ∧
    ((lampOnEffect s).1).lamp.failLimit = s.lamp.failLimit ∧
    ((lampOnEffect s).1).lamp.economyTimeout = s.lamp.economyTimeout ∧
    ((lampOnEffect s).1).lamp.economyTimer = s.lamp.economyTimer ∧
    ((lampOnEffect s).1).lamp.recoveryTimer = s.lamp.recoveryTimer ∧
    ((lampOnEffect s).1).lamp.validityTimer = s.lamp.validityTimer ∧
    ((lampOnEffect s).1).film = s.film ∧
    ((lampOnEffect s).1).proof = s.proof ∧
    ((lampOnEffect s).1).freeCount = s.freeCount ∧
    ((lampOnEffect s).1).pending = s.pending := by
  simp only [lampOnEffect]
  (repeat' split) <;> simp [refuse, done]

@[simp] theorem lampOffEffect_keeps (s : State)  :
    ((lampOffEffect s).1).link = s.link ∧
    ((lampOffEffect s).1).fonts = s.fonts ∧
    ((lampOffEffect s).1).turret = s.turret ∧
    ((lampOffEffect s).1).jobs = s.jobs ∧
    ((lampOffEffect s).1).galleyOrder = s.galleyOrder ∧
    ((lampOffEffect s).1).house = s.house ∧
    ((lampOffEffect s).1).houseLocked = s.houseLocked ∧
    ((lampOffEffect s).1).galleyGap = s.galleyGap ∧
    ((lampOffEffect s).1).exposureHead = s.exposureHead ∧
    ((lampOffEffect s).1).proofHead = s.proofHead ∧
    ((lampOffEffect s).1).engine = s.engine ∧
    ((lampOffEffect s).1).languages = s.languages ∧
    ((lampOffEffect s).1).dict = s.dict ∧
    ((lampOffEffect s).1).queue = s.queue ∧
    ((lampOffEffect s).1).expo = s.expo ∧
    ((lampOffEffect s).1).lamp.index = s.lamp.index ∧
    ((lampOffEffect s).1).lamp.weakLimit = s.lamp.weakLimit ∧
    ((lampOffEffect s).1).lamp.failLimit = s.lamp.failLimit ∧
    ((lampOffEffect s).1).lamp.economyTimeout = s.lamp.economyTimeout ∧
    ((lampOffEffect s).1).film = s.film ∧
    ((lampOffEffect s).1).proof = s.proof ∧
    ((lampOffEffect s).1).freeCount = s.freeCount ∧
    ((lampOffEffect s).1).pending = s.pending := by
  simp only [lampOffEffect]
  (repeat' split) <;> simp [refuse, done]

@[simp] theorem queryProofEffect_keeps (s : State)  :
    ((queryProofEffect s).1).link = s.link ∧
    ((queryProofEffect s).1).fonts = s.fonts ∧
    ((queryProofEffect s).1).turret = s.turret ∧
    ((queryProofEffect s).1).jobs = s.jobs ∧
    ((queryProofEffect s).1).galleyOrder = s.galleyOrder ∧
    ((queryProofEffect s).1).house = s.house ∧
    ((queryProofEffect s).1).houseLocked = s.houseLocked ∧
    ((queryProofEffect s).1).galleyGap = s.galleyGap ∧
    ((queryProofEffect s).1).exposureHead = s.exposureHead ∧
    ((queryProofEffect s).1).proofHead = s.proofHead ∧
    ((queryProofEffect s).1).engine = s.engine ∧
    ((queryProofEffect s).1).languages = s.languages ∧
    ((queryProofEffect s).1).dict = s.dict ∧
    ((queryProofEffect s).1).queue = s.queue ∧
    ((queryProofEffect s).1).expo = s.expo ∧
    ((queryProofEffect s).1).lamp = s.lamp ∧
    ((queryProofEffect s).1).film = s.film ∧
    ((queryProofEffect s).1).proof = s.proof ∧
    ((queryProofEffect s).1).pending = s.pending := by
  simp only [queryProofEffect]
  (repeat' split) <;> simp

@[simp] theorem queryFilmEffect_keeps (s : State)  :
    ((queryFilmEffect s).1).link = s.link ∧
    ((queryFilmEffect s).1).fonts = s.fonts ∧
    ((queryFilmEffect s).1).turret = s.turret ∧
    ((queryFilmEffect s).1).jobs = s.jobs ∧
    ((queryFilmEffect s).1).galleyOrder = s.galleyOrder ∧
    ((queryFilmEffect s).1).house = s.house ∧
    ((queryFilmEffect s).1).houseLocked = s.houseLocked ∧
    ((queryFilmEffect s).1).galleyGap = s.galleyGap ∧
    ((queryFilmEffect s).1).exposureHead = s.exposureHead ∧
    ((queryFilmEffect s).1).proofHead = s.proofHead ∧
    ((queryFilmEffect s).1).engine = s.engine ∧
    ((queryFilmEffect s).1).languages = s.languages ∧
    ((queryFilmEffect s).1).dict = s.dict ∧
    ((queryFilmEffect s).1).queue = s.queue ∧
    ((queryFilmEffect s).1).expo = s.expo ∧
    ((queryFilmEffect s).1).lamp = s.lamp ∧
    ((queryFilmEffect s).1).film = s.film ∧
    ((queryFilmEffect s).1).proof = s.proof ∧
    ((queryFilmEffect s).1).pending = s.pending := by
  simp [queryFilmEffect]

@[simp] theorem queryQueueEffect_keeps (s : State) (q : QueueQuery) :
    ((queryQueueEffect q s).1).link = s.link ∧
    ((queryQueueEffect q s).1).fonts = s.fonts ∧
    ((queryQueueEffect q s).1).turret = s.turret ∧
    ((queryQueueEffect q s).1).jobs = s.jobs ∧
    ((queryQueueEffect q s).1).galleyOrder = s.galleyOrder ∧
    ((queryQueueEffect q s).1).house = s.house ∧
    ((queryQueueEffect q s).1).houseLocked = s.houseLocked ∧
    ((queryQueueEffect q s).1).galleyGap = s.galleyGap ∧
    ((queryQueueEffect q s).1).exposureHead = s.exposureHead ∧
    ((queryQueueEffect q s).1).proofHead = s.proofHead ∧
    ((queryQueueEffect q s).1).engine = s.engine ∧
    ((queryQueueEffect q s).1).languages = s.languages ∧
    ((queryQueueEffect q s).1).dict = s.dict ∧
    ((queryQueueEffect q s).1).queue = s.queue ∧
    ((queryQueueEffect q s).1).expo = s.expo ∧
    ((queryQueueEffect q s).1).lamp = s.lamp ∧
    ((queryQueueEffect q s).1).film = s.film ∧
    ((queryQueueEffect q s).1).proof = s.proof ∧
    ((queryQueueEffect q s).1).freeCount = s.freeCount ∧
    ((queryQueueEffect q s).1).pending = s.pending := by
  simp only [queryQueueEffect]
  (repeat' split) <;> simp [refuse, done]

@[simp] theorem setProofEffect_keeps (s : State) (e r : Nat) :
    ((setProofEffect e r s).1).link = s.link ∧
    ((setProofEffect e r s).1).fonts = s.fonts ∧
    ((setProofEffect e r s).1).turret = s.turret ∧
    ((setProofEffect e r s).1).jobs = s.jobs ∧
    ((setProofEffect e r s).1).galleyOrder = s.galleyOrder ∧
    ((setProofEffect e r s).1).house = s.house ∧
    ((setProofEffect e r s).1).houseLocked = s.houseLocked ∧
    ((setProofEffect e r s).1).galleyGap = s.galleyGap ∧
    ((setProofEffect e r s).1).exposureHead = s.exposureHead ∧
    ((setProofEffect e r s).1).proofHead = s.proofHead ∧
    ((setProofEffect e r s).1).engine = s.engine ∧
    ((setProofEffect e r s).1).languages = s.languages ∧
    ((setProofEffect e r s).1).dict = s.dict ∧
    ((setProofEffect e r s).1).queue = s.queue ∧
    ((setProofEffect e r s).1).expo = s.expo ∧
    ((setProofEffect e r s).1).lamp = s.lamp ∧
    ((setProofEffect e r s).1).film = s.film ∧
    ((setProofEffect e r s).1).freeCount = s.freeCount ∧
    ((setProofEffect e r s).1).pending = s.pending := by
  simp only [setProofEffect]
  (repeat' split) <;> simp [refuse, done]

@[simp] theorem openJobEffect_keeps (s : State) (n i : Nat) (p : OpenParams) :
    ((openJobEffect n i p s).1).link = s.link ∧
    ((openJobEffect n i p s).1).fonts = s.fonts ∧
    ((openJobEffect n i p s).1).turret = s.turret ∧
    ((openJobEffect n i p s).1).jobs.length = s.jobs.length ∧
    ((openJobEffect n i p s).1).house = s.house ∧
    ((openJobEffect n i p s).1).houseLocked = s.houseLocked ∧
    ((openJobEffect n i p s).1).galleyGap = s.galleyGap ∧
    ((openJobEffect n i p s).1).exposureHead = s.exposureHead ∧
    ((openJobEffect n i p s).1).proofHead = s.proofHead ∧
    ((openJobEffect n i p s).1).engine = s.engine ∧
    ((openJobEffect n i p s).1).languages = s.languages ∧
    ((openJobEffect n i p s).1).dict = s.dict ∧
    ((openJobEffect n i p s).1).queue = s.queue ∧
    ((openJobEffect n i p s).1).expo = s.expo ∧
    ((openJobEffect n i p s).1).lamp = s.lamp ∧
    ((openJobEffect n i p s).1).film = s.film ∧
    ((openJobEffect n i p s).1).proof = s.proof ∧
    ((openJobEffect n i p s).1).freeCount = s.freeCount ∧
    ((openJobEffect n i p s).1).pending = s.pending := by
  simp only [openJobEffect]
  (repeat' split) <;> simp [refuse, done]

@[simp] theorem dropLineRefs_keeps (s : State) (l : List Nat) :
    (s.dropLineRefs l).link = s.link ∧
    (s.dropLineRefs l).turret = s.turret ∧
    (s.dropLineRefs l).jobs = s.jobs ∧
    (s.dropLineRefs l).galleyOrder = s.galleyOrder ∧
    (s.dropLineRefs l).house = s.house ∧
    (s.dropLineRefs l).houseLocked = s.houseLocked ∧
    (s.dropLineRefs l).galleyGap = s.galleyGap ∧
    (s.dropLineRefs l).exposureHead = s.exposureHead ∧
    (s.dropLineRefs l).proofHead = s.proofHead ∧
    (s.dropLineRefs l).engine = s.engine ∧
    (s.dropLineRefs l).languages = s.languages ∧
    (s.dropLineRefs l).dict = s.dict ∧
    (s.dropLineRefs l).queue = s.queue ∧
    (s.dropLineRefs l).expo = s.expo ∧
    (s.dropLineRefs l).lamp = s.lamp ∧
    (s.dropLineRefs l).film = s.film ∧
    (s.dropLineRefs l).proof = s.proof ∧
    (s.dropLineRefs l).freeCount = s.freeCount ∧
    (s.dropLineRefs l).pending = s.pending := by
  exact ⟨by (simp only [State.dropLineRefs]; exact foldl_keeps (P := fun s : State => s.link) (fun s n => by simp) _ _), by (simp only [State.dropLineRefs]; exact foldl_keeps (P := fun s : State => s.turret) (fun s n => by simp) _ _), by (simp only [State.dropLineRefs]; exact foldl_keeps (P := fun s : State => s.jobs) (fun s n => by simp) _ _), by (simp only [State.dropLineRefs]; exact foldl_keeps (P := fun s : State => s.galleyOrder) (fun s n => by simp) _ _), by (simp only [State.dropLineRefs]; exact foldl_keeps (P := fun s : State => s.house) (fun s n => by simp) _ _), by (simp only [State.dropLineRefs]; exact foldl_keeps (P := fun s : State => s.houseLocked) (fun s n => by simp) _ _), by (simp only [State.dropLineRefs]; exact foldl_keeps (P := fun s : State => s.galleyGap) (fun s n => by simp) _ _), by (simp only [State.dropLineRefs]; exact foldl_keeps (P := fun s : State => s.exposureHead) (fun s n => by simp) _ _), by (simp only [State.dropLineRefs]; exact foldl_keeps (P := fun s : State => s.proofHead) (fun s n => by simp) _ _), by (simp only [State.dropLineRefs]; exact foldl_keeps (P := fun s : State => s.engine) (fun s n => by simp) _ _), by (simp only [State.dropLineRefs]; exact foldl_keeps (P := fun s : State => s.languages) (fun s n => by simp) _ _), by (simp only [State.dropLineRefs]; exact foldl_keeps (P := fun s : State => s.dict) (fun s n => by simp) _ _), by (simp only [State.dropLineRefs]; exact foldl_keeps (P := fun s : State => s.queue) (fun s n => by simp) _ _), by (simp only [State.dropLineRefs]; exact foldl_keeps (P := fun s : State => s.expo) (fun s n => by simp) _ _), by (simp only [State.dropLineRefs]; exact foldl_keeps (P := fun s : State => s.lamp) (fun s n => by simp) _ _), by (simp only [State.dropLineRefs]; exact foldl_keeps (P := fun s : State => s.film) (fun s n => by simp) _ _), by (simp only [State.dropLineRefs]; exact foldl_keeps (P := fun s : State => s.proof) (fun s n => by simp) _ _), by (simp only [State.dropLineRefs]; exact foldl_keeps (P := fun s : State => s.freeCount) (fun s n => by simp) _ _), by (simp only [State.dropLineRefs]; exact foldl_keeps (P := fun s : State => s.pending) (fun s n => by simp) _ _)⟩

@[simp] theorem passRefs_keeps (s : State) (l : List Nat) :
    (s.passRefs l).link = s.link ∧
    (s.passRefs l).turret = s.turret ∧
    (s.passRefs l).jobs = s.jobs ∧
    (s.passRefs l).galleyOrder = s.galleyOrder ∧
    (s.passRefs l).house = s.house ∧
    (s.passRefs l).houseLocked = s.houseLocked ∧
    (s.passRefs l).galleyGap = s.galleyGap ∧
    (s.passRefs l).exposureHead = s.exposureHead ∧
    (s.passRefs l).proofHead = s.proofHead ∧
    (s.passRefs l).engine = s.engine ∧
    (s.passRefs l).languages = s.languages ∧
    (s.passRefs l).dict = s.dict ∧
    (s.passRefs l).queue = s.queue ∧
    (s.passRefs l).expo = s.expo ∧
    (s.passRefs l).lamp = s.lamp ∧
    (s.passRefs l).film = s.film ∧
    (s.passRefs l).proof = s.proof ∧
    (s.passRefs l).freeCount = s.freeCount ∧
    (s.passRefs l).pending = s.pending := by
  exact ⟨by (simp only [State.passRefs]; exact foldl_keeps (P := fun s : State => s.link) (fun s n => by simp) _ _), by (simp only [State.passRefs]; exact foldl_keeps (P := fun s : State => s.turret) (fun s n => by simp) _ _), by (simp only [State.passRefs]; exact foldl_keeps (P := fun s : State => s.jobs) (fun s n => by simp) _ _), by (simp only [State.passRefs]; exact foldl_keeps (P := fun s : State => s.galleyOrder) (fun s n => by simp) _ _), by (simp only [State.passRefs]; exact foldl_keeps (P := fun s : State => s.house) (fun s n => by simp) _ _), by (simp only [State.passRefs]; exact foldl_keeps (P := fun s : State => s.houseLocked) (fun s n => by simp) _ _), by (simp only [State.passRefs]; exact foldl_keeps (P := fun s : State => s.galleyGap) (fun s n => by simp) _ _), by (simp only [State.passRefs]; exact foldl_keeps (P := fun s : State => s.exposureHead) (fun s n => by simp) _ _), by (simp only [State.passRefs]; exact foldl_keeps (P := fun s : State => s.proofHead) (fun s n => by simp) _ _), by (simp only [State.passRefs]; exact foldl_keeps (P := fun s : State => s.engine) (fun s n => by simp) _ _), by (simp only [State.passRefs]; exact foldl_keeps (P := fun s : State => s.languages) (fun s n => by simp) _ _), by (simp only [State.passRefs]; exact foldl_keeps (P := fun s : State => s.dict) (fun s n => by simp) _ _), by (simp only [State.passRefs]; exact foldl_keeps (P := fun s : State => s.queue) (fun s n => by simp) _ _), by (simp only [State.passRefs]; exact foldl_keeps (P := fun s : State => s.expo) (fun s n => by simp) _ _), by (simp only [State.passRefs]; exact foldl_keeps (P := fun s : State => s.lamp) (fun s n => by simp) _ _), by (simp only [State.passRefs]; exact foldl_keeps (P := fun s : State => s.film) (fun s n => by simp) _ _), by (simp only [State.passRefs]; exact foldl_keeps (P := fun s : State => s.proof) (fun s n => by simp) _ _), by (simp only [State.passRefs]; exact foldl_keeps (P := fun s : State => s.freeCount) (fun s n => by simp) _ _), by (simp only [State.passRefs]; exact foldl_keeps (P := fun s : State => s.pending) (fun s n => by simp) _ _)⟩

@[simp] theorem dropEntryRefs_keeps (s : State) (l : List Nat) :
    (s.dropEntryRefs l).link = s.link ∧
    (s.dropEntryRefs l).turret = s.turret ∧
    (s.dropEntryRefs l).jobs = s.jobs ∧
    (s.dropEntryRefs l).galleyOrder = s.galleyOrder ∧
    (s.dropEntryRefs l).house = s.house ∧
    (s.dropEntryRefs l).houseLocked = s.houseLocked ∧
    (s.dropEntryRefs l).galleyGap = s.galleyGap ∧
    (s.dropEntryRefs l).exposureHead = s.exposureHead ∧
    (s.dropEntryRefs l).proofHead = s.proofHead ∧
    (s.dropEntryRefs l).engine = s.engine ∧
    (s.dropEntryRefs l).languages = s.languages ∧
    (s.dropEntryRefs l).dict = s.dict ∧
    (s.dropEntryRefs l).queue = s.queue ∧
    (s.dropEntryRefs l).expo = s.expo ∧
    (s.dropEntryRefs l).lamp = s.lamp ∧
    (s.dropEntryRefs l).film = s.film ∧
    (s.dropEntryRefs l).proof = s.proof ∧
    (s.dropEntryRefs l).freeCount = s.freeCount ∧
    (s.dropEntryRefs l).pending = s.pending := by
  exact ⟨by (simp only [State.dropEntryRefs]; exact foldl_keeps (P := fun s : State => s.link) (fun s n => by simp) _ _), by (simp only [State.dropEntryRefs]; exact foldl_keeps (P := fun s : State => s.turret) (fun s n => by simp) _ _), by (simp only [State.dropEntryRefs]; exact foldl_keeps (P := fun s : State => s.jobs) (fun s n => by simp) _ _), by (simp only [State.dropEntryRefs]; exact foldl_keeps (P := fun s : State => s.galleyOrder) (fun s n => by simp) _ _), by (simp only [State.dropEntryRefs]; exact foldl_keeps (P := fun s : State => s.house) (fun s n => by simp) _ _), by (simp only [State.dropEntryRefs]; exact foldl_keeps (P := fun s : State => s.houseLocked) (fun s n => by simp) _ _), by (simp only [State.dropEntryRefs]; exact foldl_keeps (P := fun s : State => s.galleyGap) (fun s n => by simp) _ _), by (simp only [State.dropEntryRefs]; exact foldl_keeps (P := fun s : State => s.exposureHead) (fun s n => by simp) _ _), by (simp only [State.dropEntryRefs]; exact foldl_keeps (P := fun s : State => s.proofHead) (fun s n => by simp) _ _), by (simp only [State.dropEntryRefs]; exact foldl_keeps (P := fun s : State => s.engine) (fun s n => by simp) _ _), by (simp only [State.dropEntryRefs]; exact foldl_keeps (P := fun s : State => s.languages) (fun s n => by simp) _ _), by (simp only [State.dropEntryRefs]; exact foldl_keeps (P := fun s : State => s.dict) (fun s n => by simp) _ _), by (simp only [State.dropEntryRefs]; exact foldl_keeps (P := fun s : State => s.queue) (fun s n => by simp) _ _), by (simp only [State.dropEntryRefs]; exact foldl_keeps (P := fun s : State => s.expo) (fun s n => by simp) _ _), by (simp only [State.dropEntryRefs]; exact foldl_keeps (P := fun s : State => s.lamp) (fun s n => by simp) _ _), by (simp only [State.dropEntryRefs]; exact foldl_keeps (P := fun s : State => s.film) (fun s n => by simp) _ _), by (simp only [State.dropEntryRefs]; exact foldl_keeps (P := fun s : State => s.proof) (fun s n => by simp) _ _), by (simp only [State.dropEntryRefs]; exact foldl_keeps (P := fun s : State => s.freeCount) (fun s n => by simp) _ _), by (simp only [State.dropEntryRefs]; exact foldl_keeps (P := fun s : State => s.pending) (fun s n => by simp) _ _)⟩

@[simp] theorem dropClaims_keeps (s : State) (l : List Nat) :
    (s.dropClaims l).link = s.link ∧
    (s.dropClaims l).fonts = s.fonts ∧
    (s.dropClaims l).turret.position = s.turret.position ∧
    (s.dropClaims l).turret.motion = s.turret.motion ∧
    (s.dropClaims l).turret.pass = s.turret.pass ∧
    (s.dropClaims l).turret.latchEngaged = s.turret.latchEngaged ∧
    (s.dropClaims l).turret.hatchOpen = s.turret.hatchOpen ∧
    (s.dropClaims l).turret.hatchMark = s.turret.hatchMark ∧
    (s.dropClaims l).turret.exchange = s.turret.exchange ∧
    (s.dropClaims l).turret.cancelPending = s.turret.cancelPending ∧
    (s.dropClaims l).turret.read = s.turret.read ∧
    (s.dropClaims l).turret.protection = s.turret.protection ∧
    (s.dropClaims l).turret.lineOpen = s.turret.lineOpen ∧
    (s.dropClaims l).turret.lineEndDue = s.turret.lineEndDue ∧
    (s.dropClaims l).turret.stations.length = s.turret.stations.length ∧
    (s.dropClaims l).jobs = s.jobs ∧
    (s.dropClaims l).galleyOrder = s.galleyOrder ∧
    (s.dropClaims l).house = s.house ∧
    (s.dropClaims l).houseLocked = s.houseLocked ∧
    (s.dropClaims l).galleyGap = s.galleyGap ∧
    (s.dropClaims l).exposureHead = s.exposureHead ∧
    (s.dropClaims l).proofHead = s.proofHead ∧
    (s.dropClaims l).engine = s.engine ∧
    (s.dropClaims l).languages = s.languages ∧
    (s.dropClaims l).dict = s.dict ∧
    (s.dropClaims l).queue = s.queue ∧
    (s.dropClaims l).expo = s.expo ∧
    (s.dropClaims l).lamp = s.lamp ∧
    (s.dropClaims l).film = s.film ∧
    (s.dropClaims l).proof = s.proof ∧
    (s.dropClaims l).freeCount = s.freeCount ∧
    (s.dropClaims l).pending = s.pending := by
  exact ⟨by (simp only [State.dropClaims]; exact foldl_keeps (P := fun s : State => s.link) (fun s n => by simp) _ _), by (simp only [State.dropClaims]; exact foldl_keeps (P := fun s : State => s.fonts) (fun s n => by simp) _ _), by (simp only [State.dropClaims]; exact foldl_keeps (P := fun s : State => s.turret.position) (fun s n => by simp) _ _), by (simp only [State.dropClaims]; exact foldl_keeps (P := fun s : State => s.turret.motion) (fun s n => by simp) _ _), by (simp only [State.dropClaims]; exact foldl_keeps (P := fun s : State => s.turret.pass) (fun s n => by simp) _ _), by (simp only [State.dropClaims]; exact foldl_keeps (P := fun s : State => s.turret.latchEngaged) (fun s n => by simp) _ _), by (simp only [State.dropClaims]; exact foldl_keeps (P := fun s : State => s.turret.hatchOpen) (fun s n => by simp) _ _), by (simp only [State.dropClaims]; exact foldl_keeps (P := fun s : State => s.turret.hatchMark) (fun s n => by simp) _ _), by (simp only [State.dropClaims]; exact foldl_keeps (P := fun s : State => s.turret.exchange) (fun s n => by simp) _ _), by (simp only [State.dropClaims]; exact foldl_keeps (P := fun s : State => s.turret.cancelPending) (fun s n => by simp) _ _), by (simp only [State.dropClaims]; exact foldl_keeps (P := fun s : State => s.turret.read) (fun s n => by simp) _ _), by (simp only [State.dropClaims]; exact foldl_keeps (P := fun s : State => s.turret.protection) (fun s n => by simp) _ _), by (simp only [State.dropClaims]; exact foldl_keeps (P := fun s : State => s.turret.lineOpen) (fun s n => by simp) _ _), by (simp only [State.dropClaims]; exact foldl_keeps (P := fun s : State => s.turret.lineEndDue) (fun s n => by simp) _ _), by (simp only [State.dropClaims]; exact foldl_keeps (P := fun s : State => s.turret.stations.length) (fun s n => by simp) _ _), by (simp only [State.dropClaims]; exact foldl_keeps (P := fun s : State => s.jobs) (fun s n => by simp) _ _), by (simp only [State.dropClaims]; exact foldl_keeps (P := fun s : State => s.galleyOrder) (fun s n => by simp) _ _), by (simp only [State.dropClaims]; exact foldl_keeps (P := fun s : State => s.house) (fun s n => by simp) _ _), by (simp only [State.dropClaims]; exact foldl_keeps (P := fun s : State => s.houseLocked) (fun s n => by simp) _ _), by (simp only [State.dropClaims]; exact foldl_keeps (P := fun s : State => s.galleyGap) (fun s n => by simp) _ _), by (simp only [State.dropClaims]; exact foldl_keeps (P := fun s : State => s.exposureHead) (fun s n => by simp) _ _), by (simp only [State.dropClaims]; exact foldl_keeps (P := fun s : State => s.proofHead) (fun s n => by simp) _ _), by (simp only [State.dropClaims]; exact foldl_keeps (P := fun s : State => s.engine) (fun s n => by simp) _ _), by (simp only [State.dropClaims]; exact foldl_keeps (P := fun s : State => s.languages) (fun s n => by simp) _ _), by (simp only [State.dropClaims]; exact foldl_keeps (P := fun s : State => s.dict) (fun s n => by simp) _ _), by (simp only [State.dropClaims]; exact foldl_keeps (P := fun s : State => s.queue) (fun s n => by simp) _ _), by (simp only [State.dropClaims]; exact foldl_keeps (P := fun s : State => s.expo) (fun s n => by simp) _ _), by (simp only [State.dropClaims]; exact foldl_keeps (P := fun s : State => s.lamp) (fun s n => by simp) _ _), by (simp only [State.dropClaims]; exact foldl_keeps (P := fun s : State => s.film) (fun s n => by simp) _ _), by (simp only [State.dropClaims]; exact foldl_keeps (P := fun s : State => s.proof) (fun s n => by simp) _ _), by (simp only [State.dropClaims]; exact foldl_keeps (P := fun s : State => s.freeCount) (fun s n => by simp) _ _), by (simp only [State.dropClaims]; exact foldl_keeps (P := fun s : State => s.pending) (fun s n => by simp) _ _)⟩

@[simp] theorem pinStations_keeps (s : State) (l : List Nat) :
    (s.pinStations l).link = s.link ∧
    (s.pinStations l).fonts = s.fonts ∧
    (s.pinStations l).turret.position = s.turret.position ∧
    (s.pinStations l).turret.motion = s.turret.motion ∧
    (s.pinStations l).turret.pass = s.turret.pass ∧
    (s.pinStations l).turret.latchEngaged = s.turret.latchEngaged ∧
    (s.pinStations l).turret.hatchOpen = s.turret.hatchOpen ∧
    (s.pinStations l).turret.hatchMark = s.turret.hatchMark ∧
    (s.pinStations l).turret.exchange = s.turret.exchange ∧
    (s.pinStations l).turret.cancelPending = s.turret.cancelPending ∧
    (s.pinStations l).turret.read = s.turret.read ∧
    (s.pinStations l).turret.protection = s.turret.protection ∧
    (s.pinStations l).turret.lineOpen = s.turret.lineOpen ∧
    (s.pinStations l).turret.lineEndDue = s.turret.lineEndDue ∧
    (s.pinStations l).turret.stations.length = s.turret.stations.length ∧
    (s.pinStations l).jobs = s.jobs ∧
    (s.pinStations l).galleyOrder = s.galleyOrder ∧
    (s.pinStations l).house = s.house ∧
    (s.pinStations l).houseLocked = s.houseLocked ∧
    (s.pinStations l).galleyGap = s.galleyGap ∧
    (s.pinStations l).exposureHead = s.exposureHead ∧
    (s.pinStations l).proofHead = s.proofHead ∧
    (s.pinStations l).engine = s.engine ∧
    (s.pinStations l).languages = s.languages ∧
    (s.pinStations l).dict = s.dict ∧
    (s.pinStations l).queue = s.queue ∧
    (s.pinStations l).expo = s.expo ∧
    (s.pinStations l).lamp = s.lamp ∧
    (s.pinStations l).film = s.film ∧
    (s.pinStations l).proof = s.proof ∧
    (s.pinStations l).freeCount = s.freeCount ∧
    (s.pinStations l).pending = s.pending := by
  exact ⟨by (simp only [State.pinStations]; exact foldl_keeps (P := fun s : State => s.link) (fun s n => by simp) _ _), by (simp only [State.pinStations]; exact foldl_keeps (P := fun s : State => s.fonts) (fun s n => by simp) _ _), by (simp only [State.pinStations]; exact foldl_keeps (P := fun s : State => s.turret.position) (fun s n => by simp) _ _), by (simp only [State.pinStations]; exact foldl_keeps (P := fun s : State => s.turret.motion) (fun s n => by simp) _ _), by (simp only [State.pinStations]; exact foldl_keeps (P := fun s : State => s.turret.pass) (fun s n => by simp) _ _), by (simp only [State.pinStations]; exact foldl_keeps (P := fun s : State => s.turret.latchEngaged) (fun s n => by simp) _ _), by (simp only [State.pinStations]; exact foldl_keeps (P := fun s : State => s.turret.hatchOpen) (fun s n => by simp) _ _), by (simp only [State.pinStations]; exact foldl_keeps (P := fun s : State => s.turret.hatchMark) (fun s n => by simp) _ _), by (simp only [State.pinStations]; exact foldl_keeps (P := fun s : State => s.turret.exchange) (fun s n => by simp) _ _), by (simp only [State.pinStations]; exact foldl_keeps (P := fun s : State => s.turret.cancelPending) (fun s n => by simp) _ _), by (simp only [State.pinStations]; exact foldl_keeps (P := fun s : State => s.turret.read) (fun s n => by simp) _ _), by (simp only [State.pinStations]; exact foldl_keeps (P := fun s : State => s.turret.protection) (fun s n => by simp) _ _), by (simp only [State.pinStations]; exact foldl_keeps (P := fun s : State => s.turret.lineOpen) (fun s n => by simp) _ _), by (simp only [State.pinStations]; exact foldl_keeps (P := fun s : State => s.turret.lineEndDue) (fun s n => by simp) _ _), by (simp only [State.pinStations]; exact foldl_keeps (P := fun s : State => s.turret.stations.length) (fun s n => by simp) _ _), by (simp only [State.pinStations]; exact foldl_keeps (P := fun s : State => s.jobs) (fun s n => by simp) _ _), by (simp only [State.pinStations]; exact foldl_keeps (P := fun s : State => s.galleyOrder) (fun s n => by simp) _ _), by (simp only [State.pinStations]; exact foldl_keeps (P := fun s : State => s.house) (fun s n => by simp) _ _), by (simp only [State.pinStations]; exact foldl_keeps (P := fun s : State => s.houseLocked) (fun s n => by simp) _ _), by (simp only [State.pinStations]; exact foldl_keeps (P := fun s : State => s.galleyGap) (fun s n => by simp) _ _), by (simp only [State.pinStations]; exact foldl_keeps (P := fun s : State => s.exposureHead) (fun s n => by simp) _ _), by (simp only [State.pinStations]; exact foldl_keeps (P := fun s : State => s.proofHead) (fun s n => by simp) _ _), by (simp only [State.pinStations]; exact foldl_keeps (P := fun s : State => s.engine) (fun s n => by simp) _ _), by (simp only [State.pinStations]; exact foldl_keeps (P := fun s : State => s.languages) (fun s n => by simp) _ _), by (simp only [State.pinStations]; exact foldl_keeps (P := fun s : State => s.dict) (fun s n => by simp) _ _), by (simp only [State.pinStations]; exact foldl_keeps (P := fun s : State => s.queue) (fun s n => by simp) _ _), by (simp only [State.pinStations]; exact foldl_keeps (P := fun s : State => s.expo) (fun s n => by simp) _ _), by (simp only [State.pinStations]; exact foldl_keeps (P := fun s : State => s.lamp) (fun s n => by simp) _ _), by (simp only [State.pinStations]; exact foldl_keeps (P := fun s : State => s.film) (fun s n => by simp) _ _), by (simp only [State.pinStations]; exact foldl_keeps (P := fun s : State => s.proof) (fun s n => by simp) _ _), by (simp only [State.pinStations]; exact foldl_keeps (P := fun s : State => s.freeCount) (fun s n => by simp) _ _), by (simp only [State.pinStations]; exact foldl_keeps (P := fun s : State => s.pending) (fun s n => by simp) _ _)⟩

@[simp] theorem dropPins_keeps (s : State) (l : List Nat) :
    (s.dropPins l).link = s.link ∧
    (s.dropPins l).fonts = s.fonts ∧
    (s.dropPins l).turret.position = s.turret.position ∧
    (s.dropPins l).turret.motion = s.turret.motion ∧
    (s.dropPins l).turret.pass = s.turret.pass ∧
    (s.dropPins l).turret.latchEngaged = s.turret.latchEngaged ∧
    (s.dropPins l).turret.hatchOpen = s.turret.hatchOpen ∧
    (s.dropPins l).turret.hatchMark = s.turret.hatchMark ∧
    (s.dropPins l).turret.exchange = s.turret.exchange ∧
    (s.dropPins l).turret.cancelPending = s.turret.cancelPending ∧
    (s.dropPins l).turret.read = s.turret.read ∧
    (s.dropPins l).turret.protection = s.turret.protection ∧
    (s.dropPins l).turret.lineOpen = s.turret.lineOpen ∧
    (s.dropPins l).turret.lineEndDue = s.turret.lineEndDue ∧
    (s.dropPins l).turret.stations.length = s.turret.stations.length ∧
    (s.dropPins l).jobs = s.jobs ∧
    (s.dropPins l).galleyOrder = s.galleyOrder ∧
    (s.dropPins l).house = s.house ∧
    (s.dropPins l).houseLocked = s.houseLocked ∧
    (s.dropPins l).galleyGap = s.galleyGap ∧
    (s.dropPins l).exposureHead = s.exposureHead ∧
    (s.dropPins l).proofHead = s.proofHead ∧
    (s.dropPins l).engine = s.engine ∧
    (s.dropPins l).languages = s.languages ∧
    (s.dropPins l).dict = s.dict ∧
    (s.dropPins l).queue = s.queue ∧
    (s.dropPins l).expo = s.expo ∧
    (s.dropPins l).lamp = s.lamp ∧
    (s.dropPins l).film = s.film ∧
    (s.dropPins l).proof = s.proof ∧
    (s.dropPins l).freeCount = s.freeCount ∧
    (s.dropPins l).pending = s.pending := by
  exact ⟨by (simp only [State.dropPins]; exact foldl_keeps (P := fun s : State => s.link) (fun s n => by simp) _ _), by (simp only [State.dropPins]; exact foldl_keeps (P := fun s : State => s.fonts) (fun s n => by simp) _ _), by (simp only [State.dropPins]; exact foldl_keeps (P := fun s : State => s.turret.position) (fun s n => by simp) _ _), by (simp only [State.dropPins]; exact foldl_keeps (P := fun s : State => s.turret.motion) (fun s n => by simp) _ _), by (simp only [State.dropPins]; exact foldl_keeps (P := fun s : State => s.turret.pass) (fun s n => by simp) _ _), by (simp only [State.dropPins]; exact foldl_keeps (P := fun s : State => s.turret.latchEngaged) (fun s n => by simp) _ _), by (simp only [State.dropPins]; exact foldl_keeps (P := fun s : State => s.turret.hatchOpen) (fun s n => by simp) _ _), by (simp only [State.dropPins]; exact foldl_keeps (P := fun s : State => s.turret.hatchMark) (fun s n => by simp) _ _), by (simp only [State.dropPins]; exact foldl_keeps (P := fun s : State => s.turret.exchange) (fun s n => by simp) _ _), by (simp only [State.dropPins]; exact foldl_keeps (P := fun s : State => s.turret.cancelPending) (fun s n => by simp) _ _), by (simp only [State.dropPins]; exact foldl_keeps (P := fun s : State => s.turret.read) (fun s n => by simp) _ _), by (simp only [State.dropPins]; exact foldl_keeps (P := fun s : State => s.turret.protection) (fun s n => by simp) _ _), by (simp only [State.dropPins]; exact foldl_keeps (P := fun s : State => s.turret.lineOpen) (fun s n => by simp) _ _), by (simp only [State.dropPins]; exact foldl_keeps (P := fun s : State => s.turret.lineEndDue) (fun s n => by simp) _ _), by (simp only [State.dropPins]; exact foldl_keeps (P := fun s : State => s.turret.stations.length) (fun s n => by simp) _ _), by (simp only [State.dropPins]; exact foldl_keeps (P := fun s : State => s.jobs) (fun s n => by simp) _ _), by (simp only [State.dropPins]; exact foldl_keeps (P := fun s : State => s.galleyOrder) (fun s n => by simp) _ _), by (simp only [State.dropPins]; exact foldl_keeps (P := fun s : State => s.house) (fun s n => by simp) _ _), by (simp only [State.dropPins]; exact foldl_keeps (P := fun s : State => s.houseLocked) (fun s n => by simp) _ _), by (simp only [State.dropPins]; exact foldl_keeps (P := fun s : State => s.galleyGap) (fun s n => by simp) _ _), by (simp only [State.dropPins]; exact foldl_keeps (P := fun s : State => s.exposureHead) (fun s n => by simp) _ _), by (simp only [State.dropPins]; exact foldl_keeps (P := fun s : State => s.proofHead) (fun s n => by simp) _ _), by (simp only [State.dropPins]; exact foldl_keeps (P := fun s : State => s.engine) (fun s n => by simp) _ _), by (simp only [State.dropPins]; exact foldl_keeps (P := fun s : State => s.languages) (fun s n => by simp) _ _), by (simp only [State.dropPins]; exact foldl_keeps (P := fun s : State => s.dict) (fun s n => by simp) _ _), by (simp only [State.dropPins]; exact foldl_keeps (P := fun s : State => s.queue) (fun s n => by simp) _ _), by (simp only [State.dropPins]; exact foldl_keeps (P := fun s : State => s.expo) (fun s n => by simp) _ _), by (simp only [State.dropPins]; exact foldl_keeps (P := fun s : State => s.lamp) (fun s n => by simp) _ _), by (simp only [State.dropPins]; exact foldl_keeps (P := fun s : State => s.film) (fun s n => by simp) _ _), by (simp only [State.dropPins]; exact foldl_keeps (P := fun s : State => s.proof) (fun s n => by simp) _ _), by (simp only [State.dropPins]; exact foldl_keeps (P := fun s : State => s.freeCount) (fun s n => by simp) _ _), by (simp only [State.dropPins]; exact foldl_keeps (P := fun s : State => s.pending) (fun s n => by simp) _ _)⟩

@[simp] theorem discardLine_keeps (s : State) (n : Nat) :
    (s.discardLine n).link = s.link ∧
    (s.discardLine n).turret.position = s.turret.position ∧
    (s.discardLine n).turret.motion = s.turret.motion ∧
    (s.discardLine n).turret.pass = s.turret.pass ∧
    (s.discardLine n).turret.latchEngaged = s.turret.latchEngaged ∧
    (s.discardLine n).turret.hatchOpen = s.turret.hatchOpen ∧
    (s.discardLine n).turret.hatchMark = s.turret.hatchMark ∧
    (s.discardLine n).turret.exchange = s.turret.exchange ∧
    (s.discardLine n).turret.cancelPending = s.turret.cancelPending ∧
    (s.discardLine n).turret.read = s.turret.read ∧
    (s.discardLine n).turret.protection = s.turret.protection ∧
    (s.discardLine n).turret.lineOpen = s.turret.lineOpen ∧
    (s.discardLine n).turret.lineEndDue = s.turret.lineEndDue ∧
    (s.discardLine n).turret.stations.length = s.turret.stations.length ∧
    (s.discardLine n).jobs.length = s.jobs.length ∧
    (s.discardLine n).galleyOrder = s.galleyOrder ∧
    (s.discardLine n).house = s.house ∧
    (s.discardLine n).houseLocked = s.houseLocked ∧
    (s.discardLine n).galleyGap = s.galleyGap ∧
    (s.discardLine n).exposureHead = s.exposureHead ∧
    (s.discardLine n).proofHead = s.proofHead ∧
    (s.discardLine n).engine = s.engine ∧
    (s.discardLine n).languages = s.languages ∧
    (s.discardLine n).dict = s.dict ∧
    (s.discardLine n).queue = s.queue ∧
    (s.discardLine n).expo = s.expo ∧
    (s.discardLine n).lamp = s.lamp ∧
    (s.discardLine n).film = s.film ∧
    (s.discardLine n).proof = s.proof ∧
    (s.discardLine n).freeCount = s.freeCount ∧
    (s.discardLine n).pending = s.pending := by
  simp [State.discardLine]

@[simp] theorem testHigh_keeps (s : State)  :
    (s.testHigh).link.mask = s.link.mask ∧
    (s.testHigh).link.throttleMs = s.link.throttleMs ∧
    (s.testHigh).link.delayMs = s.link.delayMs ∧
    (s.testHigh).link.limitMs = s.link.limitMs ∧
    (s.testHigh).link.throttle = s.link.throttle ∧
    (s.testHigh).link.delayTimer = s.link.delayTimer ∧
    (s.testHigh).link.absTimer = s.link.absTimer ∧
    (s.testHigh).link.cause = s.link.cause ∧
    (s.testHigh).link.replies = s.link.replies ∧
    (s.testHigh).link.direction = s.link.direction ∧
    (s.testHigh).link.frameBegun = s.link.frameBegun ∧
    (s.testHigh).link.discarding = s.link.discarding ∧
    (s.testHigh).link.withheld = s.link.withheld ∧
    (s.testHigh).fonts = s.fonts ∧
    (s.testHigh).turret = s.turret ∧
    (s.testHigh).jobs = s.jobs ∧
    (s.testHigh).galleyOrder = s.galleyOrder ∧
    (s.testHigh).house = s.house ∧
    (s.testHigh).houseLocked = s.houseLocked ∧
    (s.testHigh).galleyGap = s.galleyGap ∧
    (s.testHigh).exposureHead = s.exposureHead ∧
    (s.testHigh).proofHead = s.proofHead ∧
    (s.testHigh).engine = s.engine ∧
    (s.testHigh).languages = s.languages ∧
    (s.testHigh).dict = s.dict ∧
    (s.testHigh).queue.entries = s.queue.entries ∧
    (s.testHigh).queue.nextSerial = s.queue.nextSerial ∧
    (s.testHigh).queue.entryHigh = s.queue.entryHigh ∧
    (s.testHigh).queue.entryLow = s.queue.entryLow ∧
    (s.testHigh).queue.glyphHigh = s.queue.glyphHigh ∧
    (s.testHigh).queue.glyphLow = s.queue.glyphLow ∧
    (s.testHigh).expo = s.expo ∧
    (s.testHigh).lamp = s.lamp ∧
    (s.testHigh).film = s.film ∧
    (s.testHigh).proof = s.proof ∧
    (s.testHigh).freeCount = s.freeCount ∧
    (s.testHigh).pending = s.pending := by
  simp only [State.testHigh]
  (repeat' split) <;> simp

@[simp] theorem testLow_keeps (s : State)  :
    (s.testLow).link = s.link ∧
    (s.testLow).fonts = s.fonts ∧
    (s.testLow).turret = s.turret ∧
    (s.testLow).jobs = s.jobs ∧
    (s.testLow).galleyOrder = s.galleyOrder ∧
    (s.testLow).house = s.house ∧
    (s.testLow).houseLocked = s.houseLocked ∧
    (s.testLow).galleyGap = s.galleyGap ∧
    (s.testLow).exposureHead = s.exposureHead ∧
    (s.testLow).proofHead = s.proofHead ∧
    (s.testLow).engine = s.engine ∧
    (s.testLow).languages = s.languages ∧
    (s.testLow).dict = s.dict ∧
    (s.testLow).queue.entries = s.queue.entries ∧
    (s.testLow).queue.nextSerial = s.queue.nextSerial ∧
    (s.testLow).queue.entryHigh = s.queue.entryHigh ∧
    (s.testLow).queue.entryLow = s.queue.entryLow ∧
    (s.testLow).queue.glyphHigh = s.queue.glyphHigh ∧
    (s.testLow).queue.glyphLow = s.queue.glyphLow ∧
    (s.testLow).expo = s.expo ∧
    (s.testLow).lamp = s.lamp ∧
    (s.testLow).film = s.film ∧
    (s.testLow).proof = s.proof ∧
    (s.testLow).freeCount = s.freeCount ∧
    (s.testLow).pending = s.pending := by
  simp [State.testLow]

@[simp] theorem recomputeHeads_keeps (s : State)  :
    (s.recomputeHeads).link = s.link ∧
    (s.recomputeHeads).fonts = s.fonts ∧
    (s.recomputeHeads).turret = s.turret ∧
    (s.recomputeHeads).jobs = s.jobs ∧
    (s.recomputeHeads).galleyOrder = s.galleyOrder ∧
    (s.recomputeHeads).house = s.house ∧
    (s.recomputeHeads).houseLocked = s.houseLocked ∧
    (s.recomputeHeads).galleyGap = s.galleyGap ∧
    (s.recomputeHeads).engine = s.engine ∧
    (s.recomputeHeads).languages = s.languages ∧
    (s.recomputeHeads).dict = s.dict ∧
    (s.recomputeHeads).queue = s.queue ∧
    (s.recomputeHeads).expo.state = s.expo.state ∧
    (s.recomputeHeads).expo.stops = s.expo.stops ∧
    (s.recomputeHeads).expo.holdRequest = s.expo.holdRequest ∧
    (s.recomputeHeads).expo.flight = s.expo.flight ∧
    (s.recomputeHeads).expo.lastExposed = s.expo.lastExposed ∧
    (s.recomputeHeads).expo.linesExposed = s.expo.linesExposed ∧
    (s.recomputeHeads).expo.linesSpoiled = s.expo.linesSpoiled ∧
    (s.recomputeHeads).expo.lens = s.expo.lens ∧
    (s.recomputeHeads).expo.lensTarget = s.expo.lensTarget ∧
    (s.recomputeHeads).expo.carriage = s.expo.carriage ∧
    (s.recomputeHeads).expo.carriageTarget = s.expo.carriageTarget ∧
    (s.recomputeHeads).expo.flashing = s.expo.flashing ∧
    (s.recomputeHeads).expo.lastDuration = s.expo.lastDuration ∧
    (s.recomputeHeads).expo.lastClamped = s.expo.lastClamped ∧
    (s.recomputeHeads).lamp = s.lamp ∧
    (s.recomputeHeads).film = s.film ∧
    (s.recomputeHeads).proof.state = s.proof.state ∧
    (s.recomputeHeads).proof.disablePending = s.proof.disablePending ∧
    (s.recomputeHeads).proof.list = s.proof.list ∧
    (s.recomputeHeads).proof.sent = s.proof.sent ∧
    (s.recomputeHeads).proof.lead = s.proof.lead ∧
    (s.recomputeHeads).proof.begun = s.proof.begun ∧
    (s.recomputeHeads).proof.reprint = s.proof.reprint ∧
    (s.recomputeHeads).proof.transit = s.proof.transit ∧
    (s.recomputeHeads).proof.gapCount = s.proof.gapCount ∧
    (s.recomputeHeads).proof.rate = s.proof.rate ∧
    (s.recomputeHeads).proof.lineRate = s.proof.lineRate ∧
    (s.recomputeHeads).proof.flowOn = s.proof.flowOn ∧
    (s.recomputeHeads).proof.paperOut = s.proof.paperOut ∧
    (s.recomputeHeads).proof.stalled = s.proof.stalled ∧
    (s.recomputeHeads).proof.stallTimer = s.proof.stallTimer ∧
    (s.recomputeHeads).proof.linesPrinted = s.proof.linesPrinted ∧
    (s.recomputeHeads).proof.gapsPrinted = s.proof.gapsPrinted ∧
    (s.recomputeHeads).proof.reprints = s.proof.reprints ∧
    (s.recomputeHeads).proof.notesLost = s.proof.notesLost ∧
    (s.recomputeHeads).freeCount = s.freeCount ∧
    (s.recomputeHeads).pending = s.pending := by
  simp [State.recomputeHeads]

@[simp] theorem appendEntry_keeps_0 (s : State) (n : Nat) (b : Body) :
    (s.appendEntry n b).link.mask = s.link.mask ∧
    (s.appendEntry n b).link.throttleMs = s.link.throttleMs ∧
    (s.appendEntry n b).link.delayMs = s.link.delayMs ∧
    (s.appendEntry n b).link.limitMs = s.link.limitMs ∧
    (s.appendEntry n b).link.throttle = s.link.throttle ∧
    (s.appendEntry n b).link.delayTimer = s.link.delayTimer ∧
    (s.appendEntry n b).link.absTimer = s.link.absTimer ∧
    (s.appendEntry n b).link.cause = s.link.cause := by
  simp only [State.appendEntry]
  (repeat' split) <;> simp
@[simp] theorem appendEntry_keeps_1 (s : State) (n : Nat) (b : Body) :
    (s.appendEntry n b).link.replies = s.link.replies ∧
    (s.appendEntry n b).link.direction = s.link.direction ∧
    (s.appendEntry n b).link.frameBegun = s.link.frameBegun ∧
    (s.appendEntry n b).link.discarding = s.link.discarding ∧
    (s.appendEntry n b).link.withheld = s.link.withheld ∧
    (s.appendEntry n b).turret.position = s.turret.position ∧
    (s.appendEntry n b).turret.motion = s.turret.motion ∧
    (s.appendEntry n b).turret.pass = s.turret.pass := by
  simp only [State.appendEntry]
  (repeat' split) <;> simp
@[simp] theorem appendEntry_keeps_2 (s : State) (n : Nat) (b : Body) :
    (s.appendEntry n b).turret.latchEngaged = s.turret.latchEngaged ∧
    (s.appendEntry n b).turret.hatchOpen = s.turret.hatchOpen ∧
    (s.appendEntry n b).turret.hatchMark = s.turret.hatchMark ∧
    (s.appendEntry n b).turret.exchange = s.turret.exchange ∧
    (s.appendEntry n b).turret.cancelPending = s.turret.cancelPending ∧
    (s.appendEntry n b).turret.read = s.turret.read ∧
    (s.appendEntry n b).turret.protection = s.turret.protection ∧
    (s.appendEntry n b).turret.lineOpen = s.turret.lineOpen := by
  simp only [State.appendEntry]
  (repeat' split) <;> simp
@[simp] theorem appendEntry_keeps_3 (s : State) (n : Nat) (b : Body) :
    (s.appendEntry n b).turret.lineEndDue = s.turret.lineEndDue ∧
    (s.appendEntry n b).turret.stations.length = s.turret.stations.length ∧
    (s.appendEntry n b).jobs.length = s.jobs.length ∧
    (s.appendEntry n b).galleyOrder = s.galleyOrder ∧
    (s.appendEntry n b).house = s.house ∧
    (s.appendEntry n b).houseLocked = s.houseLocked ∧
    (s.appendEntry n b).galleyGap = s.galleyGap ∧
    (s.appendEntry n b).exposureHead = s.exposureHead := by
  simp only [State.appendEntry]
  (repeat' split) <;> simp
@[simp] theorem appendEntry_keeps_4 (s : State) (n : Nat) (b : Body) :
    (s.appendEntry n b).proofHead = s.proofHead ∧
    (s.appendEntry n b).engine = s.engine ∧
    (s.appendEntry n b).languages = s.languages ∧
    (s.appendEntry n b).dict = s.dict ∧
    (s.appendEntry n b).queue.entryHigh = s.queue.entryHigh ∧
    (s.appendEntry n b).queue.entryLow = s.queue.entryLow ∧
    (s.appendEntry n b).queue.glyphHigh = s.queue.glyphHigh ∧
    (s.appendEntry n b).queue.glyphLow = s.queue.glyphLow := by
  simp only [State.appendEntry]
  (repeat' split) <;> simp
@[simp] theorem appendEntry_keeps_5 (s : State) (n : Nat) (b : Body) :
    (s.appendEntry n b).expo = s.expo ∧
    (s.appendEntry n b).lamp = s.lamp ∧
    (s.appendEntry n b).film = s.film ∧
    (s.appendEntry n b).proof = s.proof ∧
    (s.appendEntry n b).freeCount = s.freeCount ∧
    (s.appendEntry n b).pending = s.pending := by
  simp only [State.appendEntry]
  (repeat' split) <;> simp

@[simp] theorem removeEntry_keeps (s : State) (e : Entry) :
    (s.removeEntry e).link = s.link ∧
    (s.removeEntry e).turret.position = s.turret.position ∧
    (s.removeEntry e).turret.motion = s.turret.motion ∧
    (s.removeEntry e).turret.pass = s.turret.pass ∧
    (s.removeEntry e).turret.latchEngaged = s.turret.latchEngaged ∧
    (s.removeEntry e).turret.hatchOpen = s.turret.hatchOpen ∧
    (s.removeEntry e).turret.hatchMark = s.turret.hatchMark ∧
    (s.removeEntry e).turret.exchange = s.turret.exchange ∧
    (s.removeEntry e).turret.cancelPending = s.turret.cancelPending ∧
    (s.removeEntry e).turret.read = s.turret.read ∧
    (s.removeEntry e).turret.protection = s.turret.protection ∧
    (s.removeEntry e).turret.lineOpen = s.turret.lineOpen ∧
    (s.removeEntry e).turret.lineEndDue = s.turret.lineEndDue ∧
    (s.removeEntry e).turret.stations.length = s.turret.stations.length ∧
    (s.removeEntry e).jobs = s.jobs ∧
    (s.removeEntry e).galleyOrder = s.galleyOrder ∧
    (s.removeEntry e).house = s.house ∧
    (s.removeEntry e).houseLocked = s.houseLocked ∧
    (s.removeEntry e).galleyGap = s.galleyGap ∧
    (s.removeEntry e).exposureHead = s.exposureHead ∧
    (s.removeEntry e).proofHead = s.proofHead ∧
    (s.removeEntry e).engine = s.engine ∧
    (s.removeEntry e).languages = s.languages ∧
    (s.removeEntry e).dict = s.dict ∧
    (s.removeEntry e).queue.nextSerial = s.queue.nextSerial ∧
    (s.removeEntry e).queue.entryHigh = s.queue.entryHigh ∧
    (s.removeEntry e).queue.entryLow = s.queue.entryLow ∧
    (s.removeEntry e).queue.glyphHigh = s.queue.glyphHigh ∧
    (s.removeEntry e).queue.glyphLow = s.queue.glyphLow ∧
    (s.removeEntry e).queue.highWater = s.queue.highWater ∧
    (s.removeEntry e).expo = s.expo ∧
    (s.removeEntry e).lamp = s.lamp ∧
    (s.removeEntry e).film = s.film ∧
    (s.removeEntry e).proof = s.proof ∧
    (s.removeEntry e).freeCount = s.freeCount ∧
    (s.removeEntry e).pending = s.pending := by
  simp only [State.removeEntry]
  (repeat' split) <;> simp

@[simp] theorem releaseIfDone_keeps (s : State) (k : Nat) :
    (s.releaseIfDone k).link = s.link ∧
    (s.releaseIfDone k).turret.position = s.turret.position ∧
    (s.releaseIfDone k).turret.motion = s.turret.motion ∧
    (s.releaseIfDone k).turret.pass = s.turret.pass ∧
    (s.releaseIfDone k).turret.latchEngaged = s.turret.latchEngaged ∧
    (s.releaseIfDone k).turret.hatchOpen = s.turret.hatchOpen ∧
    (s.releaseIfDone k).turret.hatchMark = s.turret.hatchMark ∧
    (s.releaseIfDone k).turret.exchange = s.turret.exchange ∧
    (s.releaseIfDone k).turret.cancelPending = s.turret.cancelPending ∧
    (s.releaseIfDone k).turret.read = s.turret.read ∧
    (s.releaseIfDone k).turret.protection = s.turret.protection ∧
    (s.releaseIfDone k).turret.lineOpen = s.turret.lineOpen ∧
    (s.releaseIfDone k).turret.lineEndDue = s.turret.lineEndDue ∧
    (s.releaseIfDone k).turret.stations.length = s.turret.stations.length ∧
    (s.releaseIfDone k).jobs = s.jobs ∧
    (s.releaseIfDone k).galleyOrder = s.galleyOrder ∧
    (s.releaseIfDone k).house = s.house ∧
    (s.releaseIfDone k).houseLocked = s.houseLocked ∧
    (s.releaseIfDone k).galleyGap = s.galleyGap ∧
    (s.releaseIfDone k).exposureHead = s.exposureHead ∧
    (s.releaseIfDone k).proofHead = s.proofHead ∧
    (s.releaseIfDone k).engine = s.engine ∧
    (s.releaseIfDone k).languages = s.languages ∧
    (s.releaseIfDone k).dict = s.dict ∧
    (s.releaseIfDone k).queue.nextSerial = s.queue.nextSerial ∧
    (s.releaseIfDone k).queue.entryHigh = s.queue.entryHigh ∧
    (s.releaseIfDone k).queue.entryLow = s.queue.entryLow ∧
    (s.releaseIfDone k).queue.glyphHigh = s.queue.glyphHigh ∧
    (s.releaseIfDone k).queue.glyphLow = s.queue.glyphLow ∧
    (s.releaseIfDone k).expo = s.expo ∧
    (s.releaseIfDone k).lamp = s.lamp ∧
    (s.releaseIfDone k).film = s.film ∧
    (s.releaseIfDone k).proof.state = s.proof.state ∧
    (s.releaseIfDone k).proof.disablePending = s.proof.disablePending ∧
    (s.releaseIfDone k).proof.head = s.proof.head ∧
    (s.releaseIfDone k).proof.named = s.proof.named ∧
    (s.releaseIfDone k).proof.list = s.proof.list ∧
    (s.releaseIfDone k).proof.sent = s.proof.sent ∧
    (s.releaseIfDone k).proof.lead = s.proof.lead ∧
    (s.releaseIfDone k).proof.begun = s.proof.begun ∧
    (s.releaseIfDone k).proof.reprint = s.proof.reprint ∧
    (s.releaseIfDone k).proof.transit = s.proof.transit ∧
    (s.releaseIfDone k).proof.rate = s.proof.rate ∧
    (s.releaseIfDone k).proof.lineRate = s.proof.lineRate ∧
    (s.releaseIfDone k).proof.flowOn = s.proof.flowOn ∧
    (s.releaseIfDone k).proof.paperOut = s.proof.paperOut ∧
    (s.releaseIfDone k).proof.stalled = s.proof.stalled ∧
    (s.releaseIfDone k).proof.stallTimer = s.proof.stallTimer ∧
    (s.releaseIfDone k).proof.linesPrinted = s.proof.linesPrinted ∧
    (s.releaseIfDone k).proof.gapsPrinted = s.proof.gapsPrinted ∧
    (s.releaseIfDone k).proof.reprints = s.proof.reprints ∧
    (s.releaseIfDone k).proof.notesLost = s.proof.notesLost ∧
    (s.releaseIfDone k).freeCount = s.freeCount ∧
    (s.releaseIfDone k).pending = s.pending := by
  simp only [State.releaseIfDone]
  (repeat' split) <;> simp

@[simp] theorem cancelEntry_keeps (s : State) (e : Entry) :
    (s.cancelEntry e).link = s.link ∧
    (s.cancelEntry e).turret.position = s.turret.position ∧
    (s.cancelEntry e).turret.motion = s.turret.motion ∧
    (s.cancelEntry e).turret.pass = s.turret.pass ∧
    (s.cancelEntry e).turret.latchEngaged = s.turret.latchEngaged ∧
    (s.cancelEntry e).turret.hatchOpen = s.turret.hatchOpen ∧
    (s.cancelEntry e).turret.hatchMark = s.turret.hatchMark ∧
    (s.cancelEntry e).turret.exchange = s.turret.exchange ∧
    (s.cancelEntry e).turret.cancelPending = s.turret.cancelPending ∧
    (s.cancelEntry e).turret.read = s.turret.read ∧
    (s.cancelEntry e).turret.protection = s.turret.protection ∧
    (s.cancelEntry e).turret.lineOpen = s.turret.lineOpen ∧
    (s.cancelEntry e).turret.lineEndDue = s.turret.lineEndDue ∧
    (s.cancelEntry e).turret.stations.length = s.turret.stations.length ∧
    (s.cancelEntry e).jobs = s.jobs ∧
    (s.cancelEntry e).galleyOrder = s.galleyOrder ∧
    (s.cancelEntry e).house = s.house ∧
    (s.cancelEntry e).houseLocked = s.houseLocked ∧
    (s.cancelEntry e).galleyGap = s.galleyGap ∧
    (s.cancelEntry e).exposureHead = s.exposureHead ∧
    (s.cancelEntry e).proofHead = s.proofHead ∧
    (s.cancelEntry e).engine = s.engine ∧
    (s.cancelEntry e).languages = s.languages ∧
    (s.cancelEntry e).dict = s.dict ∧
    (s.cancelEntry e).queue.nextSerial = s.queue.nextSerial ∧
    (s.cancelEntry e).queue.entryHigh = s.queue.entryHigh ∧
    (s.cancelEntry e).queue.entryLow = s.queue.entryLow ∧
    (s.cancelEntry e).queue.glyphHigh = s.queue.glyphHigh ∧
    (s.cancelEntry e).queue.glyphLow = s.queue.glyphLow ∧
    (s.cancelEntry e).queue.highWater = s.queue.highWater ∧
    (s.cancelEntry e).expo = s.expo ∧
    (s.cancelEntry e).lamp = s.lamp ∧
    (s.cancelEntry e).film = s.film ∧
    (s.cancelEntry e).freeCount = s.freeCount ∧
    (s.cancelEntry e).pending = s.pending := by
  simp only [State.cancelEntry]
  split <;> simp

@[simp] theorem exposureDone_keeps (s : State) (k : Nat) (a b : Bool) :
    (s.exposureDone k a b).link = s.link ∧
    (s.exposureDone k a b).turret.position = s.turret.position ∧
    (s.exposureDone k a b).turret.motion = s.turret.motion ∧
    (s.exposureDone k a b).turret.pass = s.turret.pass ∧
    (s.exposureDone k a b).turret.latchEngaged = s.turret.latchEngaged ∧
    (s.exposureDone k a b).turret.hatchOpen = s.turret.hatchOpen ∧
    (s.exposureDone k a b).turret.hatchMark = s.turret.hatchMark ∧
    (s.exposureDone k a b).turret.exchange = s.turret.exchange ∧
    (s.exposureDone k a b).turret.cancelPending = s.turret.cancelPending ∧
    (s.exposureDone k a b).turret.read = s.turret.read ∧
    (s.exposureDone k a b).turret.protection = s.turret.protection ∧
    (s.exposureDone k a b).turret.lineOpen = s.turret.lineOpen ∧
    (s.exposureDone k a b).turret.lineEndDue = s.turret.lineEndDue ∧
    (s.exposureDone k a b).turret.stations.length = s.turret.stations.length ∧
    (s.exposureDone k a b).jobs = s.jobs ∧
    (s.exposureDone k a b).galleyOrder = s.galleyOrder ∧
    (s.exposureDone k a b).house = s.house ∧
    (s.exposureDone k a b).houseLocked = s.houseLocked ∧
    (s.exposureDone k a b).galleyGap = s.galleyGap ∧
    (s.exposureDone k a b).exposureHead = s.exposureHead ∧
    (s.exposureDone k a b).proofHead = s.proofHead ∧
    (s.exposureDone k a b).engine = s.engine ∧
    (s.exposureDone k a b).languages = s.languages ∧
    (s.exposureDone k a b).dict = s.dict ∧
    (s.exposureDone k a b).expo = s.expo ∧
    (s.exposureDone k a b).lamp = s.lamp ∧
    (s.exposureDone k a b).film = s.film ∧
    (s.exposureDone k a b).freeCount = s.freeCount ∧
    (s.exposureDone k a b).pending = s.pending := by
  simp only [State.exposureDone]
  (repeat' split) <;> simp

@[simp] theorem proofDone_keeps (s : State) (k : Nat) :
    (s.proofDone k).link = s.link ∧
    (s.proofDone k).turret.position = s.turret.position ∧
    (s.proofDone k).turret.motion = s.turret.motion ∧
    (s.proofDone k).turret.pass = s.turret.pass ∧
    (s.proofDone k).turret.latchEngaged = s.turret.latchEngaged ∧
    (s.proofDone k).turret.hatchOpen = s.turret.hatchOpen ∧
    (s.proofDone k).turret.hatchMark = s.turret.hatchMark ∧
    (s.proofDone k).turret.exchange = s.turret.exchange ∧
    (s.proofDone k).turret.cancelPending = s.turret.cancelPending ∧
    (s.proofDone k).turret.read = s.turret.read ∧
    (s.proofDone k).turret.protection = s.turret.protection ∧
    (s.proofDone k).turret.lineOpen = s.turret.lineOpen ∧
    (s.proofDone k).turret.lineEndDue = s.turret.lineEndDue ∧
    (s.proofDone k).turret.stations.length = s.turret.stations.length ∧
    (s.proofDone k).jobs = s.jobs ∧
    (s.proofDone k).galleyOrder = s.galleyOrder ∧
    (s.proofDone k).house = s.house ∧
    (s.proofDone k).houseLocked = s.houseLocked ∧
    (s.proofDone k).galleyGap = s.galleyGap ∧
    (s.proofDone k).exposureHead = s.exposureHead ∧
    (s.proofDone k).proofHead = s.proofHead ∧
    (s.proofDone k).engine = s.engine ∧
    (s.proofDone k).languages = s.languages ∧
    (s.proofDone k).dict = s.dict ∧
    (s.proofDone k).expo = s.expo ∧
    (s.proofDone k).lamp = s.lamp ∧
    (s.proofDone k).film = s.film ∧
    (s.proofDone k).proof.state = s.proof.state ∧
    (s.proofDone k).proof.disablePending = s.proof.disablePending ∧
    (s.proofDone k).proof.head = s.proof.head ∧
    (s.proofDone k).proof.named = s.proof.named ∧
    (s.proofDone k).proof.list = s.proof.list ∧
    (s.proofDone k).proof.sent = s.proof.sent ∧
    (s.proofDone k).proof.lead = s.proof.lead ∧
    (s.proofDone k).proof.begun = s.proof.begun ∧
    (s.proofDone k).proof.reprint = s.proof.reprint ∧
    (s.proofDone k).proof.transit = s.proof.transit ∧
    (s.proofDone k).proof.rate = s.proof.rate ∧
    (s.proofDone k).proof.lineRate = s.proof.lineRate ∧
    (s.proofDone k).proof.flowOn = s.proof.flowOn ∧
    (s.proofDone k).proof.paperOut = s.proof.paperOut ∧
    (s.proofDone k).proof.stalled = s.proof.stalled ∧
    (s.proofDone k).proof.stallTimer = s.proof.stallTimer ∧
    (s.proofDone k).proof.linesPrinted = s.proof.linesPrinted ∧
    (s.proofDone k).proof.gapsPrinted = s.proof.gapsPrinted ∧
    (s.proofDone k).proof.reprints = s.proof.reprints ∧
    (s.proofDone k).proof.notesLost = s.proof.notesLost ∧
    (s.proofDone k).freeCount = s.freeCount ∧
    (s.proofDone k).pending = s.pending := by
  simp only [State.proofDone]
  (repeat' split) <;> simp

@[simp] theorem freeJob_keeps (s : State) (n : Nat) :
    (s.freeJob n).link.mask = s.link.mask ∧
    (s.freeJob n).link.throttleMs = s.link.throttleMs ∧
    (s.freeJob n).link.delayMs = s.link.delayMs ∧
    (s.freeJob n).link.limitMs = s.link.limitMs ∧
    (s.freeJob n).link.throttle = s.link.throttle ∧
    (s.freeJob n).link.delayTimer = s.link.delayTimer ∧
    (s.freeJob n).link.absTimer = s.link.absTimer ∧
    (s.freeJob n).link.cause = s.link.cause ∧
    (s.freeJob n).link.replies = s.link.replies ∧
    (s.freeJob n).link.direction = s.link.direction ∧
    (s.freeJob n).link.frameBegun = s.link.frameBegun ∧
    (s.freeJob n).link.discarding = s.link.discarding ∧
    (s.freeJob n).link.withheld = s.link.withheld ∧
    (s.freeJob n).fonts = s.fonts ∧
    (s.freeJob n).turret = s.turret ∧
    (s.freeJob n).jobs.length = s.jobs.length ∧
    (s.freeJob n).house = s.house ∧
    (s.freeJob n).houseLocked = s.houseLocked ∧
    (s.freeJob n).galleyGap = s.galleyGap ∧
    (s.freeJob n).exposureHead = s.exposureHead ∧
    (s.freeJob n).proofHead = s.proofHead ∧
    (s.freeJob n).engine = s.engine ∧
    (s.freeJob n).languages = s.languages ∧
    (s.freeJob n).queue = s.queue ∧
    (s.freeJob n).expo = s.expo ∧
    (s.freeJob n).lamp = s.lamp ∧
    (s.freeJob n).film.loaded = s.film.loaded ∧
    (s.freeJob n).film.baseline = s.film.baseline ∧
    (s.freeJob n).film.highMark = s.film.highMark ∧
    (s.freeJob n).film.origin = s.film.origin ∧
    (s.freeJob n).film.lowThreshold = s.film.lowThreshold ∧
    (s.freeJob n).film.lowCondition = s.film.lowCondition ∧
    (s.freeJob n).film.state = s.film.state ∧
    (s.freeJob n).film.mover = s.film.mover ∧
    (s.freeJob n).film.target = s.film.target ∧
    (s.freeJob n).film.trims = s.film.trims ∧
    (s.freeJob n).film.measured = s.film.measured ∧
    (s.freeJob n).film.present = s.film.present ∧
    (s.freeJob n).film.coverOpen = s.film.coverOpen ∧
    (s.freeJob n).film.cuts = s.film.cuts ∧
    (s.freeJob n).film.jams = s.film.jams ∧
    (s.freeJob n).film.lastCut = s.film.lastCut ∧
    (s.freeJob n).proof = s.proof ∧
    (s.freeJob n).freeCount = s.freeCount ∧
    (s.freeJob n).pending = s.pending := by
  simp only [State.freeJob]
  (repeat' split) <;> simp

@[simp] theorem judgeLow_keeps (s : State)  :
    (s.judgeLow).link.mask = s.link.mask ∧
    (s.judgeLow).link.throttleMs = s.link.throttleMs ∧
    (s.judgeLow).link.delayMs = s.link.delayMs ∧
    (s.judgeLow).link.limitMs = s.link.limitMs ∧
    (s.judgeLow).link.throttle = s.link.throttle ∧
    (s.judgeLow).link.delayTimer = s.link.delayTimer ∧
    (s.judgeLow).link.absTimer = s.link.absTimer ∧
    (s.judgeLow).link.cause = s.link.cause ∧
    (s.judgeLow).link.replies = s.link.replies ∧
    (s.judgeLow).link.direction = s.link.direction ∧
    (s.judgeLow).link.frameBegun = s.link.frameBegun ∧
    (s.judgeLow).link.discarding = s.link.discarding ∧
    (s.judgeLow).link.withheld = s.link.withheld ∧
    (s.judgeLow).fonts = s.fonts ∧
    (s.judgeLow).turret = s.turret ∧
    (s.judgeLow).jobs = s.jobs ∧
    (s.judgeLow).galleyOrder = s.galleyOrder ∧
    (s.judgeLow).house = s.house ∧
    (s.judgeLow).houseLocked = s.houseLocked ∧
    (s.judgeLow).galleyGap = s.galleyGap ∧
    (s.judgeLow).exposureHead = s.exposureHead ∧
    (s.judgeLow).proofHead = s.proofHead ∧
    (s.judgeLow).engine = s.engine ∧
    (s.judgeLow).languages = s.languages ∧
    (s.judgeLow).dict = s.dict ∧
    (s.judgeLow).queue = s.queue ∧
    (s.judgeLow).expo = s.expo ∧
    (s.judgeLow).lamp = s.lamp ∧
    (s.judgeLow).film.loaded = s.film.loaded ∧
    (s.judgeLow).film.baseline = s.film.baseline ∧
    (s.judgeLow).film.highMark = s.film.highMark ∧
    (s.judgeLow).film.origin = s.film.origin ∧
    (s.judgeLow).film.lowThreshold = s.film.lowThreshold ∧
    (s.judgeLow).film.owner = s.film.owner ∧
    (s.judgeLow).film.state = s.film.state ∧
    (s.judgeLow).film.mover = s.film.mover ∧
    (s.judgeLow).film.target = s.film.target ∧
    (s.judgeLow).film.trims = s.film.trims ∧
    (s.judgeLow).film.measured = s.film.measured ∧
    (s.judgeLow).film.present = s.film.present ∧
    (s.judgeLow).film.coverOpen = s.film.coverOpen ∧
    (s.judgeLow).film.cuts = s.film.cuts ∧
    (s.judgeLow).film.jams = s.film.jams ∧
    (s.judgeLow).film.lastCut = s.film.lastCut ∧
    (s.judgeLow).proof = s.proof ∧
    (s.judgeLow).freeCount = s.freeCount ∧
    (s.judgeLow).pending = s.pending := by
  simp [State.judgeLow]

@[simp] theorem setLowFilmEffect_keeps (s : State) (n : Nat) :
    ((setLowFilmEffect n s).1).link.mask = s.link.mask ∧
    ((setLowFilmEffect n s).1).link.throttleMs = s.link.throttleMs ∧
    ((setLowFilmEffect n s).1).link.delayMs = s.link.delayMs ∧
    ((setLowFilmEffect n s).1).link.limitMs = s.link.limitMs ∧
    ((setLowFilmEffect n s).1).link.throttle = s.link.throttle ∧
    ((setLowFilmEffect n s).1).link.delayTimer = s.link.delayTimer ∧
    ((setLowFilmEffect n s).1).link.absTimer = s.link.absTimer ∧
    ((setLowFilmEffect n s).1).link.cause = s.link.cause ∧
    ((setLowFilmEffect n s).1).link.replies = s.link.replies ∧
    ((setLowFilmEffect n s).1).link.direction = s.link.direction ∧
    ((setLowFilmEffect n s).1).link.frameBegun = s.link.frameBegun ∧
    ((setLowFilmEffect n s).1).link.discarding = s.link.discarding ∧
    ((setLowFilmEffect n s).1).link.withheld = s.link.withheld ∧
    ((setLowFilmEffect n s).1).fonts = s.fonts ∧
    ((setLowFilmEffect n s).1).turret = s.turret ∧
    ((setLowFilmEffect n s).1).jobs = s.jobs ∧
    ((setLowFilmEffect n s).1).galleyOrder = s.galleyOrder ∧
    ((setLowFilmEffect n s).1).house = s.house ∧
    ((setLowFilmEffect n s).1).houseLocked = s.houseLocked ∧
    ((setLowFilmEffect n s).1).galleyGap = s.galleyGap ∧
    ((setLowFilmEffect n s).1).exposureHead = s.exposureHead ∧
    ((setLowFilmEffect n s).1).proofHead = s.proofHead ∧
    ((setLowFilmEffect n s).1).engine = s.engine ∧
    ((setLowFilmEffect n s).1).languages = s.languages ∧
    ((setLowFilmEffect n s).1).dict = s.dict ∧
    ((setLowFilmEffect n s).1).queue = s.queue ∧
    ((setLowFilmEffect n s).1).expo = s.expo ∧
    ((setLowFilmEffect n s).1).lamp = s.lamp ∧
    ((setLowFilmEffect n s).1).film.loaded = s.film.loaded ∧
    ((setLowFilmEffect n s).1).film.baseline = s.film.baseline ∧
    ((setLowFilmEffect n s).1).film.highMark = s.film.highMark ∧
    ((setLowFilmEffect n s).1).film.origin = s.film.origin ∧
    ((setLowFilmEffect n s).1).film.owner = s.film.owner ∧
    ((setLowFilmEffect n s).1).film.state = s.film.state ∧
    ((setLowFilmEffect n s).1).film.mover = s.film.mover ∧
    ((setLowFilmEffect n s).1).film.target = s.film.target ∧
    ((setLowFilmEffect n s).1).film.trims = s.film.trims ∧
    ((setLowFilmEffect n s).1).film.measured = s.film.measured ∧
    ((setLowFilmEffect n s).1).film.present = s.film.present ∧
    ((setLowFilmEffect n s).1).film.coverOpen = s.film.coverOpen ∧
    ((setLowFilmEffect n s).1).film.cuts = s.film.cuts ∧
    ((setLowFilmEffect n s).1).film.jams = s.film.jams ∧
    ((setLowFilmEffect n s).1).film.lastCut = s.film.lastCut ∧
    ((setLowFilmEffect n s).1).proof = s.proof ∧
    ((setLowFilmEffect n s).1).freeCount = s.freeCount ∧
    ((setLowFilmEffect n s).1).pending = s.pending := by
  simp only [setLowFilmEffect]
  (repeat' split) <;> simp [refuse, done]

@[simp] theorem loadFilmEffect_keeps (s : State) (n : Nat) :
    ((loadFilmEffect n s).1).link.mask = s.link.mask ∧
    ((loadFilmEffect n s).1).link.throttleMs = s.link.throttleMs ∧
    ((loadFilmEffect n s).1).link.delayMs = s.link.delayMs ∧
    ((loadFilmEffect n s).1).link.limitMs = s.link.limitMs ∧
    ((loadFilmEffect n s).1).link.throttle = s.link.throttle ∧
    ((loadFilmEffect n s).1).link.delayTimer = s.link.delayTimer ∧
    ((loadFilmEffect n s).1).link.absTimer = s.link.absTimer ∧
    ((loadFilmEffect n s).1).link.cause = s.link.cause ∧
    ((loadFilmEffect n s).1).link.replies = s.link.replies ∧
    ((loadFilmEffect n s).1).link.direction = s.link.direction ∧
    ((loadFilmEffect n s).1).link.frameBegun = s.link.frameBegun ∧
    ((loadFilmEffect n s).1).link.discarding = s.link.discarding ∧
    ((loadFilmEffect n s).1).link.withheld = s.link.withheld ∧
    ((loadFilmEffect n s).1).fonts = s.fonts ∧
    ((loadFilmEffect n s).1).turret = s.turret ∧
    ((loadFilmEffect n s).1).jobs = s.jobs ∧
    ((loadFilmEffect n s).1).galleyOrder = s.galleyOrder ∧
    ((loadFilmEffect n s).1).house = s.house ∧
    ((loadFilmEffect n s).1).houseLocked = s.houseLocked ∧
    ((loadFilmEffect n s).1).galleyGap = s.galleyGap ∧
    ((loadFilmEffect n s).1).exposureHead = s.exposureHead ∧
    ((loadFilmEffect n s).1).proofHead = s.proofHead ∧
    ((loadFilmEffect n s).1).engine = s.engine ∧
    ((loadFilmEffect n s).1).languages = s.languages ∧
    ((loadFilmEffect n s).1).dict = s.dict ∧
    ((loadFilmEffect n s).1).queue = s.queue ∧
    ((loadFilmEffect n s).1).expo.state = s.expo.state ∧
    ((loadFilmEffect n s).1).expo.holdRequest = s.expo.holdRequest ∧
    ((loadFilmEffect n s).1).expo.flight = s.expo.flight ∧
    ((loadFilmEffect n s).1).expo.named = s.expo.named ∧
    ((loadFilmEffect n s).1).expo.lastExposed = s.expo.lastExposed ∧
    ((loadFilmEffect n s).1).expo.linesExposed = s.expo.linesExposed ∧
    ((loadFilmEffect n s).1).expo.linesSpoiled = s.expo.linesSpoiled ∧
    ((loadFilmEffect n s).1).expo.lens = s.expo.lens ∧
    ((loadFilmEffect n s).1).expo.lensTarget = s.expo.lensTarget ∧
    ((loadFilmEffect n s).1).expo.carriage = s.expo.carriage ∧
    ((loadFilmEffect n s).1).expo.carriageTarget = s.expo.carriageTarget ∧
    ((loadFilmEffect n s).1).expo.flashing = s.expo.flashing ∧
    ((loadFilmEffect n s).1).expo.lastDuration = s.expo.lastDuration ∧
    ((loadFilmEffect n s).1).expo.lastClamped = s.expo.lastClamped ∧
    ((loadFilmEffect n s).1).lamp = s.lamp ∧
    ((loadFilmEffect n s).1).film.lowThreshold = s.film.lowThreshold ∧
    ((loadFilmEffect n s).1).film.present = s.film.present ∧
    ((loadFilmEffect n s).1).film.coverOpen = s.film.coverOpen ∧
    ((loadFilmEffect n s).1).film.cuts = s.film.cuts ∧
    ((loadFilmEffect n s).1).film.jams = s.film.jams ∧
    ((loadFilmEffect n s).1).film.lastCut = s.film.lastCut ∧
    ((loadFilmEffect n s).1).proof = s.proof ∧
    ((loadFilmEffect n s).1).freeCount = s.freeCount ∧
    ((loadFilmEffect n s).1).pending = s.pending := by
  simp only [loadFilmEffect]
  (repeat' split) <;> simp [refuse, done]

@[simp] theorem lineExposedDelay_keeps (s : State)  :
    (s.lineExposedDelay).link.mask = s.link.mask ∧
    (s.lineExposedDelay).link.throttleMs = s.link.throttleMs ∧
    (s.lineExposedDelay).link.delayMs = s.link.delayMs ∧
    (s.lineExposedDelay).link.limitMs = s.link.limitMs ∧
    (s.lineExposedDelay).link.throttle = s.link.throttle ∧
    (s.lineExposedDelay).link.cause = s.link.cause ∧
    (s.lineExposedDelay).link.replies = s.link.replies ∧
    (s.lineExposedDelay).link.direction = s.link.direction ∧
    (s.lineExposedDelay).link.frameBegun = s.link.frameBegun ∧
    (s.lineExposedDelay).link.discarding = s.link.discarding ∧
    (s.lineExposedDelay).link.withheld = s.link.withheld ∧
    (s.lineExposedDelay).fonts = s.fonts ∧
    (s.lineExposedDelay).turret = s.turret ∧
    (s.lineExposedDelay).jobs = s.jobs ∧
    (s.lineExposedDelay).galleyOrder = s.galleyOrder ∧
    (s.lineExposedDelay).house = s.house ∧
    (s.lineExposedDelay).houseLocked = s.houseLocked ∧
    (s.lineExposedDelay).galleyGap = s.galleyGap ∧
    (s.lineExposedDelay).exposureHead = s.exposureHead ∧
    (s.lineExposedDelay).proofHead = s.proofHead ∧
    (s.lineExposedDelay).engine = s.engine ∧
    (s.lineExposedDelay).languages = s.languages ∧
    (s.lineExposedDelay).dict = s.dict ∧
    (s.lineExposedDelay).queue = s.queue ∧
    (s.lineExposedDelay).expo = s.expo ∧
    (s.lineExposedDelay).lamp = s.lamp ∧
    (s.lineExposedDelay).film = s.film ∧
    (s.lineExposedDelay).proof = s.proof ∧
    (s.lineExposedDelay).freeCount = s.freeCount ∧
    (s.lineExposedDelay).pending = s.pending := by
  simp only [State.lineExposedDelay]
  (repeat' split) <;> simp

@[simp] theorem cleanEnd_keeps (s : State)  :
    (s.cleanEnd).link.mask = s.link.mask ∧
    (s.cleanEnd).link.throttleMs = s.link.throttleMs ∧
    (s.cleanEnd).link.delayMs = s.link.delayMs ∧
    (s.cleanEnd).link.limitMs = s.link.limitMs ∧
    (s.cleanEnd).link.throttle = s.link.throttle ∧
    (s.cleanEnd).link.delayTimer = s.link.delayTimer ∧
    (s.cleanEnd).link.absTimer = s.link.absTimer ∧
    (s.cleanEnd).link.cause = s.link.cause ∧
    (s.cleanEnd).link.replies = s.link.replies ∧
    (s.cleanEnd).link.direction = s.link.direction ∧
    (s.cleanEnd).link.frameBegun = s.link.frameBegun ∧
    (s.cleanEnd).link.discarding = s.link.discarding ∧
    (s.cleanEnd).link.withheld = s.link.withheld ∧
    (s.cleanEnd).fonts = s.fonts ∧
    (s.cleanEnd).turret = s.turret ∧
    (s.cleanEnd).jobs = s.jobs ∧
    (s.cleanEnd).galleyOrder = s.galleyOrder ∧
    (s.cleanEnd).house = s.house ∧
    (s.cleanEnd).houseLocked = s.houseLocked ∧
    (s.cleanEnd).galleyGap = s.galleyGap ∧
    (s.cleanEnd).exposureHead = s.exposureHead ∧
    (s.cleanEnd).proofHead = s.proofHead ∧
    (s.cleanEnd).engine = s.engine ∧
    (s.cleanEnd).languages = s.languages ∧
    (s.cleanEnd).dict = s.dict ∧
    (s.cleanEnd).queue = s.queue ∧
    (s.cleanEnd).expo.stops = s.expo.stops ∧
    (s.cleanEnd).expo.named = s.expo.named ∧
    (s.cleanEnd).expo.lastExposed = s.expo.lastExposed ∧
    (s.cleanEnd).expo.linesExposed = s.expo.linesExposed ∧
    (s.cleanEnd).expo.linesSpoiled = s.expo.linesSpoiled ∧
    (s.cleanEnd).expo.lens = s.expo.lens ∧
    (s.cleanEnd).expo.lensTarget = s.expo.lensTarget ∧
    (s.cleanEnd).expo.carriage = s.expo.carriage ∧
    (s.cleanEnd).expo.carriageTarget = s.expo.carriageTarget ∧
    (s.cleanEnd).expo.flashing = s.expo.flashing ∧
    (s.cleanEnd).expo.lastDuration = s.expo.lastDuration ∧
    (s.cleanEnd).expo.lastClamped = s.expo.lastClamped ∧
    (s.cleanEnd).lamp = s.lamp ∧
    (s.cleanEnd).film = s.film ∧
    (s.cleanEnd).proof = s.proof ∧
    (s.cleanEnd).freeCount = s.freeCount ∧
    (s.cleanEnd).pending = s.pending := by
  simp only [State.cleanEnd]
  (repeat' split) <;> simp

@[simp] theorem stoppedEnd_keeps (s : State) (fl : Flight) (a b c : Bool) :
    (s.stoppedEnd fl a b c).link = s.link ∧
    (s.stoppedEnd fl a b c).fonts = s.fonts ∧
    (s.stoppedEnd fl a b c).turret = s.turret ∧
    (s.stoppedEnd fl a b c).jobs = s.jobs ∧
    (s.stoppedEnd fl a b c).galleyOrder = s.galleyOrder ∧
    (s.stoppedEnd fl a b c).house = s.house ∧
    (s.stoppedEnd fl a b c).houseLocked = s.houseLocked ∧
    (s.stoppedEnd fl a b c).galleyGap = s.galleyGap ∧
    (s.stoppedEnd fl a b c).exposureHead = s.exposureHead ∧
    (s.stoppedEnd fl a b c).proofHead = s.proofHead ∧
    (s.stoppedEnd fl a b c).engine = s.engine ∧
    (s.stoppedEnd fl a b c).languages = s.languages ∧
    (s.stoppedEnd fl a b c).dict = s.dict ∧
    (s.stoppedEnd fl a b c).queue = s.queue ∧
    (s.stoppedEnd fl a b c).lamp = s.lamp ∧
    (s.stoppedEnd fl a b c).film = s.film ∧
    (s.stoppedEnd fl a b c).proof = s.proof ∧
    (s.stoppedEnd fl a b c).freeCount = s.freeCount ∧
    (s.stoppedEnd fl a b c).pending = s.pending := by
  simp [State.stoppedEnd]

@[simp] theorem lineDone_keeps (s : State) (fl : Flight) :
    (s.lineDone fl).link.mask = s.link.mask ∧
    (s.lineDone fl).link.throttleMs = s.link.throttleMs ∧
    (s.lineDone fl).link.delayMs = s.link.delayMs ∧
    (s.lineDone fl).link.limitMs = s.link.limitMs ∧
    (s.lineDone fl).link.throttle = s.link.throttle ∧
    (s.lineDone fl).link.cause = s.link.cause ∧
    (s.lineDone fl).link.replies = s.link.replies ∧
    (s.lineDone fl).link.direction = s.link.direction ∧
    (s.lineDone fl).link.frameBegun = s.link.frameBegun ∧
    (s.lineDone fl).link.discarding = s.link.discarding ∧
    (s.lineDone fl).link.withheld = s.link.withheld ∧
    (s.lineDone fl).jobs = s.jobs ∧
    (s.lineDone fl).galleyOrder = s.galleyOrder ∧
    (s.lineDone fl).house = s.house ∧
    (s.lineDone fl).houseLocked = s.houseLocked ∧
    (s.lineDone fl).galleyGap = s.galleyGap ∧
    (s.lineDone fl).exposureHead = s.exposureHead ∧
    (s.lineDone fl).proofHead = s.proofHead ∧
    (s.lineDone fl).engine = s.engine ∧
    (s.lineDone fl).languages = s.languages ∧
    (s.lineDone fl).dict = s.dict ∧
    (s.lineDone fl).expo.stops = s.expo.stops ∧
    (s.lineDone fl).expo.named = s.expo.named ∧
    (s.lineDone fl).expo.linesSpoiled = s.expo.linesSpoiled ∧
    (s.lineDone fl).expo.lens = s.expo.lens ∧
    (s.lineDone fl).expo.lensTarget = s.expo.lensTarget ∧
    (s.lineDone fl).expo.flashing = s.expo.flashing ∧
    (s.lineDone fl).expo.lastDuration = s.expo.lastDuration ∧
    (s.lineDone fl).expo.lastClamped = s.expo.lastClamped ∧
    (s.lineDone fl).lamp = s.lamp ∧
    (s.lineDone fl).film = s.film ∧
    (s.lineDone fl).freeCount = s.freeCount ∧
    (s.lineDone fl).pending = s.pending := by
  simp [State.lineDone]

@[simp] theorem abandon_keeps (s : State) (fl : Flight) (a b : Bool) :
    (s.abandon fl a b).link.mask = s.link.mask ∧
    (s.abandon fl a b).link.throttleMs = s.link.throttleMs ∧
    (s.abandon fl a b).link.delayMs = s.link.delayMs ∧
    (s.abandon fl a b).link.limitMs = s.link.limitMs ∧
    (s.abandon fl a b).link.throttle = s.link.throttle ∧
    (s.abandon fl a b).link.delayTimer = s.link.delayTimer ∧
    (s.abandon fl a b).link.absTimer = s.link.absTimer ∧
    (s.abandon fl a b).link.cause = s.link.cause ∧
    (s.abandon fl a b).link.replies = s.link.replies ∧
    (s.abandon fl a b).link.direction = s.link.direction ∧
    (s.abandon fl a b).link.frameBegun = s.link.frameBegun ∧
    (s.abandon fl a b).link.discarding = s.link.discarding ∧
    (s.abandon fl a b).link.withheld = s.link.withheld ∧
    (s.abandon fl a b).jobs = s.jobs ∧
    (s.abandon fl a b).galleyOrder = s.galleyOrder ∧
    (s.abandon fl a b).house = s.house ∧
    (s.abandon fl a b).houseLocked = s.houseLocked ∧
    (s.abandon fl a b).galleyGap = s.galleyGap ∧
    (s.abandon fl a b).exposureHead = s.exposureHead ∧
    (s.abandon fl a b).proofHead = s.proofHead ∧
    (s.abandon fl a b).engine = s.engine ∧
    (s.abandon fl a b).languages = s.languages ∧
    (s.abandon fl a b).dict = s.dict ∧
    (s.abandon fl a b).lamp = s.lamp ∧
    (s.abandon fl a b).film = s.film ∧
    (s.abandon fl a b).freeCount = s.freeCount ∧
    (s.abandon fl a b).pending = s.pending := by
  simp [State.abandon]

@[simp] theorem operationEnd_keeps (s : State) (fl : Flight) (a b : Bool) :
    (s.operationEnd fl a b).link.mask = s.link.mask ∧
    (s.operationEnd fl a b).link.throttleMs = s.link.throttleMs ∧
    (s.operationEnd fl a b).link.delayMs = s.link.delayMs ∧
    (s.operationEnd fl a b).link.limitMs = s.link.limitMs ∧
    (s.operationEnd fl a b).link.throttle = s.link.throttle ∧
    (s.operationEnd fl a b).link.delayTimer = s.link.delayTimer ∧
    (s.operationEnd fl a b).link.absTimer = s.link.absTimer ∧
    (s.operationEnd fl a b).link.cause = s.link.cause ∧
    (s.operationEnd fl a b).link.replies = s.link.replies ∧
    (s.operationEnd fl a b).link.direction = s.link.direction ∧
    (s.operationEnd fl a b).link.frameBegun = s.link.frameBegun ∧
    (s.operationEnd fl a b).link.discarding = s.link.discarding ∧
    (s.operationEnd fl a b).link.withheld = s.link.withheld ∧
    (s.operationEnd fl a b).turret.position = s.turret.position ∧
    (s.operationEnd fl a b).turret.motion = s.turret.motion ∧
    (s.operationEnd fl a b).turret.pass = s.turret.pass ∧
    (s.operationEnd fl a b).turret.latchEngaged = s.turret.latchEngaged ∧
    (s.operationEnd fl a b).turret.hatchOpen = s.turret.hatchOpen ∧
    (s.operationEnd fl a b).turret.hatchMark = s.turret.hatchMark ∧
    (s.operationEnd fl a b).turret.exchange = s.turret.exchange ∧
    (s.operationEnd fl a b).turret.cancelPending = s.turret.cancelPending ∧
    (s.operationEnd fl a b).turret.read = s.turret.read ∧
    (s.operationEnd fl a b).turret.protection = s.turret.protection ∧
    (s.operationEnd fl a b).turret.lineOpen = s.turret.lineOpen ∧
    (s.operationEnd fl a b).turret.lineEndDue = s.turret.lineEndDue ∧
    (s.operationEnd fl a b).turret.stations.length = s.turret.stations.length ∧
    (s.operationEnd fl a b).jobs = s.jobs ∧
    (s.operationEnd fl a b).galleyOrder = s.galleyOrder ∧
    (s.operationEnd fl a b).house = s.house ∧
    (s.operationEnd fl a b).houseLocked = s.houseLocked ∧
    (s.operationEnd fl a b).galleyGap = s.galleyGap ∧
    (s.operationEnd fl a b).exposureHead = s.exposureHead ∧
    (s.operationEnd fl a b).proofHead = s.proofHead ∧
    (s.operationEnd fl a b).engine = s.engine ∧
    (s.operationEnd fl a b).languages = s.languages ∧
    (s.operationEnd fl a b).dict = s.dict ∧
    (s.operationEnd fl a b).lamp = s.lamp ∧
    (s.operationEnd fl a b).film = s.film ∧
    (s.operationEnd fl a b).freeCount = s.freeCount ∧
    (s.operationEnd fl a b).pending = s.pending := by
  simp only [State.operationEnd]
  (repeat' split) <;> simp

@[simp] theorem undispatch_keeps (s : State) (fl : Flight) :
    (s.undispatch fl).link = s.link ∧
    (s.undispatch fl).fonts = s.fonts ∧
    (s.undispatch fl).jobs = s.jobs ∧
    (s.undispatch fl).galleyOrder = s.galleyOrder ∧
    (s.undispatch fl).house = s.house ∧
    (s.undispatch fl).houseLocked = s.houseLocked ∧
    (s.undispatch fl).galleyGap = s.galleyGap ∧
    (s.undispatch fl).exposureHead = s.exposureHead ∧
    (s.undispatch fl).proofHead = s.proofHead ∧
    (s.undispatch fl).engine = s.engine ∧
    (s.undispatch fl).languages = s.languages ∧
    (s.undispatch fl).dict = s.dict ∧
    (s.undispatch fl).lamp = s.lamp ∧
    (s.undispatch fl).film = s.film ∧
    (s.undispatch fl).proof = s.proof ∧
    (s.undispatch fl).freeCount = s.freeCount ∧
    (s.undispatch fl).pending = s.pending := by
  simp [State.undispatch]

@[simp] theorem startRun_keeps (s : State) (fl : Flight) :
    (s.startRun fl).link = s.link ∧
    (s.startRun fl).fonts = s.fonts ∧
    (s.startRun fl).turret = s.turret ∧
    (s.startRun fl).jobs = s.jobs ∧
    (s.startRun fl).galleyOrder = s.galleyOrder ∧
    (s.startRun fl).house = s.house ∧
    (s.startRun fl).houseLocked = s.houseLocked ∧
    (s.startRun fl).galleyGap = s.galleyGap ∧
    (s.startRun fl).exposureHead = s.exposureHead ∧
    (s.startRun fl).proofHead = s.proofHead ∧
    (s.startRun fl).engine = s.engine ∧
    (s.startRun fl).languages = s.languages ∧
    (s.startRun fl).dict = s.dict ∧
    (s.startRun fl).queue = s.queue ∧
    (s.startRun fl).expo.stops = s.expo.stops ∧
    (s.startRun fl).expo.holdRequest = s.expo.holdRequest ∧
    (s.startRun fl).expo.named = s.expo.named ∧
    (s.startRun fl).expo.lastExposed = s.expo.lastExposed ∧
    (s.startRun fl).expo.linesExposed = s.expo.linesExposed ∧
    (s.startRun fl).expo.linesSpoiled = s.expo.linesSpoiled ∧
    (s.startRun fl).expo.lens = s.expo.lens ∧
    (s.startRun fl).expo.carriage = s.expo.carriage ∧
    (s.startRun fl).expo.carriageTarget = s.expo.carriageTarget ∧
    (s.startRun fl).expo.flashing = s.expo.flashing ∧
    (s.startRun fl).expo.lastDuration = s.expo.lastDuration ∧
    (s.startRun fl).expo.lastClamped = s.expo.lastClamped ∧
    (s.startRun fl).lamp = s.lamp ∧
    (s.startRun fl).film = s.film ∧
    (s.startRun fl).proof = s.proof ∧
    (s.startRun fl).freeCount = s.freeCount ∧
    (s.startRun fl).pending = s.pending := by
  simp only [State.startRun]
  (repeat' split) <;> simp

@[simp] theorem leadEnd_keeps (s : State) (fl : Flight) :
    (s.leadEnd fl).link.mask = s.link.mask ∧
    (s.leadEnd fl).link.throttleMs = s.link.throttleMs ∧
    (s.leadEnd fl).link.delayMs = s.link.delayMs ∧
    (s.leadEnd fl).link.limitMs = s.link.limitMs ∧
    (s.leadEnd fl).link.throttle = s.link.throttle ∧
    (s.leadEnd fl).link.delayTimer = s.link.delayTimer ∧
    (s.leadEnd fl).link.absTimer = s.link.absTimer ∧
    (s.leadEnd fl).link.cause = s.link.cause ∧
    (s.leadEnd fl).link.replies = s.link.replies ∧
    (s.leadEnd fl).link.direction = s.link.direction ∧
    (s.leadEnd fl).link.frameBegun = s.link.frameBegun ∧
    (s.leadEnd fl).link.discarding = s.link.discarding ∧
    (s.leadEnd fl).link.withheld = s.link.withheld ∧
    (s.leadEnd fl).jobs = s.jobs ∧
    (s.leadEnd fl).galleyOrder = s.galleyOrder ∧
    (s.leadEnd fl).house = s.house ∧
    (s.leadEnd fl).houseLocked = s.houseLocked ∧
    (s.leadEnd fl).galleyGap = s.galleyGap ∧
    (s.leadEnd fl).exposureHead = s.exposureHead ∧
    (s.leadEnd fl).proofHead = s.proofHead ∧
    (s.leadEnd fl).engine = s.engine ∧
    (s.leadEnd fl).languages = s.languages ∧
    (s.leadEnd fl).dict = s.dict ∧
    (s.leadEnd fl).lamp = s.lamp ∧
    (s.leadEnd fl).film = s.film ∧
    (s.leadEnd fl).freeCount = s.freeCount ∧
    (s.leadEnd fl).pending = s.pending := by
  simp only [State.leadEnd]
  (repeat' split) <;> simp

@[simp] theorem moveVerified_keeps (s : State)  :
    (s.moveVerified).link.mask = s.link.mask ∧
    (s.moveVerified).link.throttleMs = s.link.throttleMs ∧
    (s.moveVerified).link.delayMs = s.link.delayMs ∧
    (s.moveVerified).link.limitMs = s.link.limitMs ∧
    (s.moveVerified).link.throttle = s.link.throttle ∧
    (s.moveVerified).link.delayTimer = s.link.delayTimer ∧
    (s.moveVerified).link.absTimer = s.link.absTimer ∧
    (s.moveVerified).link.cause = s.link.cause ∧
    (s.moveVerified).link.replies = s.link.replies ∧
    (s.moveVerified).link.direction = s.link.direction ∧
    (s.moveVerified).link.frameBegun = s.link.frameBegun ∧
    (s.moveVerified).link.discarding = s.link.discarding ∧
    (s.moveVerified).link.withheld = s.link.withheld ∧
    (s.moveVerified).jobs = s.jobs ∧
    (s.moveVerified).galleyOrder = s.galleyOrder ∧
    (s.moveVerified).house = s.house ∧
    (s.moveVerified).houseLocked = s.houseLocked ∧
    (s.moveVerified).galleyGap = s.galleyGap ∧
    (s.moveVerified).exposureHead = s.exposureHead ∧
    (s.moveVerified).proofHead = s.proofHead ∧
    (s.moveVerified).engine = s.engine ∧
    (s.moveVerified).languages = s.languages ∧
    (s.moveVerified).dict = s.dict ∧
    (s.moveVerified).lamp = s.lamp ∧
    (s.moveVerified).freeCount = s.freeCount ∧
    (s.moveVerified).pending = s.pending := by
  simp only [State.moveVerified]
  (repeat' split) <;> simp

@[simp] theorem hostJam_keeps (s : State)  :
    (s.hostJam).link = s.link ∧
    (s.hostJam).fonts = s.fonts ∧
    (s.hostJam).turret = s.turret ∧
    (s.hostJam).jobs = s.jobs ∧
    (s.hostJam).galleyOrder = s.galleyOrder ∧
    (s.hostJam).house = s.house ∧
    (s.hostJam).houseLocked = s.houseLocked ∧
    (s.hostJam).galleyGap = s.galleyGap ∧
    (s.hostJam).exposureHead = s.exposureHead ∧
    (s.hostJam).proofHead = s.proofHead ∧
    (s.hostJam).engine = s.engine ∧
    (s.hostJam).languages = s.languages ∧
    (s.hostJam).dict = s.dict ∧
    (s.hostJam).queue = s.queue ∧
    (s.hostJam).lamp = s.lamp ∧
    (s.hostJam).film = s.film ∧
    (s.hostJam).proof = s.proof ∧
    (s.hostJam).freeCount = s.freeCount ∧
    (s.hostJam).pending = s.pending := by
  simp [State.hostJam]

@[simp] theorem tellJam_keeps (s : State) (m : Mover) :
    (s.tellJam m).link.mask = s.link.mask ∧
    (s.tellJam m).link.throttleMs = s.link.throttleMs ∧
    (s.tellJam m).link.delayMs = s.link.delayMs ∧
    (s.tellJam m).link.limitMs = s.link.limitMs ∧
    (s.tellJam m).link.throttle = s.link.throttle ∧
    (s.tellJam m).link.delayTimer = s.link.delayTimer ∧
    (s.tellJam m).link.absTimer = s.link.absTimer ∧
    (s.tellJam m).link.cause = s.link.cause ∧
    (s.tellJam m).link.replies = s.link.replies ∧
    (s.tellJam m).link.direction = s.link.direction ∧
    (s.tellJam m).link.frameBegun = s.link.frameBegun ∧
    (s.tellJam m).link.discarding = s.link.discarding ∧
    (s.tellJam m).link.withheld = s.link.withheld ∧
    (s.tellJam m).jobs = s.jobs ∧
    (s.tellJam m).galleyOrder = s.galleyOrder ∧
    (s.tellJam m).house = s.house ∧
    (s.tellJam m).houseLocked = s.houseLocked ∧
    (s.tellJam m).galleyGap = s.galleyGap ∧
    (s.tellJam m).exposureHead = s.exposureHead ∧
    (s.tellJam m).proofHead = s.proofHead ∧
    (s.tellJam m).engine = s.engine ∧
    (s.tellJam m).languages = s.languages ∧
    (s.tellJam m).dict = s.dict ∧
    (s.tellJam m).lamp = s.lamp ∧
    (s.tellJam m).film = s.film ∧
    (s.tellJam m).freeCount = s.freeCount ∧
    (s.tellJam m).pending = s.pending := by
  simp only [State.tellJam]
  (repeat' split) <;> simp

@[simp] theorem moveJam_keeps (s : State)  :
    (s.moveJam).link.mask = s.link.mask ∧
    (s.moveJam).link.throttleMs = s.link.throttleMs ∧
    (s.moveJam).link.delayMs = s.link.delayMs ∧
    (s.moveJam).link.limitMs = s.link.limitMs ∧
    (s.moveJam).link.throttle = s.link.throttle ∧
    (s.moveJam).link.delayTimer = s.link.delayTimer ∧
    (s.moveJam).link.absTimer = s.link.absTimer ∧
    (s.moveJam).link.cause = s.link.cause ∧
    (s.moveJam).link.replies = s.link.replies ∧
    (s.moveJam).link.direction = s.link.direction ∧
    (s.moveJam).link.frameBegun = s.link.frameBegun ∧
    (s.moveJam).link.discarding = s.link.discarding ∧
    (s.moveJam).link.withheld = s.link.withheld ∧
    (s.moveJam).jobs = s.jobs ∧
    (s.moveJam).galleyOrder = s.galleyOrder ∧
    (s.moveJam).house = s.house ∧
    (s.moveJam).houseLocked = s.houseLocked ∧
    (s.moveJam).galleyGap = s.galleyGap ∧
    (s.moveJam).exposureHead = s.exposureHead ∧
    (s.moveJam).proofHead = s.proofHead ∧
    (s.moveJam).engine = s.engine ∧
    (s.moveJam).languages = s.languages ∧
    (s.moveJam).dict = s.dict ∧
    (s.moveJam).lamp = s.lamp ∧
    (s.moveJam).freeCount = s.freeCount ∧
    (s.moveJam).pending = s.pending := by
  simp [State.moveJam]

@[simp] theorem beginMove_keeps (s : State) (m : Mover) (t : Nat) (b : Bool) :
    (s.beginMove m t b).link.mask = s.link.mask ∧
    (s.beginMove m t b).link.throttleMs = s.link.throttleMs ∧
    (s.beginMove m t b).link.delayMs = s.link.delayMs ∧
    (s.beginMove m t b).link.limitMs = s.link.limitMs ∧
    (s.beginMove m t b).link.throttle = s.link.throttle ∧
    (s.beginMove m t b).link.delayTimer = s.link.delayTimer ∧
    (s.beginMove m t b).link.absTimer = s.link.absTimer ∧
    (s.beginMove m t b).link.cause = s.link.cause ∧
    (s.beginMove m t b).link.replies = s.link.replies ∧
    (s.beginMove m t b).link.direction = s.link.direction ∧
    (s.beginMove m t b).link.frameBegun = s.link.frameBegun ∧
    (s.beginMove m t b).link.discarding = s.link.discarding ∧
    (s.beginMove m t b).link.withheld = s.link.withheld ∧
    (s.beginMove m t b).jobs = s.jobs ∧
    (s.beginMove m t b).galleyOrder = s.galleyOrder ∧
    (s.beginMove m t b).house = s.house ∧
    (s.beginMove m t b).houseLocked = s.houseLocked ∧
    (s.beginMove m t b).galleyGap = s.galleyGap ∧
    (s.beginMove m t b).exposureHead = s.exposureHead ∧
    (s.beginMove m t b).proofHead = s.proofHead ∧
    (s.beginMove m t b).engine = s.engine ∧
    (s.beginMove m t b).languages = s.languages ∧
    (s.beginMove m t b).dict = s.dict ∧
    (s.beginMove m t b).lamp = s.lamp ∧
    (s.beginMove m t b).freeCount = s.freeCount ∧
    (s.beginMove m t b).pending = s.pending := by
  simp only [State.beginMove]
  (repeat' split) <;> simp

@[simp] theorem feedAndCutEffect_keeps (s : State)  :
    ((feedAndCutEffect s).1).link.mask = s.link.mask ∧
    ((feedAndCutEffect s).1).link.throttleMs = s.link.throttleMs ∧
    ((feedAndCutEffect s).1).link.delayMs = s.link.delayMs ∧
    ((feedAndCutEffect s).1).link.limitMs = s.link.limitMs ∧
    ((feedAndCutEffect s).1).link.throttle = s.link.throttle ∧
    ((feedAndCutEffect s).1).link.delayTimer = s.link.delayTimer ∧
    ((feedAndCutEffect s).1).link.absTimer = s.link.absTimer ∧
    ((feedAndCutEffect s).1).link.cause = s.link.cause ∧
    ((feedAndCutEffect s).1).link.replies = s.link.replies ∧
    ((feedAndCutEffect s).1).link.direction = s.link.direction ∧
    ((feedAndCutEffect s).1).link.frameBegun = s.link.frameBegun ∧
    ((feedAndCutEffect s).1).link.discarding = s.link.discarding ∧
    ((feedAndCutEffect s).1).link.withheld = s.link.withheld ∧
    ((feedAndCutEffect s).1).jobs = s.jobs ∧
    ((feedAndCutEffect s).1).galleyOrder = s.galleyOrder ∧
    ((feedAndCutEffect s).1).house = s.house ∧
    ((feedAndCutEffect s).1).houseLocked = s.houseLocked ∧
    ((feedAndCutEffect s).1).galleyGap = s.galleyGap ∧
    ((feedAndCutEffect s).1).exposureHead = s.exposureHead ∧
    ((feedAndCutEffect s).1).proofHead = s.proofHead ∧
    ((feedAndCutEffect s).1).engine = s.engine ∧
    ((feedAndCutEffect s).1).languages = s.languages ∧
    ((feedAndCutEffect s).1).dict = s.dict ∧
    ((feedAndCutEffect s).1).lamp = s.lamp ∧
    ((feedAndCutEffect s).1).freeCount = s.freeCount ∧
    ((feedAndCutEffect s).1).pending = s.pending := by
  simp only [feedAndCutEffect]
  (repeat' split) <;> simp [refuse, done]

@[simp] theorem driveStopEffect_keeps (s : State) (r : Nat) :
    (driveStopEffect r s).link.mask = s.link.mask ∧
    (driveStopEffect r s).link.throttleMs = s.link.throttleMs ∧
    (driveStopEffect r s).link.delayMs = s.link.delayMs ∧
    (driveStopEffect r s).link.limitMs = s.link.limitMs ∧
    (driveStopEffect r s).link.throttle = s.link.throttle ∧
    (driveStopEffect r s).link.delayTimer = s.link.delayTimer ∧
    (driveStopEffect r s).link.absTimer = s.link.absTimer ∧
    (driveStopEffect r s).link.cause = s.link.cause ∧
    (driveStopEffect r s).link.replies = s.link.replies ∧
    (driveStopEffect r s).link.direction = s.link.direction ∧
    (driveStopEffect r s).link.frameBegun = s.link.frameBegun ∧
    (driveStopEffect r s).link.discarding = s.link.discarding ∧
    (driveStopEffect r s).link.withheld = s.link.withheld ∧
    (driveStopEffect r s).jobs = s.jobs ∧
    (driveStopEffect r s).galleyOrder = s.galleyOrder ∧
    (driveStopEffect r s).house = s.house ∧
    (driveStopEffect r s).houseLocked = s.houseLocked ∧
    (driveStopEffect r s).galleyGap = s.galleyGap ∧
    (driveStopEffect r s).exposureHead = s.exposureHead ∧
    (driveStopEffect r s).proofHead = s.proofHead ∧
    (driveStopEffect r s).engine = s.engine ∧
    (driveStopEffect r s).languages = s.languages ∧
    (driveStopEffect r s).dict = s.dict ∧
    (driveStopEffect r s).lamp = s.lamp ∧
    (driveStopEffect r s).freeCount = s.freeCount ∧
    (driveStopEffect r s).pending = s.pending := by
  simp only [driveStopEffect]
  (repeat' split) <;> simp

@[simp] theorem filmPresentChangeEffect_keeps (s : State) (p : Bool) :
    (filmPresentChangeEffect p s).link.mask = s.link.mask ∧
    (filmPresentChangeEffect p s).link.throttleMs = s.link.throttleMs ∧
    (filmPresentChangeEffect p s).link.delayMs = s.link.delayMs ∧
    (filmPresentChangeEffect p s).link.limitMs = s.link.limitMs ∧
    (filmPresentChangeEffect p s).link.throttle = s.link.throttle ∧
    (filmPresentChangeEffect p s).link.delayTimer = s.link.delayTimer ∧
    (filmPresentChangeEffect p s).link.absTimer = s.link.absTimer ∧
    (filmPresentChangeEffect p s).link.cause = s.link.cause ∧
    (filmPresentChangeEffect p s).link.replies = s.link.replies ∧
    (filmPresentChangeEffect p s).link.direction = s.link.direction ∧
    (filmPresentChangeEffect p s).link.frameBegun = s.link.frameBegun ∧
    (filmPresentChangeEffect p s).link.discarding = s.link.discarding ∧
    (filmPresentChangeEffect p s).link.withheld = s.link.withheld ∧
    (filmPresentChangeEffect p s).jobs = s.jobs ∧
    (filmPresentChangeEffect p s).galleyOrder = s.galleyOrder ∧
    (filmPresentChangeEffect p s).house = s.house ∧
    (filmPresentChangeEffect p s).houseLocked = s.houseLocked ∧
    (filmPresentChangeEffect p s).galleyGap = s.galleyGap ∧
    (filmPresentChangeEffect p s).exposureHead = s.exposureHead ∧
    (filmPresentChangeEffect p s).proofHead = s.proofHead ∧
    (filmPresentChangeEffect p s).engine = s.engine ∧
    (filmPresentChangeEffect p s).languages = s.languages ∧
    (filmPresentChangeEffect p s).dict = s.dict ∧
    (filmPresentChangeEffect p s).lamp = s.lamp ∧
    (filmPresentChangeEffect p s).freeCount = s.freeCount ∧
    (filmPresentChangeEffect p s).pending = s.pending := by
  simp only [filmPresentChangeEffect]
  (repeat' split) <;> simp

@[simp] theorem cutterHomeEffect_keeps (s : State)  :
    (cutterHomeEffect s).link.mask = s.link.mask ∧
    (cutterHomeEffect s).link.throttleMs = s.link.throttleMs ∧
    (cutterHomeEffect s).link.delayMs = s.link.delayMs ∧
    (cutterHomeEffect s).link.limitMs = s.link.limitMs ∧
    (cutterHomeEffect s).link.throttle = s.link.throttle ∧
    (cutterHomeEffect s).link.delayTimer = s.link.delayTimer ∧
    (cutterHomeEffect s).link.absTimer = s.link.absTimer ∧
    (cutterHomeEffect s).link.cause = s.link.cause ∧
    (cutterHomeEffect s).link.replies = s.link.replies ∧
    (cutterHomeEffect s).link.direction = s.link.direction ∧
    (cutterHomeEffect s).link.frameBegun = s.link.frameBegun ∧
    (cutterHomeEffect s).link.discarding = s.link.discarding ∧
    (cutterHomeEffect s).link.withheld = s.link.withheld ∧
    (cutterHomeEffect s).turret.position = s.turret.position ∧
    (cutterHomeEffect s).turret.motion = s.turret.motion ∧
    (cutterHomeEffect s).turret.pass = s.turret.pass ∧
    (cutterHomeEffect s).turret.latchEngaged = s.turret.latchEngaged ∧
    (cutterHomeEffect s).turret.hatchOpen = s.turret.hatchOpen ∧
    (cutterHomeEffect s).turret.hatchMark = s.turret.hatchMark ∧
    (cutterHomeEffect s).turret.exchange = s.turret.exchange ∧
    (cutterHomeEffect s).turret.cancelPending = s.turret.cancelPending ∧
    (cutterHomeEffect s).turret.read = s.turret.read ∧
    (cutterHomeEffect s).turret.protection = s.turret.protection ∧
    (cutterHomeEffect s).turret.lineOpen = s.turret.lineOpen ∧
    (cutterHomeEffect s).turret.lineEndDue = s.turret.lineEndDue ∧
    (cutterHomeEffect s).turret.stations.length = s.turret.stations.length ∧
    (cutterHomeEffect s).jobs = s.jobs ∧
    (cutterHomeEffect s).galleyOrder = s.galleyOrder ∧
    (cutterHomeEffect s).house = s.house ∧
    (cutterHomeEffect s).houseLocked = s.houseLocked ∧
    (cutterHomeEffect s).galleyGap = s.galleyGap ∧
    (cutterHomeEffect s).exposureHead = s.exposureHead ∧
    (cutterHomeEffect s).proofHead = s.proofHead ∧
    (cutterHomeEffect s).engine = s.engine ∧
    (cutterHomeEffect s).languages = s.languages ∧
    (cutterHomeEffect s).dict = s.dict ∧
    (cutterHomeEffect s).lamp = s.lamp ∧
    (cutterHomeEffect s).film.loaded = s.film.loaded ∧
    (cutterHomeEffect s).film.lowThreshold = s.film.lowThreshold ∧
    (cutterHomeEffect s).film.target = s.film.target ∧
    (cutterHomeEffect s).film.trims = s.film.trims ∧
    (cutterHomeEffect s).film.measured = s.film.measured ∧
    (cutterHomeEffect s).film.present = s.film.present ∧
    (cutterHomeEffect s).film.coverOpen = s.film.coverOpen ∧
    (cutterHomeEffect s).film.jams = s.film.jams ∧
    (cutterHomeEffect s).freeCount = s.freeCount ∧
    (cutterHomeEffect s).pending = s.pending := by
  simp only [cutterHomeEffect]
  (repeat' split) <;> simp

@[simp] theorem cutterTimeoutEffect_keeps (s : State)  :
    (cutterTimeoutEffect s).link.mask = s.link.mask ∧
    (cutterTimeoutEffect s).link.throttleMs = s.link.throttleMs ∧
    (cutterTimeoutEffect s).link.delayMs = s.link.delayMs ∧
    (cutterTimeoutEffect s).link.limitMs = s.link.limitMs ∧
    (cutterTimeoutEffect s).link.throttle = s.link.throttle ∧
    (cutterTimeoutEffect s).link.delayTimer = s.link.delayTimer ∧
    (cutterTimeoutEffect s).link.absTimer = s.link.absTimer ∧
    (cutterTimeoutEffect s).link.cause = s.link.cause ∧
    (cutterTimeoutEffect s).link.replies = s.link.replies ∧
    (cutterTimeoutEffect s).link.direction = s.link.direction ∧
    (cutterTimeoutEffect s).link.frameBegun = s.link.frameBegun ∧
    (cutterTimeoutEffect s).link.discarding = s.link.discarding ∧
    (cutterTimeoutEffect s).link.withheld = s.link.withheld ∧
    (cutterTimeoutEffect s).jobs = s.jobs ∧
    (cutterTimeoutEffect s).galleyOrder = s.galleyOrder ∧
    (cutterTimeoutEffect s).house = s.house ∧
    (cutterTimeoutEffect s).houseLocked = s.houseLocked ∧
    (cutterTimeoutEffect s).galleyGap = s.galleyGap ∧
    (cutterTimeoutEffect s).exposureHead = s.exposureHead ∧
    (cutterTimeoutEffect s).proofHead = s.proofHead ∧
    (cutterTimeoutEffect s).engine = s.engine ∧
    (cutterTimeoutEffect s).languages = s.languages ∧
    (cutterTimeoutEffect s).dict = s.dict ∧
    (cutterTimeoutEffect s).lamp = s.lamp ∧
    (cutterTimeoutEffect s).film.loaded = s.film.loaded ∧
    (cutterTimeoutEffect s).film.baseline = s.film.baseline ∧
    (cutterTimeoutEffect s).film.highMark = s.film.highMark ∧
    (cutterTimeoutEffect s).film.origin = s.film.origin ∧
    (cutterTimeoutEffect s).film.lowThreshold = s.film.lowThreshold ∧
    (cutterTimeoutEffect s).film.lowCondition = s.film.lowCondition ∧
    (cutterTimeoutEffect s).film.owner = s.film.owner ∧
    (cutterTimeoutEffect s).film.target = s.film.target ∧
    (cutterTimeoutEffect s).film.trims = s.film.trims ∧
    (cutterTimeoutEffect s).film.measured = s.film.measured ∧
    (cutterTimeoutEffect s).film.present = s.film.present ∧
    (cutterTimeoutEffect s).film.coverOpen = s.film.coverOpen ∧
    (cutterTimeoutEffect s).film.cuts = s.film.cuts ∧
    (cutterTimeoutEffect s).film.lastCut = s.film.lastCut ∧
    (cutterTimeoutEffect s).freeCount = s.freeCount ∧
    (cutterTimeoutEffect s).pending = s.pending := by
  simp only [cutterTimeoutEffect]
  (repeat' split) <;> simp

@[simp] theorem putInFlight_keeps (s : State) (e : Entry) (g : Option Nat) :
    (s.putInFlight e g).link.mask = s.link.mask ∧
    (s.putInFlight e g).link.throttleMs = s.link.throttleMs ∧
    (s.putInFlight e g).link.delayMs = s.link.delayMs ∧
    (s.putInFlight e g).link.limitMs = s.link.limitMs ∧
    (s.putInFlight e g).link.throttle = s.link.throttle ∧
    (s.putInFlight e g).link.delayTimer = s.link.delayTimer ∧
    (s.putInFlight e g).link.absTimer = s.link.absTimer ∧
    (s.putInFlight e g).link.cause = s.link.cause ∧
    (s.putInFlight e g).link.replies = s.link.replies ∧
    (s.putInFlight e g).link.direction = s.link.direction ∧
    (s.putInFlight e g).link.frameBegun = s.link.frameBegun ∧
    (s.putInFlight e g).link.discarding = s.link.discarding ∧
    (s.putInFlight e g).link.withheld = s.link.withheld ∧
    (s.putInFlight e g).jobs = s.jobs ∧
    (s.putInFlight e g).galleyOrder = s.galleyOrder ∧
    (s.putInFlight e g).house = s.house ∧
    (s.putInFlight e g).houseLocked = s.houseLocked ∧
    (s.putInFlight e g).galleyGap = s.galleyGap ∧
    (s.putInFlight e g).exposureHead = s.exposureHead ∧
    (s.putInFlight e g).proofHead = s.proofHead ∧
    (s.putInFlight e g).engine = s.engine ∧
    (s.putInFlight e g).languages = s.languages ∧
    (s.putInFlight e g).dict = s.dict ∧
    (s.putInFlight e g).lamp = s.lamp ∧
    (s.putInFlight e g).freeCount = s.freeCount ∧
    (s.putInFlight e g).pending = s.pending := by
  simp only [State.putInFlight]
  (repeat' split) <;> simp

@[simp] theorem dispatchEffect_keeps (s : State)  :
    (dispatchEffect s).link.mask = s.link.mask ∧
    (dispatchEffect s).link.throttleMs = s.link.throttleMs ∧
    (dispatchEffect s).link.delayMs = s.link.delayMs ∧
    (dispatchEffect s).link.limitMs = s.link.limitMs ∧
    (dispatchEffect s).link.throttle = s.link.throttle ∧
    (dispatchEffect s).link.delayTimer = s.link.delayTimer ∧
    (dispatchEffect s).link.absTimer = s.link.absTimer ∧
    (dispatchEffect s).link.cause = s.link.cause ∧
    (dispatchEffect s).link.replies = s.link.replies ∧
    (dispatchEffect s).link.direction = s.link.direction ∧
    (dispatchEffect s).link.frameBegun = s.link.frameBegun ∧
    (dispatchEffect s).link.discarding = s.link.discarding ∧
    (dispatchEffect s).link.withheld = s.link.withheld ∧
    (dispatchEffect s).jobs = s.jobs ∧
    (dispatchEffect s).galleyOrder = s.galleyOrder ∧
    (dispatchEffect s).house = s.house ∧
    (dispatchEffect s).houseLocked = s.houseLocked ∧
    (dispatchEffect s).galleyGap = s.galleyGap ∧
    (dispatchEffect s).exposureHead = s.exposureHead ∧
    (dispatchEffect s).proofHead = s.proofHead ∧
    (dispatchEffect s).engine = s.engine ∧
    (dispatchEffect s).languages = s.languages ∧
    (dispatchEffect s).dict = s.dict ∧
    (dispatchEffect s).lamp = s.lamp ∧
    (dispatchEffect s).freeCount = s.freeCount ∧
    (dispatchEffect s).pending = s.pending := by
  simp only [dispatchEffect]
  (repeat' split) <;> simp

@[simp] theorem exposureEvent_keeps (s : State) (a b : Bool) :
    (s.exposureEvent a b).link.mask = s.link.mask ∧
    (s.exposureEvent a b).link.throttleMs = s.link.throttleMs ∧
    (s.exposureEvent a b).link.delayMs = s.link.delayMs ∧
    (s.exposureEvent a b).link.limitMs = s.link.limitMs ∧
    (s.exposureEvent a b).link.throttle = s.link.throttle ∧
    (s.exposureEvent a b).link.delayTimer = s.link.delayTimer ∧
    (s.exposureEvent a b).link.absTimer = s.link.absTimer ∧
    (s.exposureEvent a b).link.cause = s.link.cause ∧
    (s.exposureEvent a b).link.replies = s.link.replies ∧
    (s.exposureEvent a b).link.direction = s.link.direction ∧
    (s.exposureEvent a b).link.frameBegun = s.link.frameBegun ∧
    (s.exposureEvent a b).link.discarding = s.link.discarding ∧
    (s.exposureEvent a b).link.withheld = s.link.withheld ∧
    (s.exposureEvent a b).jobs = s.jobs ∧
    (s.exposureEvent a b).galleyOrder = s.galleyOrder ∧
    (s.exposureEvent a b).house = s.house ∧
    (s.exposureEvent a b).houseLocked = s.houseLocked ∧
    (s.exposureEvent a b).galleyGap = s.galleyGap ∧
    (s.exposureEvent a b).exposureHead = s.exposureHead ∧
    (s.exposureEvent a b).proofHead = s.proofHead ∧
    (s.exposureEvent a b).engine = s.engine ∧
    (s.exposureEvent a b).languages = s.languages ∧
    (s.exposureEvent a b).dict = s.dict ∧
    (s.exposureEvent a b).lamp = s.lamp ∧
    (s.exposureEvent a b).film = s.film ∧
    (s.exposureEvent a b).freeCount = s.freeCount ∧
    (s.exposureEvent a b).pending = s.pending := by
  simp only [State.exposureEvent]
  (repeat' split) <;> simp

@[simp] theorem coverOpenedEffect_keeps (s : State)  :
    (coverOpenedEffect s).link.mask = s.link.mask ∧
    (coverOpenedEffect s).link.throttleMs = s.link.throttleMs ∧
    (coverOpenedEffect s).link.delayMs = s.link.delayMs ∧
    (coverOpenedEffect s).link.limitMs = s.link.limitMs ∧
    (coverOpenedEffect s).link.throttle = s.link.throttle ∧
    (coverOpenedEffect s).link.delayTimer = s.link.delayTimer ∧
    (coverOpenedEffect s).link.absTimer = s.link.absTimer ∧
    (coverOpenedEffect s).link.cause = s.link.cause ∧
    (coverOpenedEffect s).link.replies = s.link.replies ∧
    (coverOpenedEffect s).link.direction = s.link.direction ∧
    (coverOpenedEffect s).link.frameBegun = s.link.frameBegun ∧
    (coverOpenedEffect s).link.discarding = s.link.discarding ∧
    (coverOpenedEffect s).link.withheld = s.link.withheld ∧
    (coverOpenedEffect s).jobs = s.jobs ∧
    (coverOpenedEffect s).galleyOrder = s.galleyOrder ∧
    (coverOpenedEffect s).house = s.house ∧
    (coverOpenedEffect s).houseLocked = s.houseLocked ∧
    (coverOpenedEffect s).galleyGap = s.galleyGap ∧
    (coverOpenedEffect s).exposureHead = s.exposureHead ∧
    (coverOpenedEffect s).proofHead = s.proofHead ∧
    (coverOpenedEffect s).engine = s.engine ∧
    (coverOpenedEffect s).languages = s.languages ∧
    (coverOpenedEffect s).dict = s.dict ∧
    (coverOpenedEffect s).lamp = s.lamp ∧
    (coverOpenedEffect s).film.loaded = s.film.loaded ∧
    (coverOpenedEffect s).film.baseline = s.film.baseline ∧
    (coverOpenedEffect s).film.highMark = s.film.highMark ∧
    (coverOpenedEffect s).film.origin = s.film.origin ∧
    (coverOpenedEffect s).film.lowThreshold = s.film.lowThreshold ∧
    (coverOpenedEffect s).film.lowCondition = s.film.lowCondition ∧
    (coverOpenedEffect s).film.owner = s.film.owner ∧
    (coverOpenedEffect s).film.state = s.film.state ∧
    (coverOpenedEffect s).film.mover = s.film.mover ∧
    (coverOpenedEffect s).film.target = s.film.target ∧
    (coverOpenedEffect s).film.trims = s.film.trims ∧
    (coverOpenedEffect s).film.measured = s.film.measured ∧
    (coverOpenedEffect s).film.present = s.film.present ∧
    (coverOpenedEffect s).film.cuts = s.film.cuts ∧
    (coverOpenedEffect s).film.jams = s.film.jams ∧
    (coverOpenedEffect s).film.lastCut = s.film.lastCut ∧
    (coverOpenedEffect s).freeCount = s.freeCount ∧
    (coverOpenedEffect s).pending = s.pending := by
  simp [coverOpenedEffect]

@[simp] theorem coverClosedEffect_keeps (s : State)  :
    (coverClosedEffect s).link = s.link ∧
    (coverClosedEffect s).fonts = s.fonts ∧
    (coverClosedEffect s).turret = s.turret ∧
    (coverClosedEffect s).jobs = s.jobs ∧
    (coverClosedEffect s).galleyOrder = s.galleyOrder ∧
    (coverClosedEffect s).house = s.house ∧
    (coverClosedEffect s).houseLocked = s.houseLocked ∧
    (coverClosedEffect s).galleyGap = s.galleyGap ∧
    (coverClosedEffect s).exposureHead = s.exposureHead ∧
    (coverClosedEffect s).proofHead = s.proofHead ∧
    (coverClosedEffect s).engine = s.engine ∧
    (coverClosedEffect s).languages = s.languages ∧
    (coverClosedEffect s).dict = s.dict ∧
    (coverClosedEffect s).queue = s.queue ∧
    (coverClosedEffect s).expo.state = s.expo.state ∧
    (coverClosedEffect s).expo.holdRequest = s.expo.holdRequest ∧
    (coverClosedEffect s).expo.flight = s.expo.flight ∧
    (coverClosedEffect s).expo.named = s.expo.named ∧
    (coverClosedEffect s).expo.lastExposed = s.expo.lastExposed ∧
    (coverClosedEffect s).expo.linesExposed = s.expo.linesExposed ∧
    (coverClosedEffect s).expo.linesSpoiled = s.expo.linesSpoiled ∧
    (coverClosedEffect s).expo.lens = s.expo.lens ∧
    (coverClosedEffect s).expo.lensTarget = s.expo.lensTarget ∧
    (coverClosedEffect s).expo.carriage = s.expo.carriage ∧
    (coverClosedEffect s).expo.carriageTarget = s.expo.carriageTarget ∧
    (coverClosedEffect s).expo.flashing = s.expo.flashing ∧
    (coverClosedEffect s).expo.lastDuration = s.expo.lastDuration ∧
    (coverClosedEffect s).expo.lastClamped = s.expo.lastClamped ∧
    (coverClosedEffect s).lamp = s.lamp ∧
    (coverClosedEffect s).film.loaded = s.film.loaded ∧
    (coverClosedEffect s).film.baseline = s.film.baseline ∧
    (coverClosedEffect s).film.highMark = s.film.highMark ∧
    (coverClosedEffect s).film.origin = s.film.origin ∧
    (coverClosedEffect s).film.lowThreshold = s.film.lowThreshold ∧
    (coverClosedEffect s).film.lowCondition = s.film.lowCondition ∧
    (coverClosedEffect s).film.owner = s.film.owner ∧
    (coverClosedEffect s).film.state = s.film.state ∧
    (coverClosedEffect s).film.mover = s.film.mover ∧
    (coverClosedEffect s).film.target = s.film.target ∧
    (coverClosedEffect s).film.trims = s.film.trims ∧
    (coverClosedEffect s).film.measured = s.film.measured ∧
    (coverClosedEffect s).film.present = s.film.present ∧
    (coverClosedEffect s).film.cuts = s.film.cuts ∧
    (coverClosedEffect s).film.jams = s.film.jams ∧
    (coverClosedEffect s).film.lastCut = s.film.lastCut ∧
    (coverClosedEffect s).proof = s.proof ∧
    (coverClosedEffect s).freeCount = s.freeCount ∧
    (coverClosedEffect s).pending = s.pending := by
  simp [coverClosedEffect]

@[simp] theorem faultLamp_keeps (s : State) (r : LampFault) :
    (s.faultLamp r).link.mask = s.link.mask ∧
    (s.faultLamp r).link.throttleMs = s.link.throttleMs ∧
    (s.faultLamp r).link.delayMs = s.link.delayMs ∧
    (s.faultLamp r).link.limitMs = s.link.limitMs ∧
    (s.faultLamp r).link.throttle = s.link.throttle ∧
    (s.faultLamp r).link.delayTimer = s.link.delayTimer ∧
    (s.faultLamp r).link.absTimer = s.link.absTimer ∧
    (s.faultLamp r).link.cause = s.link.cause ∧
    (s.faultLamp r).link.replies = s.link.replies ∧
    (s.faultLamp r).link.direction = s.link.direction ∧
    (s.faultLamp r).link.frameBegun = s.link.frameBegun ∧
    (s.faultLamp r).link.discarding = s.link.discarding ∧
    (s.faultLamp r).link.withheld = s.link.withheld ∧
    (s.faultLamp r).jobs = s.jobs ∧
    (s.faultLamp r).galleyOrder = s.galleyOrder ∧
    (s.faultLamp r).house = s.house ∧
    (s.faultLamp r).houseLocked = s.houseLocked ∧
    (s.faultLamp r).galleyGap = s.galleyGap ∧
    (s.faultLamp r).exposureHead = s.exposureHead ∧
    (s.faultLamp r).proofHead = s.proofHead ∧
    (s.faultLamp r).engine = s.engine ∧
    (s.faultLamp r).languages = s.languages ∧
    (s.faultLamp r).dict = s.dict ∧
    (s.faultLamp r).lamp.index = s.lamp.index ∧
    (s.faultLamp r).lamp.weak = s.lamp.weak ∧
    (s.faultLamp r).lamp.invalid = s.lamp.invalid ∧
    (s.faultLamp r).lamp.weakLimit = s.lamp.weakLimit ∧
    (s.faultLamp r).lamp.failLimit = s.lamp.failLimit ∧
    (s.faultLamp r).lamp.economyTimeout = s.lamp.economyTimeout ∧
    (s.faultLamp r).film = s.film ∧
    (s.faultLamp r).freeCount = s.freeCount ∧
    (s.faultLamp r).pending = s.pending := by
  simp [State.faultLamp]

@[simp] theorem judgeLamp_keeps (s : State)  :
    (s.judgeLamp).link.mask = s.link.mask ∧
    (s.judgeLamp).link.throttleMs = s.link.throttleMs ∧
    (s.judgeLamp).link.delayMs = s.link.delayMs ∧
    (s.judgeLamp).link.limitMs = s.link.limitMs ∧
    (s.judgeLamp).link.throttle = s.link.throttle ∧
    (s.judgeLamp).link.delayTimer = s.link.delayTimer ∧
    (s.judgeLamp).link.absTimer = s.link.absTimer ∧
    (s.judgeLamp).link.cause = s.link.cause ∧
    (s.judgeLamp).link.replies = s.link.replies ∧
    (s.judgeLamp).link.direction = s.link.direction ∧
    (s.judgeLamp).link.frameBegun = s.link.frameBegun ∧
    (s.judgeLamp).link.discarding = s.link.discarding ∧
    (s.judgeLamp).link.withheld = s.link.withheld ∧
    (s.judgeLamp).jobs = s.jobs ∧
    (s.judgeLamp).galleyOrder = s.galleyOrder ∧
    (s.judgeLamp).house = s.house ∧
    (s.judgeLamp).houseLocked = s.houseLocked ∧
    (s.judgeLamp).galleyGap = s.galleyGap ∧
    (s.judgeLamp).exposureHead = s.exposureHead ∧
    (s.judgeLamp).proofHead = s.proofHead ∧
    (s.judgeLamp).engine = s.engine ∧
    (s.judgeLamp).languages = s.languages ∧
    (s.judgeLamp).dict = s.dict ∧
    (s.judgeLamp).lamp.index = s.lamp.index ∧
    (s.judgeLamp).lamp.invalid = s.lamp.invalid ∧
    (s.judgeLamp).lamp.weakLimit = s.lamp.weakLimit ∧
    (s.judgeLamp).lamp.failLimit = s.lamp.failLimit ∧
    (s.judgeLamp).lamp.economyTimeout = s.lamp.economyTimeout ∧
    (s.judgeLamp).film = s.film ∧
    (s.judgeLamp).freeCount = s.freeCount ∧
    (s.judgeLamp).pending = s.pending := by
  simp only [State.judgeLamp]
  (repeat' split) <;> simp

@[simp] theorem lampReady_keeps (s : State)  :
    (s.lampReady).link.mask = s.link.mask ∧
    (s.lampReady).link.throttleMs = s.link.throttleMs ∧
    (s.lampReady).link.delayMs = s.link.delayMs ∧
    (s.lampReady).link.limitMs = s.link.limitMs ∧
    (s.lampReady).link.throttle = s.link.throttle ∧
    (s.lampReady).link.delayTimer = s.link.delayTimer ∧
    (s.lampReady).link.absTimer = s.link.absTimer ∧
    (s.lampReady).link.cause = s.link.cause ∧
    (s.lampReady).link.replies = s.link.replies ∧
    (s.lampReady).link.direction = s.link.direction ∧
    (s.lampReady).link.frameBegun = s.link.frameBegun ∧
    (s.lampReady).link.discarding = s.link.discarding ∧
    (s.lampReady).link.withheld = s.link.withheld ∧
    (s.lampReady).jobs = s.jobs ∧
    (s.lampReady).galleyOrder = s.galleyOrder ∧
    (s.lampReady).house = s.house ∧
    (s.lampReady).houseLocked = s.houseLocked ∧
    (s.lampReady).galleyGap = s.galleyGap ∧
    (s.lampReady).exposureHead = s.exposureHead ∧
    (s.lampReady).proofHead = s.proofHead ∧
    (s.lampReady).engine = s.engine ∧
    (s.lampReady).languages = s.languages ∧
    (s.lampReady).dict = s.dict ∧
    (s.lampReady).lamp.index = s.lamp.index ∧
    (s.lampReady).lamp.invalid = s.lamp.invalid ∧
    (s.lampReady).lamp.weakLimit = s.lamp.weakLimit ∧
    (s.lampReady).lamp.failLimit = s.lamp.failLimit ∧
    (s.lampReady).lamp.economyTimeout = s.lamp.economyTimeout ∧
    (s.lampReady).film = s.film ∧
    (s.lampReady).freeCount = s.freeCount ∧
    (s.lampReady).pending = s.pending := by
  simp [State.lampReady]

@[simp] theorem setLampEffect_keeps (s : State) (w f t : Nat) :
    ((setLampEffect w f t s).1).link.mask = s.link.mask ∧
    ((setLampEffect w f t s).1).link.throttleMs = s.link.throttleMs ∧
    ((setLampEffect w f t s).1).link.delayMs = s.link.delayMs ∧
    ((setLampEffect w f t s).1).link.limitMs = s.link.limitMs ∧
    ((setLampEffect w f t s).1).link.throttle = s.link.throttle ∧
    ((setLampEffect w f t s).1).link.delayTimer = s.link.delayTimer ∧
    ((setLampEffect w f t s).1).link.absTimer = s.link.absTimer ∧
    ((setLampEffect w f t s).1).link.cause = s.link.cause ∧
    ((setLampEffect w f t s).1).link.replies = s.link.replies ∧
    ((setLampEffect w f t s).1).link.direction = s.link.direction ∧
    ((setLampEffect w f t s).1).link.frameBegun = s.link.frameBegun ∧
    ((setLampEffect w f t s).1).link.discarding = s.link.discarding ∧
    ((setLampEffect w f t s).1).link.withheld = s.link.withheld ∧
    ((setLampEffect w f t s).1).jobs = s.jobs ∧
    ((setLampEffect w f t s).1).galleyOrder = s.galleyOrder ∧
    ((setLampEffect w f t s).1).house = s.house ∧
    ((setLampEffect w f t s).1).houseLocked = s.houseLocked ∧
    ((setLampEffect w f t s).1).galleyGap = s.galleyGap ∧
    ((setLampEffect w f t s).1).exposureHead = s.exposureHead ∧
    ((setLampEffect w f t s).1).proofHead = s.proofHead ∧
    ((setLampEffect w f t s).1).engine = s.engine ∧
    ((setLampEffect w f t s).1).languages = s.languages ∧
    ((setLampEffect w f t s).1).dict = s.dict ∧
    ((setLampEffect w f t s).1).lamp.index = s.lamp.index ∧
    ((setLampEffect w f t s).1).lamp.invalid = s.lamp.invalid ∧
    ((setLampEffect w f t s).1).film = s.film ∧
    ((setLampEffect w f t s).1).freeCount = s.freeCount ∧
    ((setLampEffect w f t s).1).pending = s.pending := by
  simp only [setLampEffect]
  (repeat' split) <;> simp [refuse, done]

@[simp] theorem takeSample_keeps (s : State) (x : Nat) :
    (s.takeSample x).link.mask = s.link.mask ∧
    (s.takeSample x).link.throttleMs = s.link.throttleMs ∧
    (s.takeSample x).link.delayMs = s.link.delayMs ∧
    (s.takeSample x).link.limitMs = s.link.limitMs ∧
    (s.takeSample x).link.throttle = s.link.throttle ∧
    (s.takeSample x).link.delayTimer = s.link.delayTimer ∧
    (s.takeSample x).link.absTimer = s.link.absTimer ∧
    (s.takeSample x).link.cause = s.link.cause ∧
    (s.takeSample x).link.replies = s.link.replies ∧
    (s.takeSample x).link.direction = s.link.direction ∧
    (s.takeSample x).link.frameBegun = s.link.frameBegun ∧
    (s.takeSample x).link.discarding = s.link.discarding ∧
    (s.takeSample x).link.withheld = s.link.withheld ∧
    (s.takeSample x).jobs = s.jobs ∧
    (s.takeSample x).galleyOrder = s.galleyOrder ∧
    (s.takeSample x).house = s.house ∧
    (s.takeSample x).houseLocked = s.houseLocked ∧
    (s.takeSample x).galleyGap = s.galleyGap ∧
    (s.takeSample x).exposureHead = s.exposureHead ∧
    (s.takeSample x).proofHead = s.proofHead ∧
    (s.takeSample x).engine = s.engine ∧
    (s.takeSample x).languages = s.languages ∧
    (s.takeSample x).dict = s.dict ∧
    (s.takeSample x).lamp.weakLimit = s.lamp.weakLimit ∧
    (s.takeSample x).lamp.failLimit = s.lamp.failLimit ∧
    (s.takeSample x).lamp.economyTimeout = s.lamp.economyTimeout ∧
    (s.takeSample x).film = s.film ∧
    (s.takeSample x).freeCount = s.freeCount ∧
    (s.takeSample x).pending = s.pending := by
  simp only [State.takeSample]
  (repeat' split) <;> simp

@[simp] theorem photocellSampleEffect_keeps (s : State) (x : Nat) :
    (photocellSampleEffect x s).link.mask = s.link.mask ∧
    (photocellSampleEffect x s).link.throttleMs = s.link.throttleMs ∧
    (photocellSampleEffect x s).link.delayMs = s.link.delayMs ∧
    (photocellSampleEffect x s).link.limitMs = s.link.limitMs ∧
    (photocellSampleEffect x s).link.throttle = s.link.throttle ∧
    (photocellSampleEffect x s).link.delayTimer = s.link.delayTimer ∧
    (photocellSampleEffect x s).link.absTimer = s.link.absTimer ∧
    (photocellSampleEffect x s).link.cause = s.link.cause ∧
    (photocellSampleEffect x s).link.replies = s.link.replies ∧
    (photocellSampleEffect x s).link.direction = s.link.direction ∧
    (photocellSampleEffect x s).link.frameBegun = s.link.frameBegun ∧
    (photocellSampleEffect x s).link.discarding = s.link.discarding ∧
    (photocellSampleEffect x s).link.withheld = s.link.withheld ∧
    (photocellSampleEffect x s).jobs = s.jobs ∧
    (photocellSampleEffect x s).galleyOrder = s.galleyOrder ∧
    (photocellSampleEffect x s).house = s.house ∧
    (photocellSampleEffect x s).houseLocked = s.houseLocked ∧
    (photocellSampleEffect x s).galleyGap = s.galleyGap ∧
    (photocellSampleEffect x s).exposureHead = s.exposureHead ∧
    (photocellSampleEffect x s).proofHead = s.proofHead ∧
    (photocellSampleEffect x s).engine = s.engine ∧
    (photocellSampleEffect x s).languages = s.languages ∧
    (photocellSampleEffect x s).dict = s.dict ∧
    (photocellSampleEffect x s).lamp.weakLimit = s.lamp.weakLimit ∧
    (photocellSampleEffect x s).lamp.failLimit = s.lamp.failLimit ∧
    (photocellSampleEffect x s).lamp.economyTimeout = s.lamp.economyTimeout ∧
    (photocellSampleEffect x s).film = s.film ∧
    (photocellSampleEffect x s).freeCount = s.freeCount ∧
    (photocellSampleEffect x s).pending = s.pending := by
  simp [photocellSampleEffect]

@[simp] theorem ignitionExpiryEffect_keeps (s : State)  :
    (ignitionExpiryEffect s).link.mask = s.link.mask ∧
    (ignitionExpiryEffect s).link.throttleMs = s.link.throttleMs ∧
    (ignitionExpiryEffect s).link.delayMs = s.link.delayMs ∧
    (ignitionExpiryEffect s).link.limitMs = s.link.limitMs ∧
    (ignitionExpiryEffect s).link.throttle = s.link.throttle ∧
    (ignitionExpiryEffect s).link.delayTimer = s.link.delayTimer ∧
    (ignitionExpiryEffect s).link.absTimer = s.link.absTimer ∧
    (ignitionExpiryEffect s).link.cause = s.link.cause ∧
    (ignitionExpiryEffect s).link.replies = s.link.replies ∧
    (ignitionExpiryEffect s).link.direction = s.link.direction ∧
    (ignitionExpiryEffect s).link.frameBegun = s.link.frameBegun ∧
    (ignitionExpiryEffect s).link.discarding = s.link.discarding ∧
    (ignitionExpiryEffect s).link.withheld = s.link.withheld ∧
    (ignitionExpiryEffect s).jobs = s.jobs ∧
    (ignitionExpiryEffect s).galleyOrder = s.galleyOrder ∧
    (ignitionExpiryEffect s).house = s.house ∧
    (ignitionExpiryEffect s).houseLocked = s.houseLocked ∧
    (ignitionExpiryEffect s).galleyGap = s.galleyGap ∧
    (ignitionExpiryEffect s).exposureHead = s.exposureHead ∧
    (ignitionExpiryEffect s).proofHead = s.proofHead ∧
    (ignitionExpiryEffect s).engine = s.engine ∧
    (ignitionExpiryEffect s).languages = s.languages ∧
    (ignitionExpiryEffect s).dict = s.dict ∧
    (ignitionExpiryEffect s).lamp.index = s.lamp.index ∧
    (ignitionExpiryEffect s).lamp.invalid = s.lamp.invalid ∧
    (ignitionExpiryEffect s).lamp.weakLimit = s.lamp.weakLimit ∧
    (ignitionExpiryEffect s).lamp.failLimit = s.lamp.failLimit ∧
    (ignitionExpiryEffect s).lamp.economyTimeout = s.lamp.economyTimeout ∧
    (ignitionExpiryEffect s).film = s.film ∧
    (ignitionExpiryEffect s).freeCount = s.freeCount ∧
    (ignitionExpiryEffect s).pending = s.pending := by
  simp only [ignitionExpiryEffect]
  (repeat' split) <;> simp

@[simp] theorem economyExpiryEffect_keeps (s : State)  :
    (economyExpiryEffect s).link = s.link ∧
    (economyExpiryEffect s).fonts = s.fonts ∧
    (economyExpiryEffect s).turret = s.turret ∧
    (economyExpiryEffect s).jobs = s.jobs ∧
    (economyExpiryEffect s).galleyOrder = s.galleyOrder ∧
    (economyExpiryEffect s).house = s.house ∧
    (economyExpiryEffect s).houseLocked = s.houseLocked ∧
    (economyExpiryEffect s).galleyGap = s.galleyGap ∧
    (economyExpiryEffect s).exposureHead = s.exposureHead ∧
    (economyExpiryEffect s).proofHead = s.proofHead ∧
    (economyExpiryEffect s).engine = s.engine ∧
    (economyExpiryEffect s).languages = s.languages ∧
    (economyExpiryEffect s).dict = s.dict ∧
    (economyExpiryEffect s).queue = s.queue ∧
    (economyExpiryEffect s).expo = s.expo ∧
    (economyExpiryEffect s).lamp.index = s.lamp.index ∧
    (economyExpiryEffect s).lamp.weak = s.lamp.weak ∧
    (economyExpiryEffect s).lamp.invalid = s.lamp.invalid ∧
    (economyExpiryEffect s).lamp.weakLimit = s.lamp.weakLimit ∧
    (economyExpiryEffect s).lamp.failLimit = s.lamp.failLimit ∧
    (economyExpiryEffect s).lamp.economyTimeout = s.lamp.economyTimeout ∧
    (economyExpiryEffect s).lamp.ignitionTimer = s.lamp.ignitionTimer ∧
    (economyExpiryEffect s).lamp.recoveryTimer = s.lamp.recoveryTimer ∧
    (economyExpiryEffect s).lamp.validityTimer = s.lamp.validityTimer ∧
    (economyExpiryEffect s).film = s.film ∧
    (economyExpiryEffect s).proof = s.proof ∧
    (economyExpiryEffect s).freeCount = s.freeCount ∧
    (economyExpiryEffect s).pending = s.pending := by
  simp only [economyExpiryEffect]
  (repeat' split) <;> simp

@[simp] theorem recoveryExpiryEffect_keeps (s : State)  :
    (recoveryExpiryEffect s).link.mask = s.link.mask ∧
    (recoveryExpiryEffect s).link.throttleMs = s.link.throttleMs ∧
    (recoveryExpiryEffect s).link.delayMs = s.link.delayMs ∧
    (recoveryExpiryEffect s).link.limitMs = s.link.limitMs ∧
    (recoveryExpiryEffect s).link.throttle = s.link.throttle ∧
    (recoveryExpiryEffect s).link.delayTimer = s.link.delayTimer ∧
    (recoveryExpiryEffect s).link.absTimer = s.link.absTimer ∧
    (recoveryExpiryEffect s).link.cause = s.link.cause ∧
    (recoveryExpiryEffect s).link.replies = s.link.replies ∧
    (recoveryExpiryEffect s).link.direction = s.link.direction ∧
    (recoveryExpiryEffect s).link.frameBegun = s.link.frameBegun ∧
    (recoveryExpiryEffect s).link.discarding = s.link.discarding ∧
    (recoveryExpiryEffect s).link.withheld = s.link.withheld ∧
    (recoveryExpiryEffect s).jobs = s.jobs ∧
    (recoveryExpiryEffect s).galleyOrder = s.galleyOrder ∧
    (recoveryExpiryEffect s).house = s.house ∧
    (recoveryExpiryEffect s).houseLocked = s.houseLocked ∧
    (recoveryExpiryEffect s).galleyGap = s.galleyGap ∧
    (recoveryExpiryEffect s).exposureHead = s.exposureHead ∧
    (recoveryExpiryEffect s).proofHead = s.proofHead ∧
    (recoveryExpiryEffect s).engine = s.engine ∧
    (recoveryExpiryEffect s).languages = s.languages ∧
    (recoveryExpiryEffect s).dict = s.dict ∧
    (recoveryExpiryEffect s).lamp.index = s.lamp.index ∧
    (recoveryExpiryEffect s).lamp.invalid = s.lamp.invalid ∧
    (recoveryExpiryEffect s).lamp.weakLimit = s.lamp.weakLimit ∧
    (recoveryExpiryEffect s).lamp.failLimit = s.lamp.failLimit ∧
    (recoveryExpiryEffect s).lamp.economyTimeout = s.lamp.economyTimeout ∧
    (recoveryExpiryEffect s).film = s.film ∧
    (recoveryExpiryEffect s).freeCount = s.freeCount ∧
    (recoveryExpiryEffect s).pending = s.pending := by
  simp only [recoveryExpiryEffect]
  (repeat' split) <;> simp

@[simp] theorem validityExpiryEffect_keeps (s : State)  :
    (validityExpiryEffect s).link.mask = s.link.mask ∧
    (validityExpiryEffect s).link.throttleMs = s.link.throttleMs ∧
    (validityExpiryEffect s).link.delayMs = s.link.delayMs ∧
    (validityExpiryEffect s).link.limitMs = s.link.limitMs ∧
    (validityExpiryEffect s).link.throttle = s.link.throttle ∧
    (validityExpiryEffect s).link.delayTimer = s.link.delayTimer ∧
    (validityExpiryEffect s).link.absTimer = s.link.absTimer ∧
    (validityExpiryEffect s).link.cause = s.link.cause ∧
    (validityExpiryEffect s).link.replies = s.link.replies ∧
    (validityExpiryEffect s).link.direction = s.link.direction ∧
    (validityExpiryEffect s).link.frameBegun = s.link.frameBegun ∧
    (validityExpiryEffect s).link.discarding = s.link.discarding ∧
    (validityExpiryEffect s).link.withheld = s.link.withheld ∧
    (validityExpiryEffect s).jobs = s.jobs ∧
    (validityExpiryEffect s).galleyOrder = s.galleyOrder ∧
    (validityExpiryEffect s).house = s.house ∧
    (validityExpiryEffect s).houseLocked = s.houseLocked ∧
    (validityExpiryEffect s).galleyGap = s.galleyGap ∧
    (validityExpiryEffect s).exposureHead = s.exposureHead ∧
    (validityExpiryEffect s).proofHead = s.proofHead ∧
    (validityExpiryEffect s).engine = s.engine ∧
    (validityExpiryEffect s).languages = s.languages ∧
    (validityExpiryEffect s).dict = s.dict ∧
    (validityExpiryEffect s).lamp.index = s.lamp.index ∧
    (validityExpiryEffect s).lamp.weak = s.lamp.weak ∧
    (validityExpiryEffect s).lamp.invalid = s.lamp.invalid ∧
    (validityExpiryEffect s).lamp.weakLimit = s.lamp.weakLimit ∧
    (validityExpiryEffect s).lamp.failLimit = s.lamp.failLimit ∧
    (validityExpiryEffect s).lamp.economyTimeout = s.lamp.economyTimeout ∧
    (validityExpiryEffect s).film = s.film ∧
    (validityExpiryEffect s).freeCount = s.freeCount ∧
    (validityExpiryEffect s).pending = s.pending := by
  simp only [validityExpiryEffect]
  (repeat' split) <;> simp

@[simp] theorem carriageArrivalEffect_keeps (s : State)  :
    (carriageArrivalEffect s).link = s.link ∧
    (carriageArrivalEffect s).fonts = s.fonts ∧
    (carriageArrivalEffect s).turret = s.turret ∧
    (carriageArrivalEffect s).jobs = s.jobs ∧
    (carriageArrivalEffect s).galleyOrder = s.galleyOrder ∧
    (carriageArrivalEffect s).house = s.house ∧
    (carriageArrivalEffect s).houseLocked = s.houseLocked ∧
    (carriageArrivalEffect s).galleyGap = s.galleyGap ∧
    (carriageArrivalEffect s).exposureHead = s.exposureHead ∧
    (carriageArrivalEffect s).proofHead = s.proofHead ∧
    (carriageArrivalEffect s).engine = s.engine ∧
    (carriageArrivalEffect s).languages = s.languages ∧
    (carriageArrivalEffect s).dict = s.dict ∧
    (carriageArrivalEffect s).queue = s.queue ∧
    (carriageArrivalEffect s).expo.state = s.expo.state ∧
    (carriageArrivalEffect s).expo.stops = s.expo.stops ∧
    (carriageArrivalEffect s).expo.holdRequest = s.expo.holdRequest ∧
    (carriageArrivalEffect s).expo.flight = s.expo.flight ∧
    (carriageArrivalEffect s).expo.named = s.expo.named ∧
    (carriageArrivalEffect s).expo.lastExposed = s.expo.lastExposed ∧
    (carriageArrivalEffect s).expo.linesExposed = s.expo.linesExposed ∧
    (carriageArrivalEffect s).expo.linesSpoiled = s.expo.linesSpoiled ∧
    (carriageArrivalEffect s).expo.lens = s.expo.lens ∧
    (carriageArrivalEffect s).expo.lensTarget = s.expo.lensTarget ∧
    (carriageArrivalEffect s).lamp = s.lamp ∧
    (carriageArrivalEffect s).film = s.film ∧
    (carriageArrivalEffect s).proof = s.proof ∧
    (carriageArrivalEffect s).freeCount = s.freeCount ∧
    (carriageArrivalEffect s).pending = s.pending := by
  simp only [carriageArrivalEffect]
  (repeat' split) <;> simp

@[simp] theorem lensArrivalEffect_keeps (s : State)  :
    (lensArrivalEffect s).link = s.link ∧
    (lensArrivalEffect s).fonts = s.fonts ∧
    (lensArrivalEffect s).turret = s.turret ∧
    (lensArrivalEffect s).jobs = s.jobs ∧
    (lensArrivalEffect s).galleyOrder = s.galleyOrder ∧
    (lensArrivalEffect s).house = s.house ∧
    (lensArrivalEffect s).houseLocked = s.houseLocked ∧
    (lensArrivalEffect s).galleyGap = s.galleyGap ∧
    (lensArrivalEffect s).exposureHead = s.exposureHead ∧
    (lensArrivalEffect s).proofHead = s.proofHead ∧
    (lensArrivalEffect s).engine = s.engine ∧
    (lensArrivalEffect s).languages = s.languages ∧
    (lensArrivalEffect s).dict = s.dict ∧
    (lensArrivalEffect s).queue = s.queue ∧
    (lensArrivalEffect s).expo.state = s.expo.state ∧
    (lensArrivalEffect s).expo.stops = s.expo.stops ∧
    (lensArrivalEffect s).expo.holdRequest = s.expo.holdRequest ∧
    (lensArrivalEffect s).expo.flight = s.expo.flight ∧
    (lensArrivalEffect s).expo.named = s.expo.named ∧
    (lensArrivalEffect s).expo.lastExposed = s.expo.lastExposed ∧
    (lensArrivalEffect s).expo.linesExposed = s.expo.linesExposed ∧
    (lensArrivalEffect s).expo.linesSpoiled = s.expo.linesSpoiled ∧
    (lensArrivalEffect s).expo.carriage = s.expo.carriage ∧
    (lensArrivalEffect s).expo.carriageTarget = s.expo.carriageTarget ∧
    (lensArrivalEffect s).expo.flashing = s.expo.flashing ∧
    (lensArrivalEffect s).expo.lastDuration = s.expo.lastDuration ∧
    (lensArrivalEffect s).expo.lastClamped = s.expo.lastClamped ∧
    (lensArrivalEffect s).lamp = s.lamp ∧
    (lensArrivalEffect s).film = s.film ∧
    (lensArrivalEffect s).proof = s.proof ∧
    (lensArrivalEffect s).freeCount = s.freeCount ∧
    (lensArrivalEffect s).pending = s.pending := by
  simp only [lensArrivalEffect]
  (repeat' split) <;> simp

@[simp] theorem nextGlyph_keeps (s : State) (fl : Flight) :
    (s.nextGlyph fl).link.mask = s.link.mask ∧
    (s.nextGlyph fl).link.throttleMs = s.link.throttleMs ∧
    (s.nextGlyph fl).link.delayMs = s.link.delayMs ∧
    (s.nextGlyph fl).link.limitMs = s.link.limitMs ∧
    (s.nextGlyph fl).link.throttle = s.link.throttle ∧
    (s.nextGlyph fl).link.cause = s.link.cause ∧
    (s.nextGlyph fl).link.replies = s.link.replies ∧
    (s.nextGlyph fl).link.direction = s.link.direction ∧
    (s.nextGlyph fl).link.frameBegun = s.link.frameBegun ∧
    (s.nextGlyph fl).link.discarding = s.link.discarding ∧
    (s.nextGlyph fl).link.withheld = s.link.withheld ∧
    (s.nextGlyph fl).jobs = s.jobs ∧
    (s.nextGlyph fl).galleyOrder = s.galleyOrder ∧
    (s.nextGlyph fl).house = s.house ∧
    (s.nextGlyph fl).houseLocked = s.houseLocked ∧
    (s.nextGlyph fl).galleyGap = s.galleyGap ∧
    (s.nextGlyph fl).exposureHead = s.exposureHead ∧
    (s.nextGlyph fl).proofHead = s.proofHead ∧
    (s.nextGlyph fl).engine = s.engine ∧
    (s.nextGlyph fl).languages = s.languages ∧
    (s.nextGlyph fl).dict = s.dict ∧
    (s.nextGlyph fl).expo.stops = s.expo.stops ∧
    (s.nextGlyph fl).expo.named = s.expo.named ∧
    (s.nextGlyph fl).expo.linesSpoiled = s.expo.linesSpoiled ∧
    (s.nextGlyph fl).expo.lens = s.expo.lens ∧
    (s.nextGlyph fl).expo.flashing = s.expo.flashing ∧
    (s.nextGlyph fl).expo.lastDuration = s.expo.lastDuration ∧
    (s.nextGlyph fl).expo.lastClamped = s.expo.lastClamped ∧
    (s.nextGlyph fl).lamp = s.lamp ∧
    (s.nextGlyph fl).film = s.film ∧
    (s.nextGlyph fl).freeCount = s.freeCount ∧
    (s.nextGlyph fl).pending = s.pending := by
  simp only [State.nextGlyph]
  (repeat' split) <;> simp

@[simp] theorem flashCompleteEffect_keeps (s : State) (x : Nat) :
    (flashCompleteEffect x s).link.mask = s.link.mask ∧
    (flashCompleteEffect x s).link.throttleMs = s.link.throttleMs ∧
    (flashCompleteEffect x s).link.delayMs = s.link.delayMs ∧
    (flashCompleteEffect x s).link.limitMs = s.link.limitMs ∧
    (flashCompleteEffect x s).link.throttle = s.link.throttle ∧
    (flashCompleteEffect x s).link.cause = s.link.cause ∧
    (flashCompleteEffect x s).link.replies = s.link.replies ∧
    (flashCompleteEffect x s).link.direction = s.link.direction ∧
    (flashCompleteEffect x s).link.frameBegun = s.link.frameBegun ∧
    (flashCompleteEffect x s).link.discarding = s.link.discarding ∧
    (flashCompleteEffect x s).link.withheld = s.link.withheld ∧
    (flashCompleteEffect x s).jobs = s.jobs ∧
    (flashCompleteEffect x s).galleyOrder = s.galleyOrder ∧
    (flashCompleteEffect x s).house = s.house ∧
    (flashCompleteEffect x s).houseLocked = s.houseLocked ∧
    (flashCompleteEffect x s).galleyGap = s.galleyGap ∧
    (flashCompleteEffect x s).exposureHead = s.exposureHead ∧
    (flashCompleteEffect x s).proofHead = s.proofHead ∧
    (flashCompleteEffect x s).engine = s.engine ∧
    (flashCompleteEffect x s).languages = s.languages ∧
    (flashCompleteEffect x s).dict = s.dict ∧
    (flashCompleteEffect x s).lamp.weakLimit = s.lamp.weakLimit ∧
    (flashCompleteEffect x s).lamp.failLimit = s.lamp.failLimit ∧
    (flashCompleteEffect x s).lamp.economyTimeout = s.lamp.economyTimeout ∧
    (flashCompleteEffect x s).film = s.film ∧
    (flashCompleteEffect x s).freeCount = s.freeCount ∧
    (flashCompleteEffect x s).pending = s.pending := by
  simp only [flashCompleteEffect]
  (repeat' split) <;> simp

@[simp] theorem restatus_keeps (s : State) (n : Nat) :
    (s.restatus n).link.mask = s.link.mask ∧
    (s.restatus n).link.throttleMs = s.link.throttleMs ∧
    (s.restatus n).link.delayMs = s.link.delayMs ∧
    (s.restatus n).link.limitMs = s.link.limitMs ∧
    (s.restatus n).link.throttle = s.link.throttle ∧
    (s.restatus n).link.delayTimer = s.link.delayTimer ∧
    (s.restatus n).link.absTimer = s.link.absTimer ∧
    (s.restatus n).link.cause = s.link.cause ∧
    (s.restatus n).link.replies = s.link.replies ∧
    (s.restatus n).link.direction = s.link.direction ∧
    (s.restatus n).link.frameBegun = s.link.frameBegun ∧
    (s.restatus n).link.discarding = s.link.discarding ∧
    (s.restatus n).link.withheld = s.link.withheld ∧
    (s.restatus n).fonts = s.fonts ∧
    (s.restatus n).turret = s.turret ∧
    (s.restatus n).jobs.length = s.jobs.length ∧
    (s.restatus n).galleyOrder = s.galleyOrder ∧
    (s.restatus n).house = s.house ∧
    (s.restatus n).houseLocked = s.houseLocked ∧
    (s.restatus n).galleyGap = s.galleyGap ∧
    (s.restatus n).exposureHead = s.exposureHead ∧
    (s.restatus n).proofHead = s.proofHead ∧
    (s.restatus n).engine = s.engine ∧
    (s.restatus n).languages = s.languages ∧
    (s.restatus n).dict = s.dict ∧
    (s.restatus n).queue = s.queue ∧
    (s.restatus n).expo = s.expo ∧
    (s.restatus n).lamp = s.lamp ∧
    (s.restatus n).film = s.film ∧
    (s.restatus n).proof = s.proof ∧
    (s.restatus n).freeCount = s.freeCount ∧
    (s.restatus n).pending = s.pending := by
  simp only [State.restatus]
  (repeat' split) <;> simp

@[simp] theorem finishComposition_keeps (s : State) (n : Nat) :
    (s.finishComposition n).link = s.link ∧
    (s.finishComposition n).fonts = s.fonts ∧
    (s.finishComposition n).turret = s.turret ∧
    (s.finishComposition n).jobs.length = s.jobs.length ∧
    (s.finishComposition n).galleyOrder = s.galleyOrder ∧
    (s.finishComposition n).house = s.house ∧
    (s.finishComposition n).houseLocked = s.houseLocked ∧
    (s.finishComposition n).galleyGap = s.galleyGap ∧
    (s.finishComposition n).exposureHead = s.exposureHead ∧
    (s.finishComposition n).proofHead = s.proofHead ∧
    (s.finishComposition n).engine = s.engine ∧
    (s.finishComposition n).languages = s.languages ∧
    (s.finishComposition n).dict = s.dict ∧
    (s.finishComposition n).queue = s.queue ∧
    (s.finishComposition n).expo = s.expo ∧
    (s.finishComposition n).lamp = s.lamp ∧
    (s.finishComposition n).film = s.film ∧
    (s.finishComposition n).proof = s.proof ∧
    (s.finishComposition n).freeCount = s.freeCount ∧
    (s.finishComposition n).pending = s.pending := by
  simp only [State.finishComposition]
  (repeat' split) <;> simp

@[simp] theorem endTurn_keeps (s : State) (n : Nat) :
    (s.endTurn n).link.mask = s.link.mask ∧
    (s.endTurn n).link.throttleMs = s.link.throttleMs ∧
    (s.endTurn n).link.delayMs = s.link.delayMs ∧
    (s.endTurn n).link.limitMs = s.link.limitMs ∧
    (s.endTurn n).link.throttle = s.link.throttle ∧
    (s.endTurn n).link.delayTimer = s.link.delayTimer ∧
    (s.endTurn n).link.absTimer = s.link.absTimer ∧
    (s.endTurn n).link.cause = s.link.cause ∧
    (s.endTurn n).link.replies = s.link.replies ∧
    (s.endTurn n).link.direction = s.link.direction ∧
    (s.endTurn n).link.frameBegun = s.link.frameBegun ∧
    (s.endTurn n).link.discarding = s.link.discarding ∧
    (s.endTurn n).link.withheld = s.link.withheld ∧
    (s.endTurn n).fonts = s.fonts ∧
    (s.endTurn n).turret = s.turret ∧
    (s.endTurn n).jobs.length = s.jobs.length ∧
    (s.endTurn n).galleyOrder = s.galleyOrder ∧
    (s.endTurn n).house = s.house ∧
    (s.endTurn n).houseLocked = s.houseLocked ∧
    (s.endTurn n).galleyGap = s.galleyGap ∧
    (s.endTurn n).exposureHead = s.exposureHead ∧
    (s.endTurn n).proofHead = s.proofHead ∧
    (s.endTurn n).languages = s.languages ∧
    (s.endTurn n).dict = s.dict ∧
    (s.endTurn n).queue = s.queue ∧
    (s.endTurn n).expo = s.expo ∧
    (s.endTurn n).lamp = s.lamp ∧
    (s.endTurn n).film = s.film ∧
    (s.endTurn n).proof = s.proof ∧
    (s.endTurn n).freeCount = s.freeCount ∧
    (s.endTurn n).pending = s.pending := by
  simp [State.endTurn]

@[simp] theorem sendTextEffect_keeps (s : State) (n : Nat) (t : List Byte) :
    ((sendTextEffect n t s).1).link.mask = s.link.mask ∧
    ((sendTextEffect n t s).1).link.throttleMs = s.link.throttleMs ∧
    ((sendTextEffect n t s).1).link.delayMs = s.link.delayMs ∧
    ((sendTextEffect n t s).1).link.limitMs = s.link.limitMs ∧
    ((sendTextEffect n t s).1).link.throttle = s.link.throttle ∧
    ((sendTextEffect n t s).1).link.delayTimer = s.link.delayTimer ∧
    ((sendTextEffect n t s).1).link.absTimer = s.link.absTimer ∧
    ((sendTextEffect n t s).1).link.cause = s.link.cause ∧
    ((sendTextEffect n t s).1).link.replies = s.link.replies ∧
    ((sendTextEffect n t s).1).link.direction = s.link.direction ∧
    ((sendTextEffect n t s).1).link.frameBegun = s.link.frameBegun ∧
    ((sendTextEffect n t s).1).link.discarding = s.link.discarding ∧
    ((sendTextEffect n t s).1).link.withheld = s.link.withheld ∧
    ((sendTextEffect n t s).1).fonts = s.fonts ∧
    ((sendTextEffect n t s).1).turret = s.turret ∧
    ((sendTextEffect n t s).1).jobs.length = s.jobs.length ∧
    ((sendTextEffect n t s).1).galleyOrder = s.galleyOrder ∧
    ((sendTextEffect n t s).1).house = s.house ∧
    ((sendTextEffect n t s).1).houseLocked = s.houseLocked ∧
    ((sendTextEffect n t s).1).galleyGap = s.galleyGap ∧
    ((sendTextEffect n t s).1).exposureHead = s.exposureHead ∧
    ((sendTextEffect n t s).1).proofHead = s.proofHead ∧
    ((sendTextEffect n t s).1).engine = s.engine ∧
    ((sendTextEffect n t s).1).languages = s.languages ∧
    ((sendTextEffect n t s).1).dict = s.dict ∧
    ((sendTextEffect n t s).1).queue = s.queue ∧
    ((sendTextEffect n t s).1).expo = s.expo ∧
    ((sendTextEffect n t s).1).lamp = s.lamp ∧
    ((sendTextEffect n t s).1).film = s.film ∧
    ((sendTextEffect n t s).1).proof = s.proof ∧
    ((sendTextEffect n t s).1).freeCount = s.freeCount ∧
    ((sendTextEffect n t s).1).pending = s.pending := by
  simp only [sendTextEffect]
  (repeat' split) <;> simp [refuse, done]

@[simp] theorem closeJobEffect_keeps (s : State) (n i : Nat) :
    ((closeJobEffect n i s).1).link.mask = s.link.mask ∧
    ((closeJobEffect n i s).1).link.throttleMs = s.link.throttleMs ∧
    ((closeJobEffect n i s).1).link.delayMs = s.link.delayMs ∧
    ((closeJobEffect n i s).1).link.limitMs = s.link.limitMs ∧
    ((closeJobEffect n i s).1).link.throttle = s.link.throttle ∧
    ((closeJobEffect n i s).1).link.delayTimer = s.link.delayTimer ∧
    ((closeJobEffect n i s).1).link.absTimer = s.link.absTimer ∧
    ((closeJobEffect n i s).1).link.cause = s.link.cause ∧
    ((closeJobEffect n i s).1).link.replies = s.link.replies ∧
    ((closeJobEffect n i s).1).link.direction = s.link.direction ∧
    ((closeJobEffect n i s).1).link.frameBegun = s.link.frameBegun ∧
    ((closeJobEffect n i s).1).link.discarding = s.link.discarding ∧
    ((closeJobEffect n i s).1).link.withheld = s.link.withheld ∧
    ((closeJobEffect n i s).1).fonts = s.fonts ∧
    ((closeJobEffect n i s).1).turret = s.turret ∧
    ((closeJobEffect n i s).1).jobs.length = s.jobs.length ∧
    ((closeJobEffect n i s).1).galleyOrder = s.galleyOrder ∧
    ((closeJobEffect n i s).1).house = s.house ∧
    ((closeJobEffect n i s).1).houseLocked = s.houseLocked ∧
    ((closeJobEffect n i s).1).galleyGap = s.galleyGap ∧
    ((closeJobEffect n i s).1).exposureHead = s.exposureHead ∧
    ((closeJobEffect n i s).1).proofHead = s.proofHead ∧
    ((closeJobEffect n i s).1).engine = s.engine ∧
    ((closeJobEffect n i s).1).languages = s.languages ∧
    ((closeJobEffect n i s).1).dict = s.dict ∧
    ((closeJobEffect n i s).1).queue = s.queue ∧
    ((closeJobEffect n i s).1).expo = s.expo ∧
    ((closeJobEffect n i s).1).lamp = s.lamp ∧
    ((closeJobEffect n i s).1).film = s.film ∧
    ((closeJobEffect n i s).1).proof = s.proof ∧
    ((closeJobEffect n i s).1).freeCount = s.freeCount ∧
    ((closeJobEffect n i s).1).pending = s.pending := by
  simp only [closeJobEffect]
  (repeat' split) <;> simp [refuse, done]

@[simp] theorem offerMark_keeps (s : State) (n : Nat) :
    (s.offerMark n).link.mask = s.link.mask ∧
    (s.offerMark n).link.throttleMs = s.link.throttleMs ∧
    (s.offerMark n).link.delayMs = s.link.delayMs ∧
    (s.offerMark n).link.limitMs = s.link.limitMs ∧
    (s.offerMark n).link.throttle = s.link.throttle ∧
    (s.offerMark n).link.delayTimer = s.link.delayTimer ∧
    (s.offerMark n).link.absTimer = s.link.absTimer ∧
    (s.offerMark n).link.cause = s.link.cause ∧
    (s.offerMark n).link.replies = s.link.replies ∧
    (s.offerMark n).link.direction = s.link.direction ∧
    (s.offerMark n).link.frameBegun = s.link.frameBegun ∧
    (s.offerMark n).link.discarding = s.link.discarding ∧
    (s.offerMark n).link.withheld = s.link.withheld ∧
    (s.offerMark n).turret.position = s.turret.position ∧
    (s.offerMark n).turret.motion = s.turret.motion ∧
    (s.offerMark n).turret.pass = s.turret.pass ∧
    (s.offerMark n).turret.latchEngaged = s.turret.latchEngaged ∧
    (s.offerMark n).turret.hatchOpen = s.turret.hatchOpen ∧
    (s.offerMark n).turret.hatchMark = s.turret.hatchMark ∧
    (s.offerMark n).turret.exchange = s.turret.exchange ∧
    (s.offerMark n).turret.cancelPending = s.turret.cancelPending ∧
    (s.offerMark n).turret.read = s.turret.read ∧
    (s.offerMark n).turret.protection = s.turret.protection ∧
    (s.offerMark n).turret.lineOpen = s.turret.lineOpen ∧
    (s.offerMark n).turret.lineEndDue = s.turret.lineEndDue ∧
    (s.offerMark n).turret.stations.length = s.turret.stations.length ∧
    (s.offerMark n).jobs.length = s.jobs.length ∧
    (s.offerMark n).galleyOrder = s.galleyOrder ∧
    (s.offerMark n).house = s.house ∧
    (s.offerMark n).houseLocked = s.houseLocked ∧
    (s.offerMark n).galleyGap = s.galleyGap ∧
    (s.offerMark n).exposureHead = s.exposureHead ∧
    (s.offerMark n).proofHead = s.proofHead ∧
    (s.offerMark n).engine = s.engine ∧
    (s.offerMark n).languages = s.languages ∧
    (s.offerMark n).dict = s.dict ∧
    (s.offerMark n).queue.entryHigh = s.queue.entryHigh ∧
    (s.offerMark n).queue.entryLow = s.queue.entryLow ∧
    (s.offerMark n).queue.glyphHigh = s.queue.glyphHigh ∧
    (s.offerMark n).queue.glyphLow = s.queue.glyphLow ∧
    (s.offerMark n).expo = s.expo ∧
    (s.offerMark n).lamp = s.lamp ∧
    (s.offerMark n).film = s.film ∧
    (s.offerMark n).proof = s.proof ∧
    (s.offerMark n).freeCount = s.freeCount ∧
    (s.offerMark n).pending = s.pending := by
  simp only [State.offerMark]
  (repeat' split) <;> simp

@[simp] theorem cancelAll_keeps (s : State) (l : List Entry) :
    (l.foldl State.cancelEntry s).link = s.link ∧
    (l.foldl State.cancelEntry s).turret.position = s.turret.position ∧
    (l.foldl State.cancelEntry s).turret.motion = s.turret.motion ∧
    (l.foldl State.cancelEntry s).turret.pass = s.turret.pass ∧
    (l.foldl State.cancelEntry s).turret.latchEngaged = s.turret.latchEngaged ∧
    (l.foldl State.cancelEntry s).turret.hatchOpen = s.turret.hatchOpen ∧
    (l.foldl State.cancelEntry s).turret.hatchMark = s.turret.hatchMark ∧
    (l.foldl State.cancelEntry s).turret.exchange = s.turret.exchange ∧
    (l.foldl State.cancelEntry s).turret.cancelPending = s.turret.cancelPending ∧
    (l.foldl State.cancelEntry s).turret.read = s.turret.read ∧
    (l.foldl State.cancelEntry s).turret.protection = s.turret.protection ∧
    (l.foldl State.cancelEntry s).turret.lineOpen = s.turret.lineOpen ∧
    (l.foldl State.cancelEntry s).turret.lineEndDue = s.turret.lineEndDue ∧
    (l.foldl State.cancelEntry s).turret.stations.length = s.turret.stations.length ∧
    (l.foldl State.cancelEntry s).jobs = s.jobs ∧
    (l.foldl State.cancelEntry s).galleyOrder = s.galleyOrder ∧
    (l.foldl State.cancelEntry s).house = s.house ∧
    (l.foldl State.cancelEntry s).houseLocked = s.houseLocked ∧
    (l.foldl State.cancelEntry s).galleyGap = s.galleyGap ∧
    (l.foldl State.cancelEntry s).exposureHead = s.exposureHead ∧
    (l.foldl State.cancelEntry s).proofHead = s.proofHead ∧
    (l.foldl State.cancelEntry s).engine = s.engine ∧
    (l.foldl State.cancelEntry s).languages = s.languages ∧
    (l.foldl State.cancelEntry s).dict = s.dict ∧
    (l.foldl State.cancelEntry s).queue.nextSerial = s.queue.nextSerial ∧
    (l.foldl State.cancelEntry s).queue.entryHigh = s.queue.entryHigh ∧
    (l.foldl State.cancelEntry s).queue.entryLow = s.queue.entryLow ∧
    (l.foldl State.cancelEntry s).queue.glyphHigh = s.queue.glyphHigh ∧
    (l.foldl State.cancelEntry s).queue.glyphLow = s.queue.glyphLow ∧
    (l.foldl State.cancelEntry s).queue.highWater = s.queue.highWater ∧
    (l.foldl State.cancelEntry s).expo = s.expo ∧
    (l.foldl State.cancelEntry s).lamp = s.lamp ∧
    (l.foldl State.cancelEntry s).film = s.film ∧
    (l.foldl State.cancelEntry s).freeCount = s.freeCount ∧
    (l.foldl State.cancelEntry s).pending = s.pending := by
  exact ⟨by exact foldl_keeps (P := fun s : State => s.link) (fun s n => by simp) _ _, by exact foldl_keeps (P := fun s : State => s.turret.position) (fun s n => by simp) _ _, by exact foldl_keeps (P := fun s : State => s.turret.motion) (fun s n => by simp) _ _, by exact foldl_keeps (P := fun s : State => s.turret.pass) (fun s n => by simp) _ _, by exact foldl_keeps (P := fun s : State => s.turret.latchEngaged) (fun s n => by simp) _ _, by exact foldl_keeps (P := fun s : State => s.turret.hatchOpen) (fun s n => by simp) _ _, by exact foldl_keeps (P := fun s : State => s.turret.hatchMark) (fun s n => by simp) _ _, by exact foldl_keeps (P := fun s : State => s.turret.exchange) (fun s n => by simp) _ _, by exact foldl_keeps (P := fun s : State => s.turret.cancelPending) (fun s n => by simp) _ _, by exact foldl_keeps (P := fun s : State => s.turret.read) (fun s n => by simp) _ _, by exact foldl_keeps (P := fun s : State => s.turret.protection) (fun s n => by simp) _ _, by exact foldl_keeps (P := fun s : State => s.turret.lineOpen) (fun s n => by simp) _ _, by exact foldl_keeps (P := fun s : State => s.turret.lineEndDue) (fun s n => by simp) _ _, by exact foldl_keeps (P := fun s : State => s.turret.stations.length) (fun s n => by simp) _ _, by exact foldl_keeps (P := fun s : State => s.jobs) (fun s n => by simp) _ _, by exact foldl_keeps (P := fun s : State => s.galleyOrder) (fun s n => by simp) _ _, by exact foldl_keeps (P := fun s : State => s.house) (fun s n => by simp) _ _, by exact foldl_keeps (P := fun s : State => s.houseLocked) (fun s n => by simp) _ _, by exact foldl_keeps (P := fun s : State => s.galleyGap) (fun s n => by simp) _ _, by exact foldl_keeps (P := fun s : State => s.exposureHead) (fun s n => by simp) _ _, by exact foldl_keeps (P := fun s : State => s.proofHead) (fun s n => by simp) _ _, by exact foldl_keeps (P := fun s : State => s.engine) (fun s n => by simp) _ _, by exact foldl_keeps (P := fun s : State => s.languages) (fun s n => by simp) _ _, by exact foldl_keeps (P := fun s : State => s.dict) (fun s n => by simp) _ _, by exact foldl_keeps (P := fun s : State => s.queue.nextSerial) (fun s n => by simp) _ _, by exact foldl_keeps (P := fun s : State => s.queue.entryHigh) (fun s n => by simp) _ _, by exact foldl_keeps (P := fun s : State => s.queue.entryLow) (fun s n => by simp) _ _, by exact foldl_keeps (P := fun s : State => s.queue.glyphHigh) (fun s n => by simp) _ _, by exact foldl_keeps (P := fun s : State => s.queue.glyphLow) (fun s n => by simp) _ _, by exact foldl_keeps (P := fun s : State => s.queue.highWater) (fun s n => by simp) _ _, by exact foldl_keeps (P := fun s : State => s.expo) (fun s n => by simp) _ _, by exact foldl_keeps (P := fun s : State => s.lamp) (fun s n => by simp) _ _, by exact foldl_keeps (P := fun s : State => s.film) (fun s n => by simp) _ _, by exact foldl_keeps (P := fun s : State => s.freeCount) (fun s n => by simp) _ _, by exact foldl_keeps (P := fun s : State => s.pending) (fun s n => by simp) _ _⟩

@[simp] theorem abortJobEffect_keeps_0 (s : State) (n i : Nat) :
    ((abortJobEffect n i s).1).link.mask = s.link.mask ∧
    ((abortJobEffect n i s).1).link.throttleMs = s.link.throttleMs ∧
    ((abortJobEffect n i s).1).link.delayMs = s.link.delayMs ∧
    ((abortJobEffect n i s).1).link.limitMs = s.link.limitMs ∧
    ((abortJobEffect n i s).1).link.throttle = s.link.throttle ∧
    ((abortJobEffect n i s).1).link.delayTimer = s.link.delayTimer ∧
    ((abortJobEffect n i s).1).link.absTimer = s.link.absTimer ∧
    ((abortJobEffect n i s).1).link.cause = s.link.cause := by
  simp only [abortJobEffect]
  (repeat' split) <;> simp [refuse, done]
@[simp] theorem abortJobEffect_keeps_1 (s : State) (n i : Nat) :
    ((abortJobEffect n i s).1).link.replies = s.link.replies ∧
    ((abortJobEffect n i s).1).link.direction = s.link.direction ∧
    ((abortJobEffect n i s).1).link.frameBegun = s.link.frameBegun ∧
    ((abortJobEffect n i s).1).link.discarding = s.link.discarding ∧
    ((abortJobEffect n i s).1).link.withheld = s.link.withheld ∧
    ((abortJobEffect n i s).1).turret.position = s.turret.position ∧
    ((abortJobEffect n i s).1).turret.motion = s.turret.motion ∧
    ((abortJobEffect n i s).1).turret.pass = s.turret.pass := by
  simp only [abortJobEffect]
  (repeat' split) <;> simp [refuse, done]
@[simp] theorem abortJobEffect_keeps_2 (s : State) (n i : Nat) :
    ((abortJobEffect n i s).1).turret.latchEngaged = s.turret.latchEngaged ∧
    ((abortJobEffect n i s).1).turret.hatchOpen = s.turret.hatchOpen ∧
    ((abortJobEffect n i s).1).turret.hatchMark = s.turret.hatchMark ∧
    ((abortJobEffect n i s).1).turret.exchange = s.turret.exchange ∧
    ((abortJobEffect n i s).1).turret.cancelPending = s.turret.cancelPending ∧
    ((abortJobEffect n i s).1).turret.read = s.turret.read ∧
    ((abortJobEffect n i s).1).turret.protection = s.turret.protection ∧
    ((abortJobEffect n i s).1).turret.lineOpen = s.turret.lineOpen := by
  simp only [abortJobEffect]
  (repeat' split) <;> simp [refuse, done]
@[simp] theorem abortJobEffect_keeps_3 (s : State) (n i : Nat) :
    ((abortJobEffect n i s).1).turret.lineEndDue = s.turret.lineEndDue ∧
    ((abortJobEffect n i s).1).turret.stations.length = s.turret.stations.length ∧
    ((abortJobEffect n i s).1).jobs.length = s.jobs.length ∧
    ((abortJobEffect n i s).1).galleyOrder = s.galleyOrder ∧
    ((abortJobEffect n i s).1).house = s.house ∧
    ((abortJobEffect n i s).1).houseLocked = s.houseLocked ∧
    ((abortJobEffect n i s).1).galleyGap = s.galleyGap ∧
    ((abortJobEffect n i s).1).languages = s.languages := by
  simp only [abortJobEffect]
  (repeat' split) <;> simp [refuse, done]
@[simp] theorem abortJobEffect_keeps_4 (s : State) (n i : Nat) :
    ((abortJobEffect n i s).1).queue.entryHigh = s.queue.entryHigh ∧
    ((abortJobEffect n i s).1).queue.entryLow = s.queue.entryLow ∧
    ((abortJobEffect n i s).1).queue.glyphHigh = s.queue.glyphHigh ∧
    ((abortJobEffect n i s).1).queue.glyphLow = s.queue.glyphLow ∧
    ((abortJobEffect n i s).1).expo.state = s.expo.state ∧
    ((abortJobEffect n i s).1).expo.stops = s.expo.stops ∧
    ((abortJobEffect n i s).1).expo.holdRequest = s.expo.holdRequest ∧
    ((abortJobEffect n i s).1).expo.flight = s.expo.flight := by
  simp only [abortJobEffect]
  (repeat' split) <;> simp [refuse, done]
@[simp] theorem abortJobEffect_keeps_5 (s : State) (n i : Nat) :
    ((abortJobEffect n i s).1).expo.lastExposed = s.expo.lastExposed ∧
    ((abortJobEffect n i s).1).expo.linesExposed = s.expo.linesExposed ∧
    ((abortJobEffect n i s).1).expo.linesSpoiled = s.expo.linesSpoiled ∧
    ((abortJobEffect n i s).1).expo.lens = s.expo.lens ∧
    ((abortJobEffect n i s).1).expo.lensTarget = s.expo.lensTarget ∧
    ((abortJobEffect n i s).1).expo.carriage = s.expo.carriage ∧
    ((abortJobEffect n i s).1).expo.carriageTarget = s.expo.carriageTarget ∧
    ((abortJobEffect n i s).1).expo.flashing = s.expo.flashing := by
  simp only [abortJobEffect]
  (repeat' split) <;> simp [refuse, done]
@[simp] theorem abortJobEffect_keeps_6 (s : State) (n i : Nat) :
    ((abortJobEffect n i s).1).expo.lastDuration = s.expo.lastDuration ∧
    ((abortJobEffect n i s).1).expo.lastClamped = s.expo.lastClamped ∧
    ((abortJobEffect n i s).1).lamp = s.lamp ∧
    ((abortJobEffect n i s).1).film = s.film ∧
    ((abortJobEffect n i s).1).freeCount = s.freeCount ∧
    ((abortJobEffect n i s).1).pending = s.pending := by
  simp only [abortJobEffect]
  (repeat' split) <;> simp [refuse, done]

@[simp] theorem afterStep_keeps (s : State) (n : Nat) :
    (s.afterStep n).link.mask = s.link.mask ∧
    (s.afterStep n).link.throttleMs = s.link.throttleMs ∧
    (s.afterStep n).link.delayMs = s.link.delayMs ∧
    (s.afterStep n).link.limitMs = s.link.limitMs ∧
    (s.afterStep n).link.throttle = s.link.throttle ∧
    (s.afterStep n).link.delayTimer = s.link.delayTimer ∧
    (s.afterStep n).link.absTimer = s.link.absTimer ∧
    (s.afterStep n).link.cause = s.link.cause ∧
    (s.afterStep n).link.replies = s.link.replies ∧
    (s.afterStep n).link.direction = s.link.direction ∧
    (s.afterStep n).link.frameBegun = s.link.frameBegun ∧
    (s.afterStep n).link.discarding = s.link.discarding ∧
    (s.afterStep n).link.withheld = s.link.withheld ∧
    (s.afterStep n).fonts = s.fonts ∧
    (s.afterStep n).turret = s.turret ∧
    (s.afterStep n).jobs.length = s.jobs.length ∧
    (s.afterStep n).galleyOrder = s.galleyOrder ∧
    (s.afterStep n).house = s.house ∧
    (s.afterStep n).houseLocked = s.houseLocked ∧
    (s.afterStep n).galleyGap = s.galleyGap ∧
    (s.afterStep n).exposureHead = s.exposureHead ∧
    (s.afterStep n).proofHead = s.proofHead ∧
    (s.afterStep n).languages = s.languages ∧
    (s.afterStep n).dict = s.dict ∧
    (s.afterStep n).queue = s.queue ∧
    (s.afterStep n).expo = s.expo ∧
    (s.afterStep n).lamp = s.lamp ∧
    (s.afterStep n).film = s.film ∧
    (s.afterStep n).proof = s.proof ∧
    (s.afterStep n).freeCount = s.freeCount ∧
    (s.afterStep n).pending = s.pending := by
  simp only [State.afterStep]
  (repeat' split) <;> simp

@[simp] theorem takeByteEffect_keeps (s : State)  :
    (takeByteEffect s).link.mask = s.link.mask ∧
    (takeByteEffect s).link.throttleMs = s.link.throttleMs ∧
    (takeByteEffect s).link.delayMs = s.link.delayMs ∧
    (takeByteEffect s).link.limitMs = s.link.limitMs ∧
    (takeByteEffect s).link.throttle = s.link.throttle ∧
    (takeByteEffect s).link.delayTimer = s.link.delayTimer ∧
    (takeByteEffect s).link.absTimer = s.link.absTimer ∧
    (takeByteEffect s).link.cause = s.link.cause ∧
    (takeByteEffect s).link.replies = s.link.replies ∧
    (takeByteEffect s).link.direction = s.link.direction ∧
    (takeByteEffect s).link.frameBegun = s.link.frameBegun ∧
    (takeByteEffect s).link.discarding = s.link.discarding ∧
    (takeByteEffect s).link.withheld = s.link.withheld ∧
    (takeByteEffect s).fonts = s.fonts ∧
    (takeByteEffect s).turret = s.turret ∧
    (takeByteEffect s).jobs.length = s.jobs.length ∧
    (takeByteEffect s).galleyOrder = s.galleyOrder ∧
    (takeByteEffect s).house = s.house ∧
    (takeByteEffect s).houseLocked = s.houseLocked ∧
    (takeByteEffect s).galleyGap = s.galleyGap ∧
    (takeByteEffect s).exposureHead = s.exposureHead ∧
    (takeByteEffect s).proofHead = s.proofHead ∧
    (takeByteEffect s).languages = s.languages ∧
    (takeByteEffect s).dict = s.dict ∧
    (takeByteEffect s).queue = s.queue ∧
    (takeByteEffect s).expo = s.expo ∧
    (takeByteEffect s).lamp = s.lamp ∧
    (takeByteEffect s).film = s.film ∧
    (takeByteEffect s).proof = s.proof ∧
    (takeByteEffect s).freeCount = s.freeCount ∧
    (takeByteEffect s).pending = s.pending := by
  simp only [takeByteEffect]
  (repeat' split) <;> simp

@[simp] theorem placeGlyph_keeps (s : State) (n : Nat) (c : Byte) (f z k : Nat) :
    (s.placeGlyph n c f z k).link = s.link ∧
    (s.placeGlyph n c f z k).turret.position = s.turret.position ∧
    (s.placeGlyph n c f z k).turret.motion = s.turret.motion ∧
    (s.placeGlyph n c f z k).turret.pass = s.turret.pass ∧
    (s.placeGlyph n c f z k).turret.latchEngaged = s.turret.latchEngaged ∧
    (s.placeGlyph n c f z k).turret.hatchOpen = s.turret.hatchOpen ∧
    (s.placeGlyph n c f z k).turret.hatchMark = s.turret.hatchMark ∧
    (s.placeGlyph n c f z k).turret.exchange = s.turret.exchange ∧
    (s.placeGlyph n c f z k).turret.cancelPending = s.turret.cancelPending ∧
    (s.placeGlyph n c f z k).turret.read = s.turret.read ∧
    (s.placeGlyph n c f z k).turret.protection = s.turret.protection ∧
    (s.placeGlyph n c f z k).turret.lineOpen = s.turret.lineOpen ∧
    (s.placeGlyph n c f z k).turret.lineEndDue = s.turret.lineEndDue ∧
    (s.placeGlyph n c f z k).turret.stations.length = s.turret.stations.length ∧
    (s.placeGlyph n c f z k).jobs.length = s.jobs.length ∧
    (s.placeGlyph n c f z k).galleyOrder = s.galleyOrder ∧
    (s.placeGlyph n c f z k).house = s.house ∧
    (s.placeGlyph n c f z k).houseLocked = s.houseLocked ∧
    (s.placeGlyph n c f z k).galleyGap = s.galleyGap ∧
    (s.placeGlyph n c f z k).exposureHead = s.exposureHead ∧
    (s.placeGlyph n c f z k).proofHead = s.proofHead ∧
    (s.placeGlyph n c f z k).engine = s.engine ∧
    (s.placeGlyph n c f z k).languages = s.languages ∧
    (s.placeGlyph n c f z k).dict = s.dict ∧
    (s.placeGlyph n c f z k).queue = s.queue ∧
    (s.placeGlyph n c f z k).expo = s.expo ∧
    (s.placeGlyph n c f z k).lamp = s.lamp ∧
    (s.placeGlyph n c f z k).film = s.film ∧
    (s.placeGlyph n c f z k).proof = s.proof ∧
    (s.placeGlyph n c f z k).freeCount = s.freeCount ∧
    (s.placeGlyph n c f z k).pending = s.pending := by
  simp only [State.placeGlyph]
  (repeat' split) <;> simp

@[simp] theorem placeItems_keeps (s : State) (n : Nat) (l k : List WordItem) :
    ((placeItems n l k s).1).link = s.link ∧
    ((placeItems n l k s).1).turret.position = s.turret.position ∧
    ((placeItems n l k s).1).turret.motion = s.turret.motion ∧
    ((placeItems n l k s).1).turret.pass = s.turret.pass ∧
    ((placeItems n l k s).1).turret.latchEngaged = s.turret.latchEngaged ∧
    ((placeItems n l k s).1).turret.hatchOpen = s.turret.hatchOpen ∧
    ((placeItems n l k s).1).turret.hatchMark = s.turret.hatchMark ∧
    ((placeItems n l k s).1).turret.exchange = s.turret.exchange ∧
    ((placeItems n l k s).1).turret.cancelPending = s.turret.cancelPending ∧
    ((placeItems n l k s).1).turret.read = s.turret.read ∧
    ((placeItems n l k s).1).turret.protection = s.turret.protection ∧
    ((placeItems n l k s).1).turret.lineOpen = s.turret.lineOpen ∧
    ((placeItems n l k s).1).turret.lineEndDue = s.turret.lineEndDue ∧
    ((placeItems n l k s).1).turret.stations.length = s.turret.stations.length ∧
    ((placeItems n l k s).1).jobs.length = s.jobs.length ∧
    ((placeItems n l k s).1).galleyOrder = s.galleyOrder ∧
    ((placeItems n l k s).1).house = s.house ∧
    ((placeItems n l k s).1).houseLocked = s.houseLocked ∧
    ((placeItems n l k s).1).galleyGap = s.galleyGap ∧
    ((placeItems n l k s).1).exposureHead = s.exposureHead ∧
    ((placeItems n l k s).1).proofHead = s.proofHead ∧
    ((placeItems n l k s).1).engine = s.engine ∧
    ((placeItems n l k s).1).languages = s.languages ∧
    ((placeItems n l k s).1).dict = s.dict ∧
    ((placeItems n l k s).1).queue = s.queue ∧
    ((placeItems n l k s).1).expo = s.expo ∧
    ((placeItems n l k s).1).lamp = s.lamp ∧
    ((placeItems n l k s).1).film = s.film ∧
    ((placeItems n l k s).1).proof = s.proof ∧
    ((placeItems n l k s).1).freeCount = s.freeCount ∧
    ((placeItems n l k s).1).pending = s.pending := by
  refine ⟨?_, ?_, ?_, ?_, ?_, ?_, ?_, ?_, ?_, ?_, ?_, ?_, ?_, ?_, ?_, ?_, ?_, ?_, ?_, ?_, ?_, ?_, ?_, ?_, ?_, ?_, ?_, ?_, ?_, ?_, ?_⟩ <;> ((induction l generalizing k s with | nil => rfl | cons i l ih => cases i <;> simp only [placeItems] <;> (repeat' split) <;> simp_all))

@[simp] theorem placeNext_keeps (s : State) (n : Nat) :
    ((s.placeNext n).1).link = s.link ∧
    ((s.placeNext n).1).turret.position = s.turret.position ∧
    ((s.placeNext n).1).turret.motion = s.turret.motion ∧
    ((s.placeNext n).1).turret.pass = s.turret.pass ∧
    ((s.placeNext n).1).turret.latchEngaged = s.turret.latchEngaged ∧
    ((s.placeNext n).1).turret.hatchOpen = s.turret.hatchOpen ∧
    ((s.placeNext n).1).turret.hatchMark = s.turret.hatchMark ∧
    ((s.placeNext n).1).turret.exchange = s.turret.exchange ∧
    ((s.placeNext n).1).turret.cancelPending = s.turret.cancelPending ∧
    ((s.placeNext n).1).turret.read = s.turret.read ∧
    ((s.placeNext n).1).turret.protection = s.turret.protection ∧
    ((s.placeNext n).1).turret.lineOpen = s.turret.lineOpen ∧
    ((s.placeNext n).1).turret.lineEndDue = s.turret.lineEndDue ∧
    ((s.placeNext n).1).turret.stations.length = s.turret.stations.length ∧
    ((s.placeNext n).1).jobs.length = s.jobs.length ∧
    ((s.placeNext n).1).galleyOrder = s.galleyOrder ∧
    ((s.placeNext n).1).house = s.house ∧
    ((s.placeNext n).1).houseLocked = s.houseLocked ∧
    ((s.placeNext n).1).galleyGap = s.galleyGap ∧
    ((s.placeNext n).1).exposureHead = s.exposureHead ∧
    ((s.placeNext n).1).proofHead = s.proofHead ∧
    ((s.placeNext n).1).engine = s.engine ∧
    ((s.placeNext n).1).languages = s.languages ∧
    ((s.placeNext n).1).dict = s.dict ∧
    ((s.placeNext n).1).queue = s.queue ∧
    ((s.placeNext n).1).expo = s.expo ∧
    ((s.placeNext n).1).lamp = s.lamp ∧
    ((s.placeNext n).1).film = s.film ∧
    ((s.placeNext n).1).proof = s.proof ∧
    ((s.placeNext n).1).freeCount = s.freeCount ∧
    ((s.placeNext n).1).pending = s.pending := by
  simp only [State.placeNext]
  (repeat' split) <;> simp

@[simp] theorem breakLine_keeps (s : State) (n : Nat) (p : LineParams) (pl : Placing) (g : List Glyph) :
    ((s.breakLine n p pl g).1).link = s.link ∧
    ((s.breakLine n p pl g).1).fonts = s.fonts ∧
    ((s.breakLine n p pl g).1).turret = s.turret ∧
    ((s.breakLine n p pl g).1).jobs = s.jobs ∧
    ((s.breakLine n p pl g).1).galleyOrder = s.galleyOrder ∧
    ((s.breakLine n p pl g).1).house = s.house ∧
    ((s.breakLine n p pl g).1).houseLocked = s.houseLocked ∧
    ((s.breakLine n p pl g).1).galleyGap = s.galleyGap ∧
    ((s.breakLine n p pl g).1).exposureHead = s.exposureHead ∧
    ((s.breakLine n p pl g).1).proofHead = s.proofHead ∧
    ((s.breakLine n p pl g).1).engine = s.engine ∧
    ((s.breakLine n p pl g).1).languages = s.languages ∧
    ((s.breakLine n p pl g).1).queue = s.queue ∧
    ((s.breakLine n p pl g).1).expo = s.expo ∧
    ((s.breakLine n p pl g).1).lamp = s.lamp ∧
    ((s.breakLine n p pl g).1).film = s.film ∧
    ((s.breakLine n p pl g).1).proof = s.proof ∧
    ((s.breakLine n p pl g).1).freeCount = s.freeCount ∧
    ((s.breakLine n p pl g).1).pending = s.pending := by
  simp only [State.breakLine]
  (repeat' split) <;> simp

@[simp] theorem resumeEnding_keeps (s : State) (n : Nat) :
    (s.resumeEnding n).link = s.link ∧
    (s.resumeEnding n).fonts = s.fonts ∧
    (s.resumeEnding n).turret = s.turret ∧
    (s.resumeEnding n).jobs.length = s.jobs.length ∧
    (s.resumeEnding n).galleyOrder = s.galleyOrder ∧
    (s.resumeEnding n).house = s.house ∧
    (s.resumeEnding n).houseLocked = s.houseLocked ∧
    (s.resumeEnding n).galleyGap = s.galleyGap ∧
    (s.resumeEnding n).exposureHead = s.exposureHead ∧
    (s.resumeEnding n).proofHead = s.proofHead ∧
    (s.resumeEnding n).engine = s.engine ∧
    (s.resumeEnding n).languages = s.languages ∧
    (s.resumeEnding n).dict = s.dict ∧
    (s.resumeEnding n).queue = s.queue ∧
    (s.resumeEnding n).expo = s.expo ∧
    (s.resumeEnding n).lamp = s.lamp ∧
    (s.resumeEnding n).film = s.film ∧
    (s.resumeEnding n).proof = s.proof ∧
    (s.resumeEnding n).freeCount = s.freeCount ∧
    (s.resumeEnding n).pending = s.pending := by
  simp only [State.resumeEnding]
  (repeat' split) <;> simp

@[simp] theorem admitted_keeps (s : State) (n : Nat) (b : Body) :
    (s.admitted n b).link.mask = s.link.mask ∧
    (s.admitted n b).link.throttleMs = s.link.throttleMs ∧
    (s.admitted n b).link.delayMs = s.link.delayMs ∧
    (s.admitted n b).link.limitMs = s.link.limitMs ∧
    (s.admitted n b).link.throttle = s.link.throttle ∧
    (s.admitted n b).link.delayTimer = s.link.delayTimer ∧
    (s.admitted n b).link.absTimer = s.link.absTimer ∧
    (s.admitted n b).link.cause = s.link.cause ∧
    (s.admitted n b).link.replies = s.link.replies ∧
    (s.admitted n b).link.direction = s.link.direction ∧
    (s.admitted n b).link.frameBegun = s.link.frameBegun ∧
    (s.admitted n b).link.discarding = s.link.discarding ∧
    (s.admitted n b).link.withheld = s.link.withheld ∧
    (s.admitted n b).fonts = s.fonts ∧
    (s.admitted n b).turret = s.turret ∧
    (s.admitted n b).jobs.length = s.jobs.length ∧
    (s.admitted n b).galleyOrder = s.galleyOrder ∧
    (s.admitted n b).house = s.house ∧
    (s.admitted n b).houseLocked = s.houseLocked ∧
    (s.admitted n b).galleyGap = s.galleyGap ∧
    (s.admitted n b).exposureHead = s.exposureHead ∧
    (s.admitted n b).proofHead = s.proofHead ∧
    (s.admitted n b).engine = s.engine ∧
    (s.admitted n b).languages = s.languages ∧
    (s.admitted n b).dict = s.dict ∧
    (s.admitted n b).queue = s.queue ∧
    (s.admitted n b).expo = s.expo ∧
    (s.admitted n b).lamp = s.lamp ∧
    (s.admitted n b).film = s.film ∧
    (s.admitted n b).proof = s.proof ∧
    (s.admitted n b).freeCount = s.freeCount ∧
    (s.admitted n b).pending = s.pending := by
  simp only [State.admitted]
  (repeat' split) <;> simp

@[simp] theorem offer_keeps (s : State) (n : Nat) (b : Body) :
    (s.offer n b).link.mask = s.link.mask ∧
    (s.offer n b).link.throttleMs = s.link.throttleMs ∧
    (s.offer n b).link.delayMs = s.link.delayMs ∧
    (s.offer n b).link.limitMs = s.link.limitMs ∧
    (s.offer n b).link.throttle = s.link.throttle ∧
    (s.offer n b).link.delayTimer = s.link.delayTimer ∧
    (s.offer n b).link.absTimer = s.link.absTimer ∧
    (s.offer n b).link.cause = s.link.cause ∧
    (s.offer n b).link.replies = s.link.replies ∧
    (s.offer n b).link.direction = s.link.direction ∧
    (s.offer n b).link.frameBegun = s.link.frameBegun ∧
    (s.offer n b).link.discarding = s.link.discarding ∧
    (s.offer n b).link.withheld = s.link.withheld ∧
    (s.offer n b).turret.position = s.turret.position ∧
    (s.offer n b).turret.motion = s.turret.motion ∧
    (s.offer n b).turret.pass = s.turret.pass ∧
    (s.offer n b).turret.latchEngaged = s.turret.latchEngaged ∧
    (s.offer n b).turret.hatchOpen = s.turret.hatchOpen ∧
    (s.offer n b).turret.hatchMark = s.turret.hatchMark ∧
    (s.offer n b).turret.exchange = s.turret.exchange ∧
    (s.offer n b).turret.cancelPending = s.turret.cancelPending ∧
    (s.offer n b).turret.read = s.turret.read ∧
    (s.offer n b).turret.protection = s.turret.protection ∧
    (s.offer n b).turret.lineOpen = s.turret.lineOpen ∧
    (s.offer n b).turret.lineEndDue = s.turret.lineEndDue ∧
    (s.offer n b).turret.stations.length = s.turret.stations.length ∧
    (s.offer n b).jobs.length = s.jobs.length ∧
    (s.offer n b).galleyOrder = s.galleyOrder ∧
    (s.offer n b).house = s.house ∧
    (s.offer n b).houseLocked = s.houseLocked ∧
    (s.offer n b).galleyGap = s.galleyGap ∧
    (s.offer n b).exposureHead = s.exposureHead ∧
    (s.offer n b).proofHead = s.proofHead ∧
    (s.offer n b).languages = s.languages ∧
    (s.offer n b).dict = s.dict ∧
    (s.offer n b).queue.entryHigh = s.queue.entryHigh ∧
    (s.offer n b).queue.entryLow = s.queue.entryLow ∧
    (s.offer n b).queue.glyphHigh = s.queue.glyphHigh ∧
    (s.offer n b).queue.glyphLow = s.queue.glyphLow ∧
    (s.offer n b).expo = s.expo ∧
    (s.offer n b).lamp = s.lamp ∧
    (s.offer n b).film = s.film ∧
    (s.offer n b).proof = s.proof ∧
    (s.offer n b).freeCount = s.freeCount ∧
    (s.offer n b).pending = s.pending := by
  simp only [State.offer]
  (repeat' split) <;> simp

@[simp] theorem leaveLine_keeps (s : State) (a b : List Glyph) :
    (s.leaveLine a b).link = s.link ∧
    (s.leaveLine a b).turret.position = s.turret.position ∧
    (s.leaveLine a b).turret.motion = s.turret.motion ∧
    (s.leaveLine a b).turret.pass = s.turret.pass ∧
    (s.leaveLine a b).turret.latchEngaged = s.turret.latchEngaged ∧
    (s.leaveLine a b).turret.hatchOpen = s.turret.hatchOpen ∧
    (s.leaveLine a b).turret.hatchMark = s.turret.hatchMark ∧
    (s.leaveLine a b).turret.exchange = s.turret.exchange ∧
    (s.leaveLine a b).turret.cancelPending = s.turret.cancelPending ∧
    (s.leaveLine a b).turret.read = s.turret.read ∧
    (s.leaveLine a b).turret.protection = s.turret.protection ∧
    (s.leaveLine a b).turret.lineOpen = s.turret.lineOpen ∧
    (s.leaveLine a b).turret.lineEndDue = s.turret.lineEndDue ∧
    (s.leaveLine a b).turret.stations.length = s.turret.stations.length ∧
    (s.leaveLine a b).jobs = s.jobs ∧
    (s.leaveLine a b).galleyOrder = s.galleyOrder ∧
    (s.leaveLine a b).house = s.house ∧
    (s.leaveLine a b).houseLocked = s.houseLocked ∧
    (s.leaveLine a b).galleyGap = s.galleyGap ∧
    (s.leaveLine a b).exposureHead = s.exposureHead ∧
    (s.leaveLine a b).proofHead = s.proofHead ∧
    (s.leaveLine a b).engine = s.engine ∧
    (s.leaveLine a b).languages = s.languages ∧
    (s.leaveLine a b).dict = s.dict ∧
    (s.leaveLine a b).queue = s.queue ∧
    (s.leaveLine a b).expo = s.expo ∧
    (s.leaveLine a b).lamp = s.lamp ∧
    (s.leaveLine a b).film = s.film ∧
    (s.leaveLine a b).proof = s.proof ∧
    (s.leaveLine a b).freeCount = s.freeCount ∧
    (s.leaveLine a b).pending = s.pending := by
  simp [State.leaveLine]

@[simp] theorem setLineWith_keeps (s : State) (n : Nat) (p : LineParams) (k : List Glyph) (f : List LineFlag) (a : Bool) (c : Option Word) :
    (s.setLineWith n p k f a c).link.mask = s.link.mask ∧
    (s.setLineWith n p k f a c).link.throttleMs = s.link.throttleMs ∧
    (s.setLineWith n p k f a c).link.delayMs = s.link.delayMs ∧
    (s.setLineWith n p k f a c).link.limitMs = s.link.limitMs ∧
    (s.setLineWith n p k f a c).link.throttle = s.link.throttle ∧
    (s.setLineWith n p k f a c).link.delayTimer = s.link.delayTimer ∧
    (s.setLineWith n p k f a c).link.absTimer = s.link.absTimer ∧
    (s.setLineWith n p k f a c).link.cause = s.link.cause ∧
    (s.setLineWith n p k f a c).link.replies = s.link.replies ∧
    (s.setLineWith n p k f a c).link.direction = s.link.direction ∧
    (s.setLineWith n p k f a c).link.frameBegun = s.link.frameBegun ∧
    (s.setLineWith n p k f a c).link.discarding = s.link.discarding ∧
    (s.setLineWith n p k f a c).link.withheld = s.link.withheld ∧
    (s.setLineWith n p k f a c).turret.position = s.turret.position ∧
    (s.setLineWith n p k f a c).turret.motion = s.turret.motion ∧
    (s.setLineWith n p k f a c).turret.pass = s.turret.pass ∧
    (s.setLineWith n p k f a c).turret.latchEngaged = s.turret.latchEngaged ∧
    (s.setLineWith n p k f a c).turret.hatchOpen = s.turret.hatchOpen ∧
    (s.setLineWith n p k f a c).turret.hatchMark = s.turret.hatchMark ∧
    (s.setLineWith n p k f a c).turret.exchange = s.turret.exchange ∧
    (s.setLineWith n p k f a c).turret.cancelPending = s.turret.cancelPending ∧
    (s.setLineWith n p k f a c).turret.read = s.turret.read ∧
    (s.setLineWith n p k f a c).turret.protection = s.turret.protection ∧
    (s.setLineWith n p k f a c).turret.lineOpen = s.turret.lineOpen ∧
    (s.setLineWith n p k f a c).turret.lineEndDue = s.turret.lineEndDue ∧
    (s.setLineWith n p k f a c).turret.stations.length = s.turret.stations.length ∧
    (s.setLineWith n p k f a c).jobs.length = s.jobs.length ∧
    (s.setLineWith n p k f a c).galleyOrder = s.galleyOrder ∧
    (s.setLineWith n p k f a c).house = s.house ∧
    (s.setLineWith n p k f a c).houseLocked = s.houseLocked ∧
    (s.setLineWith n p k f a c).galleyGap = s.galleyGap ∧
    (s.setLineWith n p k f a c).exposureHead = s.exposureHead ∧
    (s.setLineWith n p k f a c).proofHead = s.proofHead ∧
    (s.setLineWith n p k f a c).languages = s.languages ∧
    (s.setLineWith n p k f a c).dict = s.dict ∧
    (s.setLineWith n p k f a c).queue.entryHigh = s.queue.entryHigh ∧
    (s.setLineWith n p k f a c).queue.entryLow = s.queue.entryLow ∧
    (s.setLineWith n p k f a c).queue.glyphHigh = s.queue.glyphHigh ∧
    (s.setLineWith n p k f a c).queue.glyphLow = s.queue.glyphLow ∧
    (s.setLineWith n p k f a c).expo = s.expo ∧
    (s.setLineWith n p k f a c).lamp = s.lamp ∧
    (s.setLineWith n p k f a c).film = s.film ∧
    (s.setLineWith n p k f a c).proof = s.proof ∧
    (s.setLineWith n p k f a c).freeCount = s.freeCount ∧
    (s.setLineWith n p k f a c).pending = s.pending := by
  simp [State.setLineWith]

@[simp] theorem breakAndSet_keeps (s : State) (n : Nat) :
    (s.breakAndSet n).link.mask = s.link.mask ∧
    (s.breakAndSet n).link.throttleMs = s.link.throttleMs ∧
    (s.breakAndSet n).link.delayMs = s.link.delayMs ∧
    (s.breakAndSet n).link.limitMs = s.link.limitMs ∧
    (s.breakAndSet n).link.throttle = s.link.throttle ∧
    (s.breakAndSet n).link.delayTimer = s.link.delayTimer ∧
    (s.breakAndSet n).link.absTimer = s.link.absTimer ∧
    (s.breakAndSet n).link.cause = s.link.cause ∧
    (s.breakAndSet n).link.replies = s.link.replies ∧
    (s.breakAndSet n).link.direction = s.link.direction ∧
    (s.breakAndSet n).link.frameBegun = s.link.frameBegun ∧
    (s.breakAndSet n).link.discarding = s.link.discarding ∧
    (s.breakAndSet n).link.withheld = s.link.withheld ∧
    (s.breakAndSet n).turret.position = s.turret.position ∧
    (s.breakAndSet n).turret.motion = s.turret.motion ∧
    (s.breakAndSet n).turret.pass = s.turret.pass ∧
    (s.breakAndSet n).turret.latchEngaged = s.turret.latchEngaged ∧
    (s.breakAndSet n).turret.hatchOpen = s.turret.hatchOpen ∧
    (s.breakAndSet n).turret.hatchMark = s.turret.hatchMark ∧
    (s.breakAndSet n).turret.exchange = s.turret.exchange ∧
    (s.breakAndSet n).turret.cancelPending = s.turret.cancelPending ∧
    (s.breakAndSet n).turret.read = s.turret.read ∧
    (s.breakAndSet n).turret.protection = s.turret.protection ∧
    (s.breakAndSet n).turret.lineOpen = s.turret.lineOpen ∧
    (s.breakAndSet n).turret.lineEndDue = s.turret.lineEndDue ∧
    (s.breakAndSet n).turret.stations.length = s.turret.stations.length ∧
    (s.breakAndSet n).jobs.length = s.jobs.length ∧
    (s.breakAndSet n).galleyOrder = s.galleyOrder ∧
    (s.breakAndSet n).house = s.house ∧
    (s.breakAndSet n).houseLocked = s.houseLocked ∧
    (s.breakAndSet n).galleyGap = s.galleyGap ∧
    (s.breakAndSet n).exposureHead = s.exposureHead ∧
    (s.breakAndSet n).proofHead = s.proofHead ∧
    (s.breakAndSet n).languages = s.languages ∧
    (s.breakAndSet n).queue.entryHigh = s.queue.entryHigh ∧
    (s.breakAndSet n).queue.entryLow = s.queue.entryLow ∧
    (s.breakAndSet n).queue.glyphHigh = s.queue.glyphHigh ∧
    (s.breakAndSet n).queue.glyphLow = s.queue.glyphLow ∧
    (s.breakAndSet n).expo = s.expo ∧
    (s.breakAndSet n).lamp = s.lamp ∧
    (s.breakAndSet n).film = s.film ∧
    (s.breakAndSet n).proof = s.proof ∧
    (s.breakAndSet n).freeCount = s.freeCount ∧
    (s.breakAndSet n).pending = s.pending := by
  simp only [State.breakAndSet]
  (repeat' split) <;> simp

@[simp] theorem carryEnding_keeps (s : State) (n : Nat) :
    (s.carryEnding n).link.mask = s.link.mask ∧
    (s.carryEnding n).link.throttleMs = s.link.throttleMs ∧
    (s.carryEnding n).link.delayMs = s.link.delayMs ∧
    (s.carryEnding n).link.limitMs = s.link.limitMs ∧
    (s.carryEnding n).link.throttle = s.link.throttle ∧
    (s.carryEnding n).link.delayTimer = s.link.delayTimer ∧
    (s.carryEnding n).link.absTimer = s.link.absTimer ∧
    (s.carryEnding n).link.cause = s.link.cause ∧
    (s.carryEnding n).link.replies = s.link.replies ∧
    (s.carryEnding n).link.direction = s.link.direction ∧
    (s.carryEnding n).link.frameBegun = s.link.frameBegun ∧
    (s.carryEnding n).link.discarding = s.link.discarding ∧
    (s.carryEnding n).link.withheld = s.link.withheld ∧
    (s.carryEnding n).turret.position = s.turret.position ∧
    (s.carryEnding n).turret.motion = s.turret.motion ∧
    (s.carryEnding n).turret.pass = s.turret.pass ∧
    (s.carryEnding n).turret.latchEngaged = s.turret.latchEngaged ∧
    (s.carryEnding n).turret.hatchOpen = s.turret.hatchOpen ∧
    (s.carryEnding n).turret.hatchMark = s.turret.hatchMark ∧
    (s.carryEnding n).turret.exchange = s.turret.exchange ∧
    (s.carryEnding n).turret.cancelPending = s.turret.cancelPending ∧
    (s.carryEnding n).turret.read = s.turret.read ∧
    (s.carryEnding n).turret.protection = s.turret.protection ∧
    (s.carryEnding n).turret.lineOpen = s.turret.lineOpen ∧
    (s.carryEnding n).turret.lineEndDue = s.turret.lineEndDue ∧
    (s.carryEnding n).turret.stations.length = s.turret.stations.length ∧
    (s.carryEnding n).jobs.length = s.jobs.length ∧
    (s.carryEnding n).galleyOrder = s.galleyOrder ∧
    (s.carryEnding n).house = s.house ∧
    (s.carryEnding n).houseLocked = s.houseLocked ∧
    (s.carryEnding n).galleyGap = s.galleyGap ∧
    (s.carryEnding n).exposureHead = s.exposureHead ∧
    (s.carryEnding n).proofHead = s.proofHead ∧
    (s.carryEnding n).languages = s.languages ∧
    (s.carryEnding n).queue.entryHigh = s.queue.entryHigh ∧
    (s.carryEnding n).queue.entryLow = s.queue.entryLow ∧
    (s.carryEnding n).queue.glyphHigh = s.queue.glyphHigh ∧
    (s.carryEnding n).queue.glyphLow = s.queue.glyphLow ∧
    (s.carryEnding n).expo = s.expo ∧
    (s.carryEnding n).lamp = s.lamp ∧
    (s.carryEnding n).film = s.film ∧
    (s.carryEnding n).proof = s.proof ∧
    (s.carryEnding n).freeCount = s.freeCount ∧
    (s.carryEnding n).pending = s.pending := by
  simp only [State.carryEnding]
  (repeat' split) <;> simp

@[simp] theorem placeWordEffect_keeps (s : State)  :
    (placeWordEffect s).link.mask = s.link.mask ∧
    (placeWordEffect s).link.throttleMs = s.link.throttleMs ∧
    (placeWordEffect s).link.delayMs = s.link.delayMs ∧
    (placeWordEffect s).link.limitMs = s.link.limitMs ∧
    (placeWordEffect s).link.throttle = s.link.throttle ∧
    (placeWordEffect s).link.delayTimer = s.link.delayTimer ∧
    (placeWordEffect s).link.absTimer = s.link.absTimer ∧
    (placeWordEffect s).link.cause = s.link.cause ∧
    (placeWordEffect s).link.replies = s.link.replies ∧
    (placeWordEffect s).link.direction = s.link.direction ∧
    (placeWordEffect s).link.frameBegun = s.link.frameBegun ∧
    (placeWordEffect s).link.discarding = s.link.discarding ∧
    (placeWordEffect s).link.withheld = s.link.withheld ∧
    (placeWordEffect s).turret.position = s.turret.position ∧
    (placeWordEffect s).turret.motion = s.turret.motion ∧
    (placeWordEffect s).turret.pass = s.turret.pass ∧
    (placeWordEffect s).turret.latchEngaged = s.turret.latchEngaged ∧
    (placeWordEffect s).turret.hatchOpen = s.turret.hatchOpen ∧
    (placeWordEffect s).turret.hatchMark = s.turret.hatchMark ∧
    (placeWordEffect s).turret.exchange = s.turret.exchange ∧
    (placeWordEffect s).turret.cancelPending = s.turret.cancelPending ∧
    (placeWordEffect s).turret.read = s.turret.read ∧
    (placeWordEffect s).turret.protection = s.turret.protection ∧
    (placeWordEffect s).turret.lineOpen = s.turret.lineOpen ∧
    (placeWordEffect s).turret.lineEndDue = s.turret.lineEndDue ∧
    (placeWordEffect s).turret.stations.length = s.turret.stations.length ∧
    (placeWordEffect s).jobs.length = s.jobs.length ∧
    (placeWordEffect s).galleyOrder = s.galleyOrder ∧
    (placeWordEffect s).house = s.house ∧
    (placeWordEffect s).houseLocked = s.houseLocked ∧
    (placeWordEffect s).galleyGap = s.galleyGap ∧
    (placeWordEffect s).exposureHead = s.exposureHead ∧
    (placeWordEffect s).proofHead = s.proofHead ∧
    (placeWordEffect s).languages = s.languages ∧
    (placeWordEffect s).queue.entryHigh = s.queue.entryHigh ∧
    (placeWordEffect s).queue.entryLow = s.queue.entryLow ∧
    (placeWordEffect s).queue.glyphHigh = s.queue.glyphHigh ∧
    (placeWordEffect s).queue.glyphLow = s.queue.glyphLow ∧
    (placeWordEffect s).expo = s.expo ∧
    (placeWordEffect s).lamp = s.lamp ∧
    (placeWordEffect s).film = s.film ∧
    (placeWordEffect s).proof = s.proof ∧
    (placeWordEffect s).freeCount = s.freeCount ∧
    (placeWordEffect s).pending = s.pending := by
  simp only [placeWordEffect]
  (repeat' split) <;> simp

@[simp] theorem setLineEffect_keeps (s : State)  :
    (setLineEffect s).link.mask = s.link.mask ∧
    (setLineEffect s).link.throttleMs = s.link.throttleMs ∧
    (setLineEffect s).link.delayMs = s.link.delayMs ∧
    (setLineEffect s).link.limitMs = s.link.limitMs ∧
    (setLineEffect s).link.throttle = s.link.throttle ∧
    (setLineEffect s).link.delayTimer = s.link.delayTimer ∧
    (setLineEffect s).link.absTimer = s.link.absTimer ∧
    (setLineEffect s).link.cause = s.link.cause ∧
    (setLineEffect s).link.replies = s.link.replies ∧
    (setLineEffect s).link.direction = s.link.direction ∧
    (setLineEffect s).link.frameBegun = s.link.frameBegun ∧
    (setLineEffect s).link.discarding = s.link.discarding ∧
    (setLineEffect s).link.withheld = s.link.withheld ∧
    (setLineEffect s).turret.position = s.turret.position ∧
    (setLineEffect s).turret.motion = s.turret.motion ∧
    (setLineEffect s).turret.pass = s.turret.pass ∧
    (setLineEffect s).turret.latchEngaged = s.turret.latchEngaged ∧
    (setLineEffect s).turret.hatchOpen = s.turret.hatchOpen ∧
    (setLineEffect s).turret.hatchMark = s.turret.hatchMark ∧
    (setLineEffect s).turret.exchange = s.turret.exchange ∧
    (setLineEffect s).turret.cancelPending = s.turret.cancelPending ∧
    (setLineEffect s).turret.read = s.turret.read ∧
    (setLineEffect s).turret.protection = s.turret.protection ∧
    (setLineEffect s).turret.lineOpen = s.turret.lineOpen ∧
    (setLineEffect s).turret.lineEndDue = s.turret.lineEndDue ∧
    (setLineEffect s).turret.stations.length = s.turret.stations.length ∧
    (setLineEffect s).jobs.length = s.jobs.length ∧
    (setLineEffect s).galleyOrder = s.galleyOrder ∧
    (setLineEffect s).house = s.house ∧
    (setLineEffect s).houseLocked = s.houseLocked ∧
    (setLineEffect s).galleyGap = s.galleyGap ∧
    (setLineEffect s).exposureHead = s.exposureHead ∧
    (setLineEffect s).proofHead = s.proofHead ∧
    (setLineEffect s).languages = s.languages ∧
    (setLineEffect s).queue.entryHigh = s.queue.entryHigh ∧
    (setLineEffect s).queue.entryLow = s.queue.entryLow ∧
    (setLineEffect s).queue.glyphHigh = s.queue.glyphHigh ∧
    (setLineEffect s).queue.glyphLow = s.queue.glyphLow ∧
    (setLineEffect s).expo = s.expo ∧
    (setLineEffect s).lamp = s.lamp ∧
    (setLineEffect s).film = s.film ∧
    (setLineEffect s).proof = s.proof ∧
    (setLineEffect s).freeCount = s.freeCount ∧
    (setLineEffect s).pending = s.pending := by
  simp only [setLineEffect]
  (repeat' split) <;> simp

@[simp] theorem takeEntry_keeps (s : State) (e : Entry) :
    (s.takeEntry e).link = s.link ∧
    (s.takeEntry e).fonts = s.fonts ∧
    (s.takeEntry e).turret = s.turret ∧
    (s.takeEntry e).jobs = s.jobs ∧
    (s.takeEntry e).galleyOrder = s.galleyOrder ∧
    (s.takeEntry e).house = s.house ∧
    (s.takeEntry e).houseLocked = s.houseLocked ∧
    (s.takeEntry e).galleyGap = s.galleyGap ∧
    (s.takeEntry e).exposureHead = s.exposureHead ∧
    (s.takeEntry e).proofHead = s.proofHead ∧
    (s.takeEntry e).engine = s.engine ∧
    (s.takeEntry e).languages = s.languages ∧
    (s.takeEntry e).dict = s.dict ∧
    (s.takeEntry e).expo = s.expo ∧
    (s.takeEntry e).lamp = s.lamp ∧
    (s.takeEntry e).film = s.film ∧
    (s.takeEntry e).freeCount = s.freeCount ∧
    (s.takeEntry e).pending = s.pending := by
  simp [State.takeEntry]

@[simp] theorem lineSent_keeps (s : State)  :
    (s.lineSent).link = s.link ∧
    (s.lineSent).turret.position = s.turret.position ∧
    (s.lineSent).turret.motion = s.turret.motion ∧
    (s.lineSent).turret.pass = s.turret.pass ∧
    (s.lineSent).turret.latchEngaged = s.turret.latchEngaged ∧
    (s.lineSent).turret.hatchOpen = s.turret.hatchOpen ∧
    (s.lineSent).turret.hatchMark = s.turret.hatchMark ∧
    (s.lineSent).turret.exchange = s.turret.exchange ∧
    (s.lineSent).turret.cancelPending = s.turret.cancelPending ∧
    (s.lineSent).turret.read = s.turret.read ∧
    (s.lineSent).turret.protection = s.turret.protection ∧
    (s.lineSent).turret.lineOpen = s.turret.lineOpen ∧
    (s.lineSent).turret.lineEndDue = s.turret.lineEndDue ∧
    (s.lineSent).turret.stations.length = s.turret.stations.length ∧
    (s.lineSent).jobs = s.jobs ∧
    (s.lineSent).galleyOrder = s.galleyOrder ∧
    (s.lineSent).house = s.house ∧
    (s.lineSent).houseLocked = s.houseLocked ∧
    (s.lineSent).galleyGap = s.galleyGap ∧
    (s.lineSent).exposureHead = s.exposureHead ∧
    (s.lineSent).proofHead = s.proofHead ∧
    (s.lineSent).engine = s.engine ∧
    (s.lineSent).languages = s.languages ∧
    (s.lineSent).dict = s.dict ∧
    (s.lineSent).expo = s.expo ∧
    (s.lineSent).lamp = s.lamp ∧
    (s.lineSent).film = s.film ∧
    (s.lineSent).freeCount = s.freeCount ∧
    (s.lineSent).pending = s.pending := by
  simp only [State.lineSent]
  (repeat' split) <;> simp

@[simp] theorem proofByteSentEffect_keeps (s : State)  :
    (proofByteSentEffect s).link = s.link ∧
    (proofByteSentEffect s).turret.position = s.turret.position ∧
    (proofByteSentEffect s).turret.motion = s.turret.motion ∧
    (proofByteSentEffect s).turret.pass = s.turret.pass ∧
    (proofByteSentEffect s).turret.latchEngaged = s.turret.latchEngaged ∧
    (proofByteSentEffect s).turret.hatchOpen = s.turret.hatchOpen ∧
    (proofByteSentEffect s).turret.hatchMark = s.turret.hatchMark ∧
    (proofByteSentEffect s).turret.exchange = s.turret.exchange ∧
    (proofByteSentEffect s).turret.cancelPending = s.turret.cancelPending ∧
    (proofByteSentEffect s).turret.read = s.turret.read ∧
    (proofByteSentEffect s).turret.protection = s.turret.protection ∧
    (proofByteSentEffect s).turret.lineOpen = s.turret.lineOpen ∧
    (proofByteSentEffect s).turret.lineEndDue = s.turret.lineEndDue ∧
    (proofByteSentEffect s).turret.stations.length = s.turret.stations.length ∧
    (proofByteSentEffect s).jobs = s.jobs ∧
    (proofByteSentEffect s).galleyOrder = s.galleyOrder ∧
    (proofByteSentEffect s).house = s.house ∧
    (proofByteSentEffect s).houseLocked = s.houseLocked ∧
    (proofByteSentEffect s).galleyGap = s.galleyGap ∧
    (proofByteSentEffect s).exposureHead = s.exposureHead ∧
    (proofByteSentEffect s).proofHead = s.proofHead ∧
    (proofByteSentEffect s).engine = s.engine ∧
    (proofByteSentEffect s).languages = s.languages ∧
    (proofByteSentEffect s).dict = s.dict ∧
    (proofByteSentEffect s).expo = s.expo ∧
    (proofByteSentEffect s).lamp = s.lamp ∧
    (proofByteSentEffect s).film = s.film ∧
    (proofByteSentEffect s).freeCount = s.freeCount ∧
    (proofByteSentEffect s).pending = s.pending := by
  simp only [proofByteSentEffect]
  (repeat' split) <;> simp

@[simp] theorem xoffEffect_keeps (s : State)  :
    (xoffEffect s).link = s.link ∧
    (xoffEffect s).fonts = s.fonts ∧
    (xoffEffect s).turret = s.turret ∧
    (xoffEffect s).jobs = s.jobs ∧
    (xoffEffect s).galleyOrder = s.galleyOrder ∧
    (xoffEffect s).house = s.house ∧
    (xoffEffect s).houseLocked = s.houseLocked ∧
    (xoffEffect s).galleyGap = s.galleyGap ∧
    (xoffEffect s).exposureHead = s.exposureHead ∧
    (xoffEffect s).proofHead = s.proofHead ∧
    (xoffEffect s).engine = s.engine ∧
    (xoffEffect s).languages = s.languages ∧
    (xoffEffect s).dict = s.dict ∧
    (xoffEffect s).queue = s.queue ∧
    (xoffEffect s).expo = s.expo ∧
    (xoffEffect s).lamp = s.lamp ∧
    (xoffEffect s).film = s.film ∧
    (xoffEffect s).freeCount = s.freeCount ∧
    (xoffEffect s).pending = s.pending := by
  simp only [xoffEffect]
  (repeat' split) <;> simp

@[simp] theorem xonEffect_keeps (s : State)  :
    (xonEffect s).link.mask = s.link.mask ∧
    (xonEffect s).link.throttleMs = s.link.throttleMs ∧
    (xonEffect s).link.delayMs = s.link.delayMs ∧
    (xonEffect s).link.limitMs = s.link.limitMs ∧
    (xonEffect s).link.throttle = s.link.throttle ∧
    (xonEffect s).link.delayTimer = s.link.delayTimer ∧
    (xonEffect s).link.absTimer = s.link.absTimer ∧
    (xonEffect s).link.cause = s.link.cause ∧
    (xonEffect s).link.replies = s.link.replies ∧
    (xonEffect s).link.direction = s.link.direction ∧
    (xonEffect s).link.frameBegun = s.link.frameBegun ∧
    (xonEffect s).link.discarding = s.link.discarding ∧
    (xonEffect s).link.withheld = s.link.withheld ∧
    (xonEffect s).fonts = s.fonts ∧
    (xonEffect s).turret = s.turret ∧
    (xonEffect s).jobs = s.jobs ∧
    (xonEffect s).galleyOrder = s.galleyOrder ∧
    (xonEffect s).house = s.house ∧
    (xonEffect s).houseLocked = s.houseLocked ∧
    (xonEffect s).galleyGap = s.galleyGap ∧
    (xonEffect s).exposureHead = s.exposureHead ∧
    (xonEffect s).proofHead = s.proofHead ∧
    (xonEffect s).engine = s.engine ∧
    (xonEffect s).languages = s.languages ∧
    (xonEffect s).dict = s.dict ∧
    (xonEffect s).queue = s.queue ∧
    (xonEffect s).expo = s.expo ∧
    (xonEffect s).lamp = s.lamp ∧
    (xonEffect s).film = s.film ∧
    (xonEffect s).freeCount = s.freeCount ∧
    (xonEffect s).pending = s.pending := by
  simp only [xonEffect]
  (repeat' split) <;> simp

@[simp] theorem stallExpiryEffect_keeps (s : State)  :
    (stallExpiryEffect s).link.mask = s.link.mask ∧
    (stallExpiryEffect s).link.throttleMs = s.link.throttleMs ∧
    (stallExpiryEffect s).link.delayMs = s.link.delayMs ∧
    (stallExpiryEffect s).link.limitMs = s.link.limitMs ∧
    (stallExpiryEffect s).link.throttle = s.link.throttle ∧
    (stallExpiryEffect s).link.delayTimer = s.link.delayTimer ∧
    (stallExpiryEffect s).link.absTimer = s.link.absTimer ∧
    (stallExpiryEffect s).link.cause = s.link.cause ∧
    (stallExpiryEffect s).link.replies = s.link.replies ∧
    (stallExpiryEffect s).link.direction = s.link.direction ∧
    (stallExpiryEffect s).link.frameBegun = s.link.frameBegun ∧
    (stallExpiryEffect s).link.discarding = s.link.discarding ∧
    (stallExpiryEffect s).link.withheld = s.link.withheld ∧
    (stallExpiryEffect s).fonts = s.fonts ∧
    (stallExpiryEffect s).turret = s.turret ∧
    (stallExpiryEffect s).jobs = s.jobs ∧
    (stallExpiryEffect s).galleyOrder = s.galleyOrder ∧
    (stallExpiryEffect s).house = s.house ∧
    (stallExpiryEffect s).houseLocked = s.houseLocked ∧
    (stallExpiryEffect s).galleyGap = s.galleyGap ∧
    (stallExpiryEffect s).exposureHead = s.exposureHead ∧
    (stallExpiryEffect s).proofHead = s.proofHead ∧
    (stallExpiryEffect s).engine = s.engine ∧
    (stallExpiryEffect s).languages = s.languages ∧
    (stallExpiryEffect s).dict = s.dict ∧
    (stallExpiryEffect s).queue = s.queue ∧
    (stallExpiryEffect s).expo = s.expo ∧
    (stallExpiryEffect s).lamp = s.lamp ∧
    (stallExpiryEffect s).film = s.film ∧
    (stallExpiryEffect s).proof.state = s.proof.state ∧
    (stallExpiryEffect s).proof.disablePending = s.proof.disablePending ∧
    (stallExpiryEffect s).proof.head = s.proof.head ∧
    (stallExpiryEffect s).proof.named = s.proof.named ∧
    (stallExpiryEffect s).proof.list = s.proof.list ∧
    (stallExpiryEffect s).proof.sent = s.proof.sent ∧
    (stallExpiryEffect s).proof.lead = s.proof.lead ∧
    (stallExpiryEffect s).proof.begun = s.proof.begun ∧
    (stallExpiryEffect s).proof.reprint = s.proof.reprint ∧
    (stallExpiryEffect s).proof.transit = s.proof.transit ∧
    (stallExpiryEffect s).proof.gapCount = s.proof.gapCount ∧
    (stallExpiryEffect s).proof.rate = s.proof.rate ∧
    (stallExpiryEffect s).proof.lineRate = s.proof.lineRate ∧
    (stallExpiryEffect s).proof.flowOn = s.proof.flowOn ∧
    (stallExpiryEffect s).proof.paperOut = s.proof.paperOut ∧
    (stallExpiryEffect s).proof.linesPrinted = s.proof.linesPrinted ∧
    (stallExpiryEffect s).proof.gapsPrinted = s.proof.gapsPrinted ∧
    (stallExpiryEffect s).proof.reprints = s.proof.reprints ∧
    (stallExpiryEffect s).proof.notesLost = s.proof.notesLost ∧
    (stallExpiryEffect s).freeCount = s.freeCount ∧
    (stallExpiryEffect s).pending = s.pending := by
  simp only [stallExpiryEffect]
  (repeat' split) <;> simp

@[simp] theorem paperOutEffect_keeps (s : State)  :
    (paperOutEffect s).link.mask = s.link.mask ∧
    (paperOutEffect s).link.throttleMs = s.link.throttleMs ∧
    (paperOutEffect s).link.delayMs = s.link.delayMs ∧
    (paperOutEffect s).link.limitMs = s.link.limitMs ∧
    (paperOutEffect s).link.throttle = s.link.throttle ∧
    (paperOutEffect s).link.delayTimer = s.link.delayTimer ∧
    (paperOutEffect s).link.absTimer = s.link.absTimer ∧
    (paperOutEffect s).link.cause = s.link.cause ∧
    (paperOutEffect s).link.replies = s.link.replies ∧
    (paperOutEffect s).link.direction = s.link.direction ∧
    (paperOutEffect s).link.frameBegun = s.link.frameBegun ∧
    (paperOutEffect s).link.discarding = s.link.discarding ∧
    (paperOutEffect s).link.withheld = s.link.withheld ∧
    (paperOutEffect s).fonts = s.fonts ∧
    (paperOutEffect s).turret = s.turret ∧
    (paperOutEffect s).jobs = s.jobs ∧
    (paperOutEffect s).galleyOrder = s.galleyOrder ∧
    (paperOutEffect s).house = s.house ∧
    (paperOutEffect s).houseLocked = s.houseLocked ∧
    (paperOutEffect s).galleyGap = s.galleyGap ∧
    (paperOutEffect s).exposureHead = s.exposureHead ∧
    (paperOutEffect s).proofHead = s.proofHead ∧
    (paperOutEffect s).engine = s.engine ∧
    (paperOutEffect s).languages = s.languages ∧
    (paperOutEffect s).dict = s.dict ∧
    (paperOutEffect s).queue = s.queue ∧
    (paperOutEffect s).expo = s.expo ∧
    (paperOutEffect s).lamp = s.lamp ∧
    (paperOutEffect s).film = s.film ∧
    (paperOutEffect s).proof.state = s.proof.state ∧
    (paperOutEffect s).proof.disablePending = s.proof.disablePending ∧
    (paperOutEffect s).proof.head = s.proof.head ∧
    (paperOutEffect s).proof.named = s.proof.named ∧
    (paperOutEffect s).proof.list = s.proof.list ∧
    (paperOutEffect s).proof.lead = s.proof.lead ∧
    (paperOutEffect s).proof.begun = s.proof.begun ∧
    (paperOutEffect s).proof.gapCount = s.proof.gapCount ∧
    (paperOutEffect s).proof.rate = s.proof.rate ∧
    (paperOutEffect s).proof.lineRate = s.proof.lineRate ∧
    (paperOutEffect s).proof.flowOn = s.proof.flowOn ∧
    (paperOutEffect s).proof.stalled = s.proof.stalled ∧
    (paperOutEffect s).proof.linesPrinted = s.proof.linesPrinted ∧
    (paperOutEffect s).proof.gapsPrinted = s.proof.gapsPrinted ∧
    (paperOutEffect s).proof.reprints = s.proof.reprints ∧
    (paperOutEffect s).proof.notesLost = s.proof.notesLost ∧
    (paperOutEffect s).freeCount = s.freeCount ∧
    (paperOutEffect s).pending = s.pending := by
  simp only [paperOutEffect]
  (repeat' split) <;> simp

@[simp] theorem paperPresentEffect_keeps (s : State)  :
    (paperPresentEffect s).link.mask = s.link.mask ∧
    (paperPresentEffect s).link.throttleMs = s.link.throttleMs ∧
    (paperPresentEffect s).link.delayMs = s.link.delayMs ∧
    (paperPresentEffect s).link.limitMs = s.link.limitMs ∧
    (paperPresentEffect s).link.throttle = s.link.throttle ∧
    (paperPresentEffect s).link.delayTimer = s.link.delayTimer ∧
    (paperPresentEffect s).link.absTimer = s.link.absTimer ∧
    (paperPresentEffect s).link.cause = s.link.cause ∧
    (paperPresentEffect s).link.replies = s.link.replies ∧
    (paperPresentEffect s).link.direction = s.link.direction ∧
    (paperPresentEffect s).link.frameBegun = s.link.frameBegun ∧
    (paperPresentEffect s).link.discarding = s.link.discarding ∧
    (paperPresentEffect s).link.withheld = s.link.withheld ∧
    (paperPresentEffect s).fonts = s.fonts ∧
    (paperPresentEffect s).turret = s.turret ∧
    (paperPresentEffect s).jobs = s.jobs ∧
    (paperPresentEffect s).galleyOrder = s.galleyOrder ∧
    (paperPresentEffect s).house = s.house ∧
    (paperPresentEffect s).houseLocked = s.houseLocked ∧
    (paperPresentEffect s).galleyGap = s.galleyGap ∧
    (paperPresentEffect s).exposureHead = s.exposureHead ∧
    (paperPresentEffect s).proofHead = s.proofHead ∧
    (paperPresentEffect s).engine = s.engine ∧
    (paperPresentEffect s).languages = s.languages ∧
    (paperPresentEffect s).dict = s.dict ∧
    (paperPresentEffect s).queue = s.queue ∧
    (paperPresentEffect s).expo = s.expo ∧
    (paperPresentEffect s).lamp = s.lamp ∧
    (paperPresentEffect s).film = s.film ∧
    (paperPresentEffect s).freeCount = s.freeCount ∧
    (paperPresentEffect s).pending = s.pending := by
  simp only [paperPresentEffect]
  (repeat' split) <;> simp

@[simp] theorem setQueueMarksEffect_keeps (s : State) (a b c d : Nat) :
    ((setQueueMarksEffect a b c d s).1).link.mask = s.link.mask ∧
    ((setQueueMarksEffect a b c d s).1).link.throttleMs = s.link.throttleMs ∧
    ((setQueueMarksEffect a b c d s).1).link.delayMs = s.link.delayMs ∧
    ((setQueueMarksEffect a b c d s).1).link.limitMs = s.link.limitMs ∧
    ((setQueueMarksEffect a b c d s).1).link.throttle = s.link.throttle ∧
    ((setQueueMarksEffect a b c d s).1).link.delayTimer = s.link.delayTimer ∧
    ((setQueueMarksEffect a b c d s).1).link.absTimer = s.link.absTimer ∧
    ((setQueueMarksEffect a b c d s).1).link.cause = s.link.cause ∧
    ((setQueueMarksEffect a b c d s).1).link.replies = s.link.replies ∧
    ((setQueueMarksEffect a b c d s).1).link.direction = s.link.direction ∧
    ((setQueueMarksEffect a b c d s).1).link.frameBegun = s.link.frameBegun ∧
    ((setQueueMarksEffect a b c d s).1).link.discarding = s.link.discarding ∧
    ((setQueueMarksEffect a b c d s).1).link.withheld = s.link.withheld ∧
    ((setQueueMarksEffect a b c d s).1).fonts = s.fonts ∧
    ((setQueueMarksEffect a b c d s).1).turret = s.turret ∧
    ((setQueueMarksEffect a b c d s).1).jobs = s.jobs ∧
    ((setQueueMarksEffect a b c d s).1).galleyOrder = s.galleyOrder ∧
    ((setQueueMarksEffect a b c d s).1).house = s.house ∧
    ((setQueueMarksEffect a b c d s).1).houseLocked = s.houseLocked ∧
    ((setQueueMarksEffect a b c d s).1).galleyGap = s.galleyGap ∧
    ((setQueueMarksEffect a b c d s).1).exposureHead = s.exposureHead ∧
    ((setQueueMarksEffect a b c d s).1).proofHead = s.proofHead ∧
    ((setQueueMarksEffect a b c d s).1).engine = s.engine ∧
    ((setQueueMarksEffect a b c d s).1).languages = s.languages ∧
    ((setQueueMarksEffect a b c d s).1).dict = s.dict ∧
    ((setQueueMarksEffect a b c d s).1).queue.entries = s.queue.entries ∧
    ((setQueueMarksEffect a b c d s).1).queue.nextSerial = s.queue.nextSerial ∧
    ((setQueueMarksEffect a b c d s).1).expo = s.expo ∧
    ((setQueueMarksEffect a b c d s).1).lamp = s.lamp ∧
    ((setQueueMarksEffect a b c d s).1).film = s.film ∧
    ((setQueueMarksEffect a b c d s).1).proof = s.proof ∧
    ((setQueueMarksEffect a b c d s).1).freeCount = s.freeCount ∧
    ((setQueueMarksEffect a b c d s).1).pending = s.pending := by
  simp only [setQueueMarksEffect]
  (repeat' split) <;> simp [refuse, done]

@[simp] theorem attnThrottleExpiryEffect_keeps (s : State)  :
    (attnThrottleExpiryEffect s).link.mask = s.link.mask ∧
    (attnThrottleExpiryEffect s).link.throttleMs = s.link.throttleMs ∧
    (attnThrottleExpiryEffect s).link.delayMs = s.link.delayMs ∧
    (attnThrottleExpiryEffect s).link.limitMs = s.link.limitMs ∧
    (attnThrottleExpiryEffect s).link.delayTimer = s.link.delayTimer ∧
    (attnThrottleExpiryEffect s).link.absTimer = s.link.absTimer ∧
    (attnThrottleExpiryEffect s).link.cause = s.link.cause ∧
    (attnThrottleExpiryEffect s).link.replies = s.link.replies ∧
    (attnThrottleExpiryEffect s).link.direction = s.link.direction ∧
    (attnThrottleExpiryEffect s).link.frameBegun = s.link.frameBegun ∧
    (attnThrottleExpiryEffect s).link.discarding = s.link.discarding ∧
    (attnThrottleExpiryEffect s).link.withheld = s.link.withheld ∧
    (attnThrottleExpiryEffect s).fonts = s.fonts ∧
    (attnThrottleExpiryEffect s).turret = s.turret ∧
    (attnThrottleExpiryEffect s).jobs = s.jobs ∧
    (attnThrottleExpiryEffect s).galleyOrder = s.galleyOrder ∧
    (attnThrottleExpiryEffect s).house = s.house ∧
    (attnThrottleExpiryEffect s).houseLocked = s.houseLocked ∧
    (attnThrottleExpiryEffect s).galleyGap = s.galleyGap ∧
    (attnThrottleExpiryEffect s).exposureHead = s.exposureHead ∧
    (attnThrottleExpiryEffect s).proofHead = s.proofHead ∧
    (attnThrottleExpiryEffect s).engine = s.engine ∧
    (attnThrottleExpiryEffect s).languages = s.languages ∧
    (attnThrottleExpiryEffect s).dict = s.dict ∧
    (attnThrottleExpiryEffect s).queue = s.queue ∧
    (attnThrottleExpiryEffect s).expo = s.expo ∧
    (attnThrottleExpiryEffect s).lamp = s.lamp ∧
    (attnThrottleExpiryEffect s).film = s.film ∧
    (attnThrottleExpiryEffect s).proof = s.proof ∧
    (attnThrottleExpiryEffect s).freeCount = s.freeCount ∧
    (attnThrottleExpiryEffect s).pending = s.pending := by
  simp [attnThrottleExpiryEffect]

@[simp] theorem deliverExposed_keeps (s : State)  :
    (s.deliverExposed).link.mask = s.link.mask ∧
    (s.deliverExposed).link.throttleMs = s.link.throttleMs ∧
    (s.deliverExposed).link.delayMs = s.link.delayMs ∧
    (s.deliverExposed).link.limitMs = s.link.limitMs ∧
    (s.deliverExposed).link.throttle = s.link.throttle ∧
    (s.deliverExposed).link.cause = s.link.cause ∧
    (s.deliverExposed).link.replies = s.link.replies ∧
    (s.deliverExposed).link.direction = s.link.direction ∧
    (s.deliverExposed).link.frameBegun = s.link.frameBegun ∧
    (s.deliverExposed).link.discarding = s.link.discarding ∧
    (s.deliverExposed).link.withheld = s.link.withheld ∧
    (s.deliverExposed).fonts = s.fonts ∧
    (s.deliverExposed).turret = s.turret ∧
    (s.deliverExposed).jobs = s.jobs ∧
    (s.deliverExposed).galleyOrder = s.galleyOrder ∧
    (s.deliverExposed).house = s.house ∧
    (s.deliverExposed).houseLocked = s.houseLocked ∧
    (s.deliverExposed).galleyGap = s.galleyGap ∧
    (s.deliverExposed).exposureHead = s.exposureHead ∧
    (s.deliverExposed).proofHead = s.proofHead ∧
    (s.deliverExposed).engine = s.engine ∧
    (s.deliverExposed).languages = s.languages ∧
    (s.deliverExposed).dict = s.dict ∧
    (s.deliverExposed).queue = s.queue ∧
    (s.deliverExposed).expo = s.expo ∧
    (s.deliverExposed).lamp = s.lamp ∧
    (s.deliverExposed).film = s.film ∧
    (s.deliverExposed).proof = s.proof ∧
    (s.deliverExposed).freeCount = s.freeCount ∧
    (s.deliverExposed).pending = s.pending := by
  simp [State.deliverExposed]

@[simp] theorem delayExpiryEffect_keeps (s : State)  :
    (delayExpiryEffect s).link.mask = s.link.mask ∧
    (delayExpiryEffect s).link.throttleMs = s.link.throttleMs ∧
    (delayExpiryEffect s).link.delayMs = s.link.delayMs ∧
    (delayExpiryEffect s).link.limitMs = s.link.limitMs ∧
    (delayExpiryEffect s).link.throttle = s.link.throttle ∧
    (delayExpiryEffect s).link.cause = s.link.cause ∧
    (delayExpiryEffect s).link.replies = s.link.replies ∧
    (delayExpiryEffect s).link.direction = s.link.direction ∧
    (delayExpiryEffect s).link.frameBegun = s.link.frameBegun ∧
    (delayExpiryEffect s).link.discarding = s.link.discarding ∧
    (delayExpiryEffect s).link.withheld = s.link.withheld ∧
    (delayExpiryEffect s).fonts = s.fonts ∧
    (delayExpiryEffect s).turret = s.turret ∧
    (delayExpiryEffect s).jobs = s.jobs ∧
    (delayExpiryEffect s).galleyOrder = s.galleyOrder ∧
    (delayExpiryEffect s).house = s.house ∧
    (delayExpiryEffect s).houseLocked = s.houseLocked ∧
    (delayExpiryEffect s).galleyGap = s.galleyGap ∧
    (delayExpiryEffect s).exposureHead = s.exposureHead ∧
    (delayExpiryEffect s).proofHead = s.proofHead ∧
    (delayExpiryEffect s).engine = s.engine ∧
    (delayExpiryEffect s).languages = s.languages ∧
    (delayExpiryEffect s).dict = s.dict ∧
    (delayExpiryEffect s).queue = s.queue ∧
    (delayExpiryEffect s).expo = s.expo ∧
    (delayExpiryEffect s).lamp = s.lamp ∧
    (delayExpiryEffect s).film = s.film ∧
    (delayExpiryEffect s).proof = s.proof ∧
    (delayExpiryEffect s).freeCount = s.freeCount ∧
    (delayExpiryEffect s).pending = s.pending := by
  simp only [delayExpiryEffect]
  (repeat' split) <;> simp

@[simp] theorem absoluteExpiryEffect_keeps (s : State)  :
    (absoluteExpiryEffect s).link.mask = s.link.mask ∧
    (absoluteExpiryEffect s).link.throttleMs = s.link.throttleMs ∧
    (absoluteExpiryEffect s).link.delayMs = s.link.delayMs ∧
    (absoluteExpiryEffect s).link.limitMs = s.link.limitMs ∧
    (absoluteExpiryEffect s).link.throttle = s.link.throttle ∧
    (absoluteExpiryEffect s).link.cause = s.link.cause ∧
    (absoluteExpiryEffect s).link.replies = s.link.replies ∧
    (absoluteExpiryEffect s).link.direction = s.link.direction ∧
    (absoluteExpiryEffect s).link.frameBegun = s.link.frameBegun ∧
    (absoluteExpiryEffect s).link.discarding = s.link.discarding ∧
    (absoluteExpiryEffect s).link.withheld = s.link.withheld ∧
    (absoluteExpiryEffect s).fonts = s.fonts ∧
    (absoluteExpiryEffect s).turret = s.turret ∧
    (absoluteExpiryEffect s).jobs = s.jobs ∧
    (absoluteExpiryEffect s).galleyOrder = s.galleyOrder ∧
    (absoluteExpiryEffect s).house = s.house ∧
    (absoluteExpiryEffect s).houseLocked = s.houseLocked ∧
    (absoluteExpiryEffect s).galleyGap = s.galleyGap ∧
    (absoluteExpiryEffect s).exposureHead = s.exposureHead ∧
    (absoluteExpiryEffect s).proofHead = s.proofHead ∧
    (absoluteExpiryEffect s).engine = s.engine ∧
    (absoluteExpiryEffect s).languages = s.languages ∧
    (absoluteExpiryEffect s).dict = s.dict ∧
    (absoluteExpiryEffect s).queue = s.queue ∧
    (absoluteExpiryEffect s).expo = s.expo ∧
    (absoluteExpiryEffect s).lamp = s.lamp ∧
    (absoluteExpiryEffect s).film = s.film ∧
    (absoluteExpiryEffect s).proof = s.proof ∧
    (absoluteExpiryEffect s).freeCount = s.freeCount ∧
    (absoluteExpiryEffect s).pending = s.pending := by
  simp only [absoluteExpiryEffect]
  (repeat' split) <;> simp

@[simp] theorem removeAll_keeps (s : State) (l : List Entry) :
    (l.foldl State.removeEntry s).link = s.link ∧
    (l.foldl State.removeEntry s).turret.position = s.turret.position ∧
    (l.foldl State.removeEntry s).turret.motion = s.turret.motion ∧
    (l.foldl State.removeEntry s).turret.pass = s.turret.pass ∧
    (l.foldl State.removeEntry s).turret.latchEngaged = s.turret.latchEngaged ∧
    (l.foldl State.removeEntry s).turret.hatchOpen = s.turret.hatchOpen ∧
    (l.foldl State.removeEntry s).turret.hatchMark = s.turret.hatchMark ∧
    (l.foldl State.removeEntry s).turret.exchange = s.turret.exchange ∧
    (l.foldl State.removeEntry s).turret.cancelPending = s.turret.cancelPending ∧
    (l.foldl State.removeEntry s).turret.read = s.turret.read ∧
    (l.foldl State.removeEntry s).turret.protection = s.turret.protection ∧
    (l.foldl State.removeEntry s).turret.lineOpen = s.turret.lineOpen ∧
    (l.foldl State.removeEntry s).turret.lineEndDue = s.turret.lineEndDue ∧
    (l.foldl State.removeEntry s).turret.stations.length = s.turret.stations.length ∧
    (l.foldl State.removeEntry s).jobs = s.jobs ∧
    (l.foldl State.removeEntry s).galleyOrder = s.galleyOrder ∧
    (l.foldl State.removeEntry s).house = s.house ∧
    (l.foldl State.removeEntry s).houseLocked = s.houseLocked ∧
    (l.foldl State.removeEntry s).galleyGap = s.galleyGap ∧
    (l.foldl State.removeEntry s).exposureHead = s.exposureHead ∧
    (l.foldl State.removeEntry s).proofHead = s.proofHead ∧
    (l.foldl State.removeEntry s).engine = s.engine ∧
    (l.foldl State.removeEntry s).languages = s.languages ∧
    (l.foldl State.removeEntry s).dict = s.dict ∧
    (l.foldl State.removeEntry s).queue.nextSerial = s.queue.nextSerial ∧
    (l.foldl State.removeEntry s).queue.entryHigh = s.queue.entryHigh ∧
    (l.foldl State.removeEntry s).queue.entryLow = s.queue.entryLow ∧
    (l.foldl State.removeEntry s).queue.glyphHigh = s.queue.glyphHigh ∧
    (l.foldl State.removeEntry s).queue.glyphLow = s.queue.glyphLow ∧
    (l.foldl State.removeEntry s).queue.highWater = s.queue.highWater ∧
    (l.foldl State.removeEntry s).expo = s.expo ∧
    (l.foldl State.removeEntry s).lamp = s.lamp ∧
    (l.foldl State.removeEntry s).film = s.film ∧
    (l.foldl State.removeEntry s).proof = s.proof ∧
    (l.foldl State.removeEntry s).freeCount = s.freeCount ∧
    (l.foldl State.removeEntry s).pending = s.pending := by
  exact ⟨by exact foldl_keeps (P := fun s : State => s.link) (fun s n => by simp) _ _, by exact foldl_keeps (P := fun s : State => s.turret.position) (fun s n => by simp) _ _, by exact foldl_keeps (P := fun s : State => s.turret.motion) (fun s n => by simp) _ _, by exact foldl_keeps (P := fun s : State => s.turret.pass) (fun s n => by simp) _ _, by exact foldl_keeps (P := fun s : State => s.turret.latchEngaged) (fun s n => by simp) _ _, by exact foldl_keeps (P := fun s : State => s.turret.hatchOpen) (fun s n => by simp) _ _, by exact foldl_keeps (P := fun s : State => s.turret.hatchMark) (fun s n => by simp) _ _, by exact foldl_keeps (P := fun s : State => s.turret.exchange) (fun s n => by simp) _ _, by exact foldl_keeps (P := fun s : State => s.turret.cancelPending) (fun s n => by simp) _ _, by exact foldl_keeps (P := fun s : State => s.turret.read) (fun s n => by simp) _ _, by exact foldl_keeps (P := fun s : State => s.turret.protection) (fun s n => by simp) _ _, by exact foldl_keeps (P := fun s : State => s.turret.lineOpen) (fun s n => by simp) _ _, by exact foldl_keeps (P := fun s : State => s.turret.lineEndDue) (fun s n => by simp) _ _, by exact foldl_keeps (P := fun s : State => s.turret.stations.length) (fun s n => by simp) _ _, by exact foldl_keeps (P := fun s : State => s.jobs) (fun s n => by simp) _ _, by exact foldl_keeps (P := fun s : State => s.galleyOrder) (fun s n => by simp) _ _, by exact foldl_keeps (P := fun s : State => s.house) (fun s n => by simp) _ _, by exact foldl_keeps (P := fun s : State => s.houseLocked) (fun s n => by simp) _ _, by exact foldl_keeps (P := fun s : State => s.galleyGap) (fun s n => by simp) _ _, by exact foldl_keeps (P := fun s : State => s.exposureHead) (fun s n => by simp) _ _, by exact foldl_keeps (P := fun s : State => s.proofHead) (fun s n => by simp) _ _, by exact foldl_keeps (P := fun s : State => s.engine) (fun s n => by simp) _ _, by exact foldl_keeps (P := fun s : State => s.languages) (fun s n => by simp) _ _, by exact foldl_keeps (P := fun s : State => s.dict) (fun s n => by simp) _ _, by exact foldl_keeps (P := fun s : State => s.queue.nextSerial) (fun s n => by simp) _ _, by exact foldl_keeps (P := fun s : State => s.queue.entryHigh) (fun s n => by simp) _ _, by exact foldl_keeps (P := fun s : State => s.queue.entryLow) (fun s n => by simp) _ _, by exact foldl_keeps (P := fun s : State => s.queue.glyphHigh) (fun s n => by simp) _ _, by exact foldl_keeps (P := fun s : State => s.queue.glyphLow) (fun s n => by simp) _ _, by exact foldl_keeps (P := fun s : State => s.queue.highWater) (fun s n => by simp) _ _, by exact foldl_keeps (P := fun s : State => s.expo) (fun s n => by simp) _ _, by exact foldl_keeps (P := fun s : State => s.lamp) (fun s n => by simp) _ _, by exact foldl_keeps (P := fun s : State => s.film) (fun s n => by simp) _ _, by exact foldl_keeps (P := fun s : State => s.proof) (fun s n => by simp) _ _, by exact foldl_keeps (P := fun s : State => s.freeCount) (fun s n => by simp) _ _, by exact foldl_keeps (P := fun s : State => s.pending) (fun s n => by simp) _ _⟩

@[simp] theorem clearQueue_keeps (s : State)  :
    (s.clearQueue).link = s.link ∧
    (s.clearQueue).turret.position = s.turret.position ∧
    (s.clearQueue).turret.motion = s.turret.motion ∧
    (s.clearQueue).turret.pass = s.turret.pass ∧
    (s.clearQueue).turret.latchEngaged = s.turret.latchEngaged ∧
    (s.clearQueue).turret.hatchOpen = s.turret.hatchOpen ∧
    (s.clearQueue).turret.hatchMark = s.turret.hatchMark ∧
    (s.clearQueue).turret.exchange = s.turret.exchange ∧
    (s.clearQueue).turret.cancelPending = s.turret.cancelPending ∧
    (s.clearQueue).turret.read = s.turret.read ∧
    (s.clearQueue).turret.protection = s.turret.protection ∧
    (s.clearQueue).turret.lineOpen = s.turret.lineOpen ∧
    (s.clearQueue).turret.lineEndDue = s.turret.lineEndDue ∧
    (s.clearQueue).turret.stations.length = s.turret.stations.length ∧
    (s.clearQueue).jobs = s.jobs ∧
    (s.clearQueue).galleyOrder = s.galleyOrder ∧
    (s.clearQueue).house = s.house ∧
    (s.clearQueue).houseLocked = s.houseLocked ∧
    (s.clearQueue).galleyGap = s.galleyGap ∧
    (s.clearQueue).exposureHead = s.exposureHead ∧
    (s.clearQueue).proofHead = s.proofHead ∧
    (s.clearQueue).engine = s.engine ∧
    (s.clearQueue).languages = s.languages ∧
    (s.clearQueue).dict = s.dict ∧
    (s.clearQueue).queue.nextSerial = s.queue.nextSerial ∧
    (s.clearQueue).queue.entryHigh = s.queue.entryHigh ∧
    (s.clearQueue).queue.entryLow = s.queue.entryLow ∧
    (s.clearQueue).queue.glyphHigh = s.queue.glyphHigh ∧
    (s.clearQueue).queue.glyphLow = s.queue.glyphLow ∧
    (s.clearQueue).expo = s.expo ∧
    (s.clearQueue).lamp = s.lamp ∧
    (s.clearQueue).film = s.film ∧
    (s.clearQueue).proof = s.proof ∧
    (s.clearQueue).freeCount = s.freeCount ∧
    (s.clearQueue).pending = s.pending := by
  simp [State.clearQueue]

@[simp] theorem withdrawLine_keeps (s : State)  :
    (s.withdrawLine).link = s.link ∧
    (s.withdrawLine).fonts = s.fonts ∧
    (s.withdrawLine).turret = s.turret ∧
    (s.withdrawLine).jobs = s.jobs ∧
    (s.withdrawLine).galleyOrder = s.galleyOrder ∧
    (s.withdrawLine).house = s.house ∧
    (s.withdrawLine).houseLocked = s.houseLocked ∧
    (s.withdrawLine).galleyGap = s.galleyGap ∧
    (s.withdrawLine).exposureHead = s.exposureHead ∧
    (s.withdrawLine).proofHead = s.proofHead ∧
    (s.withdrawLine).engine = s.engine ∧
    (s.withdrawLine).languages = s.languages ∧
    (s.withdrawLine).dict = s.dict ∧
    (s.withdrawLine).queue.nextSerial = s.queue.nextSerial ∧
    (s.withdrawLine).queue.entryHigh = s.queue.entryHigh ∧
    (s.withdrawLine).queue.entryLow = s.queue.entryLow ∧
    (s.withdrawLine).queue.glyphHigh = s.queue.glyphHigh ∧
    (s.withdrawLine).queue.glyphLow = s.queue.glyphLow ∧
    (s.withdrawLine).queue.highWater = s.queue.highWater ∧
    (s.withdrawLine).expo = s.expo ∧
    (s.withdrawLine).lamp = s.lamp ∧
    (s.withdrawLine).film = s.film ∧
    (s.withdrawLine).proof = s.proof ∧
    (s.withdrawLine).freeCount = s.freeCount ∧
    (s.withdrawLine).pending = s.pending := by
  simp [State.withdrawLine]

@[simp] theorem discardAll_keeps (s : State) (l : List Nat) :
    (l.foldl State.discardLine s).link = s.link ∧
    (l.foldl State.discardLine s).turret.position = s.turret.position ∧
    (l.foldl State.discardLine s).turret.motion = s.turret.motion ∧
    (l.foldl State.discardLine s).turret.pass = s.turret.pass ∧
    (l.foldl State.discardLine s).turret.latchEngaged = s.turret.latchEngaged ∧
    (l.foldl State.discardLine s).turret.hatchOpen = s.turret.hatchOpen ∧
    (l.foldl State.discardLine s).turret.hatchMark = s.turret.hatchMark ∧
    (l.foldl State.discardLine s).turret.exchange = s.turret.exchange ∧
    (l.foldl State.discardLine s).turret.cancelPending = s.turret.cancelPending ∧
    (l.foldl State.discardLine s).turret.read = s.turret.read ∧
    (l.foldl State.discardLine s).turret.protection = s.turret.protection ∧
    (l.foldl State.discardLine s).turret.lineOpen = s.turret.lineOpen ∧
    (l.foldl State.discardLine s).turret.lineEndDue = s.turret.lineEndDue ∧
    (l.foldl State.discardLine s).turret.stations.length = s.turret.stations.length ∧
    (l.foldl State.discardLine s).jobs.length = s.jobs.length ∧
    (l.foldl State.discardLine s).galleyOrder = s.galleyOrder ∧
    (l.foldl State.discardLine s).house = s.house ∧
    (l.foldl State.discardLine s).houseLocked = s.houseLocked ∧
    (l.foldl State.discardLine s).galleyGap = s.galleyGap ∧
    (l.foldl State.discardLine s).exposureHead = s.exposureHead ∧
    (l.foldl State.discardLine s).proofHead = s.proofHead ∧
    (l.foldl State.discardLine s).engine = s.engine ∧
    (l.foldl State.discardLine s).languages = s.languages ∧
    (l.foldl State.discardLine s).dict = s.dict ∧
    (l.foldl State.discardLine s).queue = s.queue ∧
    (l.foldl State.discardLine s).expo = s.expo ∧
    (l.foldl State.discardLine s).lamp = s.lamp ∧
    (l.foldl State.discardLine s).film = s.film ∧
    (l.foldl State.discardLine s).proof = s.proof ∧
    (l.foldl State.discardLine s).freeCount = s.freeCount ∧
    (l.foldl State.discardLine s).pending = s.pending := by
  exact ⟨by exact foldl_keeps (P := fun s : State => s.link) (fun s n => by simp) _ _, by exact foldl_keeps (P := fun s : State => s.turret.position) (fun s n => by simp) _ _, by exact foldl_keeps (P := fun s : State => s.turret.motion) (fun s n => by simp) _ _, by exact foldl_keeps (P := fun s : State => s.turret.pass) (fun s n => by simp) _ _, by exact foldl_keeps (P := fun s : State => s.turret.latchEngaged) (fun s n => by simp) _ _, by exact foldl_keeps (P := fun s : State => s.turret.hatchOpen) (fun s n => by simp) _ _, by exact foldl_keeps (P := fun s : State => s.turret.hatchMark) (fun s n => by simp) _ _, by exact foldl_keeps (P := fun s : State => s.turret.exchange) (fun s n => by simp) _ _, by exact foldl_keeps (P := fun s : State => s.turret.cancelPending) (fun s n => by simp) _ _, by exact foldl_keeps (P := fun s : State => s.turret.read) (fun s n => by simp) _ _, by exact foldl_keeps (P := fun s : State => s.turret.protection) (fun s n => by simp) _ _, by exact foldl_keeps (P := fun s : State => s.turret.lineOpen) (fun s n => by simp) _ _, by exact foldl_keeps (P := fun s : State => s.turret.lineEndDue) (fun s n => by simp) _ _, by exact foldl_keeps (P := fun s : State => s.turret.stations.length) (fun s n => by simp) _ _, by exact foldl_keeps (P := fun s : State => s.jobs.length) (fun s n => by simp) _ _, by exact foldl_keeps (P := fun s : State => s.galleyOrder) (fun s n => by simp) _ _, by exact foldl_keeps (P := fun s : State => s.house) (fun s n => by simp) _ _, by exact foldl_keeps (P := fun s : State => s.houseLocked) (fun s n => by simp) _ _, by exact foldl_keeps (P := fun s : State => s.galleyGap) (fun s n => by simp) _ _, by exact foldl_keeps (P := fun s : State => s.exposureHead) (fun s n => by simp) _ _, by exact foldl_keeps (P := fun s : State => s.proofHead) (fun s n => by simp) _ _, by exact foldl_keeps (P := fun s : State => s.engine) (fun s n => by simp) _ _, by exact foldl_keeps (P := fun s : State => s.languages) (fun s n => by simp) _ _, by exact foldl_keeps (P := fun s : State => s.dict) (fun s n => by simp) _ _, by exact foldl_keeps (P := fun s : State => s.queue) (fun s n => by simp) _ _, by exact foldl_keeps (P := fun s : State => s.expo) (fun s n => by simp) _ _, by exact foldl_keeps (P := fun s : State => s.lamp) (fun s n => by simp) _ _, by exact foldl_keeps (P := fun s : State => s.film) (fun s n => by simp) _ _, by exact foldl_keeps (P := fun s : State => s.proof) (fun s n => by simp) _ _, by exact foldl_keeps (P := fun s : State => s.freeCount) (fun s n => by simp) _ _, by exact foldl_keeps (P := fun s : State => s.pending) (fun s n => by simp) _ _⟩

@[simp] theorem resetCompositionEffect_keeps (s : State)  :
    ((resetCompositionEffect s).1).link.mask = s.link.mask ∧
    ((resetCompositionEffect s).1).link.throttleMs = s.link.throttleMs ∧
    ((resetCompositionEffect s).1).link.delayMs = s.link.delayMs ∧
    ((resetCompositionEffect s).1).link.limitMs = s.link.limitMs ∧
    ((resetCompositionEffect s).1).link.throttle = s.link.throttle ∧
    ((resetCompositionEffect s).1).link.delayTimer = s.link.delayTimer ∧
    ((resetCompositionEffect s).1).link.absTimer = s.link.absTimer ∧
    ((resetCompositionEffect s).1).link.replies = s.link.replies ∧
    ((resetCompositionEffect s).1).link.direction = s.link.direction ∧
    ((resetCompositionEffect s).1).link.frameBegun = s.link.frameBegun ∧
    ((resetCompositionEffect s).1).link.discarding = s.link.discarding ∧
    ((resetCompositionEffect s).1).link.withheld = s.link.withheld ∧
    ((resetCompositionEffect s).1).turret.position = s.turret.position ∧
    ((resetCompositionEffect s).1).turret.motion = s.turret.motion ∧
    ((resetCompositionEffect s).1).turret.pass = s.turret.pass ∧
    ((resetCompositionEffect s).1).turret.latchEngaged = s.turret.latchEngaged ∧
    ((resetCompositionEffect s).1).turret.hatchOpen = s.turret.hatchOpen ∧
    ((resetCompositionEffect s).1).turret.hatchMark = s.turret.hatchMark ∧
    ((resetCompositionEffect s).1).turret.exchange = s.turret.exchange ∧
    ((resetCompositionEffect s).1).turret.cancelPending = s.turret.cancelPending ∧
    ((resetCompositionEffect s).1).turret.read = s.turret.read ∧
    ((resetCompositionEffect s).1).turret.protection = s.turret.protection ∧
    ((resetCompositionEffect s).1).turret.lineOpen = s.turret.lineOpen ∧
    ((resetCompositionEffect s).1).turret.lineEndDue = s.turret.lineEndDue ∧
    ((resetCompositionEffect s).1).turret.stations.length = s.turret.stations.length ∧
    ((resetCompositionEffect s).1).jobs.length = s.jobs.length ∧
    ((resetCompositionEffect s).1).house = s.house ∧
    ((resetCompositionEffect s).1).houseLocked = s.houseLocked ∧
    ((resetCompositionEffect s).1).galleyGap = s.galleyGap ∧
    ((resetCompositionEffect s).1).languages = s.languages ∧
    ((resetCompositionEffect s).1).queue.nextSerial = s.queue.nextSerial ∧
    ((resetCompositionEffect s).1).queue.entryHigh = s.queue.entryHigh ∧
    ((resetCompositionEffect s).1).queue.entryLow = s.queue.entryLow ∧
    ((resetCompositionEffect s).1).queue.glyphHigh = s.queue.glyphHigh ∧
    ((resetCompositionEffect s).1).queue.glyphLow = s.queue.glyphLow ∧
    ((resetCompositionEffect s).1).expo.stops = s.expo.stops ∧
    ((resetCompositionEffect s).1).expo.holdRequest = s.expo.holdRequest ∧
    ((resetCompositionEffect s).1).expo.lastExposed = s.expo.lastExposed ∧
    ((resetCompositionEffect s).1).expo.linesExposed = s.expo.linesExposed ∧
    ((resetCompositionEffect s).1).expo.linesSpoiled = s.expo.linesSpoiled ∧
    ((resetCompositionEffect s).1).expo.lens = s.expo.lens ∧
    ((resetCompositionEffect s).1).expo.lensTarget = s.expo.lensTarget ∧
    ((resetCompositionEffect s).1).expo.carriage = s.expo.carriage ∧
    ((resetCompositionEffect s).1).expo.carriageTarget = s.expo.carriageTarget ∧
    ((resetCompositionEffect s).1).expo.flashing = s.expo.flashing ∧
    ((resetCompositionEffect s).1).expo.lastDuration = s.expo.lastDuration ∧
    ((resetCompositionEffect s).1).expo.lastClamped = s.expo.lastClamped ∧
    ((resetCompositionEffect s).1).lamp = s.lamp ∧
    ((resetCompositionEffect s).1).film.loaded = s.film.loaded ∧
    ((resetCompositionEffect s).1).film.baseline = s.film.baseline ∧
    ((resetCompositionEffect s).1).film.highMark = s.film.highMark ∧
    ((resetCompositionEffect s).1).film.origin = s.film.origin ∧
    ((resetCompositionEffect s).1).film.lowThreshold = s.film.lowThreshold ∧
    ((resetCompositionEffect s).1).film.lowCondition = s.film.lowCondition ∧
    ((resetCompositionEffect s).1).film.state = s.film.state ∧
    ((resetCompositionEffect s).1).film.mover = s.film.mover ∧
    ((resetCompositionEffect s).1).film.target = s.film.target ∧
    ((resetCompositionEffect s).1).film.trims = s.film.trims ∧
    ((resetCompositionEffect s).1).film.measured = s.film.measured ∧
    ((resetCompositionEffect s).1).film.present = s.film.present ∧
    ((resetCompositionEffect s).1).film.coverOpen = s.film.coverOpen ∧
    ((resetCompositionEffect s).1).film.cuts = s.film.cuts ∧
    ((resetCompositionEffect s).1).film.jams = s.film.jams ∧
    ((resetCompositionEffect s).1).film.lastCut = s.film.lastCut ∧
    ((resetCompositionEffect s).1).freeCount = s.freeCount ∧
    ((resetCompositionEffect s).1).pending = s.pending := by
  simp only [resetCompositionEffect]
  (repeat' split) <;> simp [refuse, done]

@[simp] theorem discardQuietEffect_keeps (s : State)  :
    (discardQuietEffect s).link.mask = s.link.mask ∧
    (discardQuietEffect s).link.throttleMs = s.link.throttleMs ∧
    (discardQuietEffect s).link.delayMs = s.link.delayMs ∧
    (discardQuietEffect s).link.limitMs = s.link.limitMs ∧
    (discardQuietEffect s).link.throttle = s.link.throttle ∧
    (discardQuietEffect s).link.delayTimer = s.link.delayTimer ∧
    (discardQuietEffect s).link.absTimer = s.link.absTimer ∧
    (discardQuietEffect s).link.cause = s.link.cause ∧
    (discardQuietEffect s).link.replies = s.link.replies ∧
    (discardQuietEffect s).link.direction = s.link.direction ∧
    (discardQuietEffect s).link.frameBegun = s.link.frameBegun ∧
    (discardQuietEffect s).link.withheld = s.link.withheld ∧
    (discardQuietEffect s).fonts = s.fonts ∧
    (discardQuietEffect s).turret = s.turret ∧
    (discardQuietEffect s).jobs = s.jobs ∧
    (discardQuietEffect s).galleyOrder = s.galleyOrder ∧
    (discardQuietEffect s).house = s.house ∧
    (discardQuietEffect s).houseLocked = s.houseLocked ∧
    (discardQuietEffect s).galleyGap = s.galleyGap ∧
    (discardQuietEffect s).exposureHead = s.exposureHead ∧
    (discardQuietEffect s).proofHead = s.proofHead ∧
    (discardQuietEffect s).engine = s.engine ∧
    (discardQuietEffect s).languages = s.languages ∧
    (discardQuietEffect s).dict = s.dict ∧
    (discardQuietEffect s).queue = s.queue ∧
    (discardQuietEffect s).expo = s.expo ∧
    (discardQuietEffect s).lamp = s.lamp ∧
    (discardQuietEffect s).film = s.film ∧
    (discardQuietEffect s).proof = s.proof ∧
    (discardQuietEffect s).freeCount = s.freeCount ∧
    (discardQuietEffect s).pending = s.pending := by
  simp [discardQuietEffect]

theorem reactFree_keeps {s t : State}  (h : s.reactFree = some t) :
    t.link.mask = s.link.mask ∧
    t.link.throttleMs = s.link.throttleMs ∧
    t.link.delayMs = s.link.delayMs ∧
    t.link.limitMs = s.link.limitMs ∧
    t.link.throttle = s.link.throttle ∧
    t.link.delayTimer = s.link.delayTimer ∧
    t.link.absTimer = s.link.absTimer ∧
    t.link.cause = s.link.cause ∧
    t.link.replies = s.link.replies ∧
    t.link.direction = s.link.direction ∧
    t.link.frameBegun = s.link.frameBegun ∧
    t.link.discarding = s.link.discarding ∧
    t.link.withheld = s.link.withheld ∧
    t.fonts = s.fonts ∧
    t.turret = s.turret ∧
    t.jobs.length = s.jobs.length ∧
    t.house = s.house ∧
    t.houseLocked = s.houseLocked ∧
    t.galleyGap = s.galleyGap ∧
    t.exposureHead = s.exposureHead ∧
    t.proofHead = s.proofHead ∧
    t.engine = s.engine ∧
    t.languages = s.languages ∧
    t.queue = s.queue ∧
    t.expo = s.expo ∧
    t.lamp = s.lamp ∧
    t.film.loaded = s.film.loaded ∧
    t.film.baseline = s.film.baseline ∧
    t.film.highMark = s.film.highMark ∧
    t.film.origin = s.film.origin ∧
    t.film.lowThreshold = s.film.lowThreshold ∧
    t.film.lowCondition = s.film.lowCondition ∧
    t.film.state = s.film.state ∧
    t.film.mover = s.film.mover ∧
    t.film.target = s.film.target ∧
    t.film.trims = s.film.trims ∧
    t.film.measured = s.film.measured ∧
    t.film.present = s.film.present ∧
    t.film.coverOpen = s.film.coverOpen ∧
    t.film.cuts = s.film.cuts ∧
    t.film.jams = s.film.jams ∧
    t.film.lastCut = s.film.lastCut ∧
    t.proof = s.proof ∧
    t.freeCount = s.freeCount ∧
    t.pending = s.pending := by
  ((simp only [State.reactFree, Option.map_eq_some_iff] at h; obtain ⟨n, _, rfl⟩ := h; simp))

theorem reactHeads_keeps {s t : State}  (h : s.reactHeads = some t) :
    t.link = s.link ∧
    t.fonts = s.fonts ∧
    t.turret = s.turret ∧
    t.jobs = s.jobs ∧
    t.galleyOrder = s.galleyOrder ∧
    t.house = s.house ∧
    t.houseLocked = s.houseLocked ∧
    t.galleyGap = s.galleyGap ∧
    t.engine = s.engine ∧
    t.languages = s.languages ∧
    t.dict = s.dict ∧
    t.queue = s.queue ∧
    t.expo.state = s.expo.state ∧
    t.expo.stops = s.expo.stops ∧
    t.expo.holdRequest = s.expo.holdRequest ∧
    t.expo.flight = s.expo.flight ∧
    t.expo.lastExposed = s.expo.lastExposed ∧
    t.expo.linesExposed = s.expo.linesExposed ∧
    t.expo.linesSpoiled = s.expo.linesSpoiled ∧
    t.expo.lens = s.expo.lens ∧
    t.expo.lensTarget = s.expo.lensTarget ∧
    t.expo.carriage = s.expo.carriage ∧
    t.expo.carriageTarget = s.expo.carriageTarget ∧
    t.expo.flashing = s.expo.flashing ∧
    t.expo.lastDuration = s.expo.lastDuration ∧
    t.expo.lastClamped = s.expo.lastClamped ∧
    t.lamp = s.lamp ∧
    t.film = s.film ∧
    t.proof.state = s.proof.state ∧
    t.proof.disablePending = s.proof.disablePending ∧
    t.proof.list = s.proof.list ∧
    t.proof.sent = s.proof.sent ∧
    t.proof.lead = s.proof.lead ∧
    t.proof.begun = s.proof.begun ∧
    t.proof.reprint = s.proof.reprint ∧
    t.proof.transit = s.proof.transit ∧
    t.proof.gapCount = s.proof.gapCount ∧
    t.proof.rate = s.proof.rate ∧
    t.proof.lineRate = s.proof.lineRate ∧
    t.proof.flowOn = s.proof.flowOn ∧
    t.proof.paperOut = s.proof.paperOut ∧
    t.proof.stalled = s.proof.stalled ∧
    t.proof.stallTimer = s.proof.stallTimer ∧
    t.proof.linesPrinted = s.proof.linesPrinted ∧
    t.proof.gapsPrinted = s.proof.gapsPrinted ∧
    t.proof.reprints = s.proof.reprints ∧
    t.proof.notesLost = s.proof.notesLost ∧
    t.freeCount = s.freeCount ∧
    t.pending = s.pending := by
  ((simp only [State.reactHeads] at h; split at h <;> simp at h; subst h; simp))

theorem offerWaiting_keeps {s t : State}  (h : s.offerWaiting = some t) :
    t.link.mask = s.link.mask ∧
    t.link.throttleMs = s.link.throttleMs ∧
    t.link.delayMs = s.link.delayMs ∧
    t.link.limitMs = s.link.limitMs ∧
    t.link.throttle = s.link.throttle ∧
    t.link.delayTimer = s.link.delayTimer ∧
    t.link.absTimer = s.link.absTimer ∧
    t.link.cause = s.link.cause ∧
    t.link.replies = s.link.replies ∧
    t.link.direction = s.link.direction ∧
    t.link.frameBegun = s.link.frameBegun ∧
    t.link.discarding = s.link.discarding ∧
    t.link.withheld = s.link.withheld ∧
    t.turret.position = s.turret.position ∧
    t.turret.motion = s.turret.motion ∧
    t.turret.pass = s.turret.pass ∧
    t.turret.latchEngaged = s.turret.latchEngaged ∧
    t.turret.hatchOpen = s.turret.hatchOpen ∧
    t.turret.hatchMark = s.turret.hatchMark ∧
    t.turret.exchange = s.turret.exchange ∧
    t.turret.cancelPending = s.turret.cancelPending ∧
    t.turret.read = s.turret.read ∧
    t.turret.protection = s.turret.protection ∧
    t.turret.lineOpen = s.turret.lineOpen ∧
    t.turret.lineEndDue = s.turret.lineEndDue ∧
    t.turret.stations.length = s.turret.stations.length ∧
    t.jobs.length = s.jobs.length ∧
    t.galleyOrder = s.galleyOrder ∧
    t.house = s.house ∧
    t.houseLocked = s.houseLocked ∧
    t.galleyGap = s.galleyGap ∧
    t.exposureHead = s.exposureHead ∧
    t.proofHead = s.proofHead ∧
    t.engine = s.engine ∧
    t.languages = s.languages ∧
    t.dict = s.dict ∧
    t.queue.entryHigh = s.queue.entryHigh ∧
    t.queue.entryLow = s.queue.entryLow ∧
    t.queue.glyphHigh = s.queue.glyphHigh ∧
    t.queue.glyphLow = s.queue.glyphLow ∧
    t.expo = s.expo ∧
    t.lamp = s.lamp ∧
    t.film = s.film ∧
    t.proof = s.proof ∧
    t.freeCount = s.freeCount ∧
    t.pending = s.pending := by
  ((simp only [State.offerWaiting] at h; obtain ⟨n, _, h⟩ := List.exists_of_findSome?_eq_some h; split at h <;> simp at h; obtain ⟨_, h⟩ := h; subst h; split <;> simp))

theorem chooseTurn_keeps {s t : State}  (h : s.chooseTurn = some t) :
    t.link = s.link ∧
    t.fonts = s.fonts ∧
    t.turret = s.turret ∧
    t.jobs = s.jobs ∧
    t.galleyOrder = s.galleyOrder ∧
    t.house = s.house ∧
    t.houseLocked = s.houseLocked ∧
    t.galleyGap = s.galleyGap ∧
    t.exposureHead = s.exposureHead ∧
    t.proofHead = s.proofHead ∧
    t.languages = s.languages ∧
    t.dict = s.dict ∧
    t.queue = s.queue ∧
    t.expo = s.expo ∧
    t.lamp = s.lamp ∧
    t.film = s.film ∧
    t.proof = s.proof ∧
    t.freeCount = s.freeCount ∧
    t.pending = s.pending := by
  ((simp only [State.chooseTurn] at h; split at h <;> simp at h; obtain ⟨n, _, rfl⟩ := h; simp))

theorem reactLamp_keeps {s t : State}  (h : s.reactLamp = some t) :
    t.link = s.link ∧
    t.fonts = s.fonts ∧
    t.turret = s.turret ∧
    t.jobs = s.jobs ∧
    t.galleyOrder = s.galleyOrder ∧
    t.house = s.house ∧
    t.houseLocked = s.houseLocked ∧
    t.galleyGap = s.galleyGap ∧
    t.exposureHead = s.exposureHead ∧
    t.proofHead = s.proofHead ∧
    t.engine = s.engine ∧
    t.languages = s.languages ∧
    t.dict = s.dict ∧
    t.queue = s.queue ∧
    t.expo.stops = s.expo.stops ∧
    t.expo.holdRequest = s.expo.holdRequest ∧
    t.expo.flight = s.expo.flight ∧
    t.expo.named = s.expo.named ∧
    t.expo.lastExposed = s.expo.lastExposed ∧
    t.expo.linesExposed = s.expo.linesExposed ∧
    t.expo.linesSpoiled = s.expo.linesSpoiled ∧
    t.expo.lens = s.expo.lens ∧
    t.expo.lensTarget = s.expo.lensTarget ∧
    t.expo.carriage = s.expo.carriage ∧
    t.expo.carriageTarget = s.expo.carriageTarget ∧
    t.expo.flashing = s.expo.flashing ∧
    t.expo.lastDuration = s.expo.lastDuration ∧
    t.expo.lastClamped = s.expo.lastClamped ∧
    t.lamp = s.lamp ∧
    t.film = s.film ∧
    t.proof = s.proof ∧
    t.freeCount = s.freeCount ∧
    t.pending = s.pending := by
  ((simp only [State.reactLamp] at h; (repeat' split at h) <;> simp at h <;> subst h <;> simp))

theorem select_keeps {s t : State} (fl : Flight) (r : Run) (h : s.select fl r = some t) :
    t.link = s.link ∧
    t.fonts = s.fonts ∧
    t.turret.position = s.turret.position ∧
    t.turret.pass = s.turret.pass ∧
    t.turret.latchEngaged = s.turret.latchEngaged ∧
    t.turret.hatchOpen = s.turret.hatchOpen ∧
    t.turret.hatchMark = s.turret.hatchMark ∧
    t.turret.exchange = s.turret.exchange ∧
    t.turret.cancelPending = s.turret.cancelPending ∧
    t.turret.read = s.turret.read ∧
    t.turret.protection = s.turret.protection ∧
    t.turret.lineOpen = s.turret.lineOpen ∧
    t.turret.lineEndDue = s.turret.lineEndDue ∧
    t.turret.stations.length = s.turret.stations.length ∧
    t.jobs = s.jobs ∧
    t.galleyOrder = s.galleyOrder ∧
    t.house = s.house ∧
    t.houseLocked = s.houseLocked ∧
    t.galleyGap = s.galleyGap ∧
    t.exposureHead = s.exposureHead ∧
    t.proofHead = s.proofHead ∧
    t.engine = s.engine ∧
    t.languages = s.languages ∧
    t.dict = s.dict ∧
    t.queue = s.queue ∧
    t.expo.stops = s.expo.stops ∧
    t.expo.holdRequest = s.expo.holdRequest ∧
    t.expo.named = s.expo.named ∧
    t.expo.lastExposed = s.expo.lastExposed ∧
    t.expo.linesExposed = s.expo.linesExposed ∧
    t.expo.linesSpoiled = s.expo.linesSpoiled ∧
    t.expo.lens = s.expo.lens ∧
    t.expo.lensTarget = s.expo.lensTarget ∧
    t.expo.carriage = s.expo.carriage ∧
    t.expo.carriageTarget = s.expo.carriageTarget ∧
    t.expo.flashing = s.expo.flashing ∧
    t.expo.lastDuration = s.expo.lastDuration ∧
    t.expo.lastClamped = s.expo.lastClamped ∧
    t.lamp = s.lamp ∧
    t.film = s.film ∧
    t.proof = s.proof ∧
    t.freeCount = s.freeCount ∧
    t.pending = s.pending := by
  ((simp only [State.select] at h; (repeat' split at h) <;> simp at h <;> subst h <;> simp))

theorem reactExchange_keeps {s t : State}  (h : s.reactExchange = some t) :
    t.link.mask = s.link.mask ∧
    t.link.throttleMs = s.link.throttleMs ∧
    t.link.delayMs = s.link.delayMs ∧
    t.link.limitMs = s.link.limitMs ∧
    t.link.throttle = s.link.throttle ∧
    t.link.delayTimer = s.link.delayTimer ∧
    t.link.absTimer = s.link.absTimer ∧
    t.link.cause = s.link.cause ∧
    t.link.replies = s.link.replies ∧
    t.link.direction = s.link.direction ∧
    t.link.frameBegun = s.link.frameBegun ∧
    t.link.discarding = s.link.discarding ∧
    t.link.withheld = s.link.withheld ∧
    t.turret.position = s.turret.position ∧
    t.turret.pass = s.turret.pass ∧
    t.turret.hatchOpen = s.turret.hatchOpen ∧
    t.turret.exchange = s.turret.exchange ∧
    t.turret.cancelPending = s.turret.cancelPending ∧
    t.turret.read = s.turret.read ∧
    t.turret.protection = s.turret.protection ∧
    t.turret.lineOpen = s.turret.lineOpen ∧
    t.turret.lineEndDue = s.turret.lineEndDue ∧
    t.turret.stations.length = s.turret.stations.length ∧
    t.jobs.length = s.jobs.length ∧
    t.galleyOrder = s.galleyOrder ∧
    t.house = s.house ∧
    t.houseLocked = s.houseLocked ∧
    t.galleyGap = s.galleyGap ∧
    t.exposureHead = s.exposureHead ∧
    t.proofHead = s.proofHead ∧
    t.engine = s.engine ∧
    t.languages = s.languages ∧
    t.dict = s.dict ∧
    t.queue = s.queue ∧
    t.expo = s.expo ∧
    t.lamp = s.lamp ∧
    t.film = s.film ∧
    t.proof = s.proof ∧
    t.freeCount = s.freeCount ∧
    t.pending = s.pending := by
  ((simp only [State.reactExchange, Option.map_eq_some_iff] at h; obtain ⟨n, _, rfl⟩ := h; simp))

theorem reactSend_keeps {s t : State}  (h : s.reactSend = some t) :
    t.link = s.link ∧
    t.fonts = s.fonts ∧
    t.turret = s.turret ∧
    t.jobs = s.jobs ∧
    t.galleyOrder = s.galleyOrder ∧
    t.house = s.house ∧
    t.houseLocked = s.houseLocked ∧
    t.galleyGap = s.galleyGap ∧
    t.exposureHead = s.exposureHead ∧
    t.proofHead = s.proofHead ∧
    t.engine = s.engine ∧
    t.languages = s.languages ∧
    t.dict = s.dict ∧
    t.queue = s.queue ∧
    t.expo = s.expo ∧
    t.lamp = s.lamp ∧
    t.film = s.film ∧
    t.freeCount = s.freeCount ∧
    t.pending = s.pending := by
  ((simp only [State.reactSend] at h; split at h <;> simp at h; subst h; simp))

theorem reactProof_keeps {s t : State} (h : s.reactProof = some t) :
    t.link = s.link ∧
    t.fonts = s.fonts ∧
    t.turret = s.turret ∧
    t.jobs = s.jobs ∧
    t.galleyOrder = s.galleyOrder ∧
    t.house = s.house ∧
    t.houseLocked = s.houseLocked ∧
    t.galleyGap = s.galleyGap ∧
    t.exposureHead = s.exposureHead ∧
    t.proofHead = s.proofHead ∧
    t.engine = s.engine ∧
    t.languages = s.languages ∧
    t.dict = s.dict ∧
    t.expo = s.expo ∧
    t.lamp = s.lamp ∧
    t.film = s.film ∧
    t.freeCount = s.freeCount ∧
    t.pending = s.pending := by
  simp only [State.reactProof] at h
  split at h
  · obtain ⟨e, -, rfl⟩ := Option.map_eq_some_iff.1 h
    simp
  · cases h


theorem reactRun_keeps {s t : State} (h : s.reactRun = some t) :
    t.link = s.link ∧
    t.fonts = s.fonts ∧
    t.turret.position = s.turret.position ∧
    t.turret.pass = s.turret.pass ∧
    t.turret.latchEngaged = s.turret.latchEngaged ∧
    t.turret.hatchOpen = s.turret.hatchOpen ∧
    t.turret.hatchMark = s.turret.hatchMark ∧
    t.turret.exchange = s.turret.exchange ∧
    t.turret.cancelPending = s.turret.cancelPending ∧
    t.turret.read = s.turret.read ∧
    t.turret.protection = s.turret.protection ∧
    t.turret.lineOpen = s.turret.lineOpen ∧
    t.turret.lineEndDue = s.turret.lineEndDue ∧
    t.turret.stations.length = s.turret.stations.length ∧
    t.jobs = s.jobs ∧
    t.galleyOrder = s.galleyOrder ∧
    t.house = s.house ∧
    t.houseLocked = s.houseLocked ∧
    t.galleyGap = s.galleyGap ∧
    t.exposureHead = s.exposureHead ∧
    t.proofHead = s.proofHead ∧
    t.engine = s.engine ∧
    t.languages = s.languages ∧
    t.dict = s.dict ∧
    t.queue = s.queue ∧
    t.lamp = s.lamp ∧
    t.film = s.film ∧
    t.proof = s.proof ∧
    t.freeCount = s.freeCount ∧
    t.pending = s.pending := by
  have hs : ∀ {fl r}, s.select fl r = some t → t.link = s.link ∧ t.fonts = s.fonts ∧ t.turret.position = s.turret.position ∧ t.turret.pass = s.turret.pass ∧ t.turret.latchEngaged = s.turret.latchEngaged ∧ t.turret.hatchOpen = s.turret.hatchOpen ∧ t.turret.hatchMark = s.turret.hatchMark ∧ t.turret.exchange = s.turret.exchange ∧ t.turret.cancelPending = s.turret.cancelPending ∧ t.turret.read = s.turret.read ∧ t.turret.protection = s.turret.protection ∧ t.turret.lineOpen = s.turret.lineOpen ∧ t.turret.lineEndDue = s.turret.lineEndDue ∧ t.turret.stations.length = s.turret.stations.length ∧ t.jobs = s.jobs ∧ t.galleyOrder = s.galleyOrder ∧ t.house = s.house ∧ t.houseLocked = s.houseLocked ∧ t.galleyGap = s.galleyGap ∧ t.exposureHead = s.exposureHead ∧ t.proofHead = s.proofHead ∧ t.engine = s.engine ∧ t.languages = s.languages ∧ t.dict = s.dict ∧ t.queue = s.queue ∧ t.lamp = s.lamp ∧ t.film = s.film ∧ t.proof = s.proof ∧ t.freeCount = s.freeCount ∧ t.pending = s.pending := by
    intro fl r h
    simp only [State.select] at h
    (repeat' split at h) <;> simp only [reduceCtorEq, Option.some.injEq] at h <;> subst h <;> simp
  simp only [State.reactRun] at h
  (repeat' split at h) <;> first | exact hs h | (cases h; done) | (cases h; simp)


/-- An answer of a chain of alternatives is one of theirs. -/
theorem orElse_cases {α : Type} {a : Option α} {f : Unit → Option α} {x : α} (h : a.orElse f = some x) :
    a = some x ∨ f () = some x := by
  cases a with
  | none => exact Or.inr h
  | some y => exact Or.inl h

theorem react_keeps {s t : State} (h : s.react = some t) :
    t.link.mask = s.link.mask ∧
    t.link.throttleMs = s.link.throttleMs ∧
    t.link.delayMs = s.link.delayMs ∧
    t.link.limitMs = s.link.limitMs ∧
    t.link.throttle = s.link.throttle ∧
    t.link.delayTimer = s.link.delayTimer ∧
    t.link.absTimer = s.link.absTimer ∧
    t.link.cause = s.link.cause ∧
    t.link.replies = s.link.replies ∧
    t.link.direction = s.link.direction ∧
    t.link.frameBegun = s.link.frameBegun ∧
    t.link.discarding = s.link.discarding ∧
    t.link.withheld = s.link.withheld ∧
    t.turret.position = s.turret.position ∧
    t.turret.pass = s.turret.pass ∧
    t.turret.hatchOpen = s.turret.hatchOpen ∧
    t.turret.exchange = s.turret.exchange ∧
    t.turret.cancelPending = s.turret.cancelPending ∧
    t.turret.read = s.turret.read ∧
    t.turret.protection = s.turret.protection ∧
    t.turret.lineOpen = s.turret.lineOpen ∧
    t.turret.lineEndDue = s.turret.lineEndDue ∧
    t.turret.stations.length = s.turret.stations.length ∧
    t.jobs.length = s.jobs.length ∧
    t.house = s.house ∧
    t.houseLocked = s.houseLocked ∧
    t.galleyGap = s.galleyGap ∧
    t.languages = s.languages ∧
    t.lamp = s.lamp ∧
    t.film.loaded = s.film.loaded ∧
    t.film.baseline = s.film.baseline ∧
    t.film.highMark = s.film.highMark ∧
    t.film.origin = s.film.origin ∧
    t.film.lowThreshold = s.film.lowThreshold ∧
    t.film.lowCondition = s.film.lowCondition ∧
    t.film.state = s.film.state ∧
    t.film.mover = s.film.mover ∧
    t.film.target = s.film.target ∧
    t.film.trims = s.film.trims ∧
    t.film.measured = s.film.measured ∧
    t.film.present = s.film.present ∧
    t.film.coverOpen = s.film.coverOpen ∧
    t.film.cuts = s.film.cuts ∧
    t.film.jams = s.film.jams ∧
    t.film.lastCut = s.film.lastCut ∧
    t.freeCount = s.freeCount ∧
    t.pending = s.pending := by
  simp only [State.react] at h
  rcases orElse_cases h with h | h
  · simp [reactFree_keeps h]
  rcases orElse_cases h with h | h
  · simp [reactHeads_keeps h]
  rcases orElse_cases h with h | h
  · simp [offerWaiting_keeps h]
  rcases orElse_cases h with h | h
  · simp [chooseTurn_keeps h]
  rcases orElse_cases h with h | h
  · simp [reactProof_keeps h]
  rcases orElse_cases h with h | h
  · simp [reactLamp_keeps h]
  rcases orElse_cases h with h | h
  · simp [reactRun_keeps h]
  rcases orElse_cases h with h | h
  · simp [reactExchange_keeps h]
  · simp [reactSend_keeps h]

@[simp] theorem judgeEconomy_keeps (s : State) (b : State) :
    (b.judgeEconomy s).link.mask = s.link.mask ∧
    (b.judgeEconomy s).link.throttleMs = s.link.throttleMs ∧
    (b.judgeEconomy s).link.delayMs = s.link.delayMs ∧
    (b.judgeEconomy s).link.limitMs = s.link.limitMs ∧
    (b.judgeEconomy s).link.throttle = s.link.throttle ∧
    (b.judgeEconomy s).link.delayTimer = s.link.delayTimer ∧
    (b.judgeEconomy s).link.absTimer = s.link.absTimer ∧
    (b.judgeEconomy s).link.cause = s.link.cause ∧
    (b.judgeEconomy s).link.replies = s.link.replies ∧
    (b.judgeEconomy s).link.direction = s.link.direction ∧
    (b.judgeEconomy s).link.frameBegun = s.link.frameBegun ∧
    (b.judgeEconomy s).link.discarding = s.link.discarding ∧
    (b.judgeEconomy s).link.withheld = s.link.withheld ∧
    (b.judgeEconomy s).jobs = s.jobs ∧
    (b.judgeEconomy s).galleyOrder = s.galleyOrder ∧
    (b.judgeEconomy s).house = s.house ∧
    (b.judgeEconomy s).houseLocked = s.houseLocked ∧
    (b.judgeEconomy s).galleyGap = s.galleyGap ∧
    (b.judgeEconomy s).exposureHead = s.exposureHead ∧
    (b.judgeEconomy s).proofHead = s.proofHead ∧
    (b.judgeEconomy s).engine = s.engine ∧
    (b.judgeEconomy s).languages = s.languages ∧
    (b.judgeEconomy s).dict = s.dict ∧
    (b.judgeEconomy s).lamp.index = s.lamp.index ∧
    (b.judgeEconomy s).lamp.invalid = s.lamp.invalid ∧
    (b.judgeEconomy s).lamp.weakLimit = s.lamp.weakLimit ∧
    (b.judgeEconomy s).lamp.failLimit = s.lamp.failLimit ∧
    (b.judgeEconomy s).lamp.economyTimeout = s.lamp.economyTimeout ∧
    (b.judgeEconomy s).film = s.film ∧
    (b.judgeEconomy s).freeCount = s.freeCount ∧
    (b.judgeEconomy s).pending = s.pending := by
  simp only [State.judgeEconomy]
  (repeat' split) <;> simp

end Sys2Proof.Machine
end

