-- ==== Sys2Proof/Laws/Lists.lean ====
section
/-! SUPPORT. What the shared operations on lists of records do: the dictionary's slots, the catalogue's order, the entries of the
queue, the members of a list once each, the counters. -/

namespace Sys2Proof.Machine

open Sys2Proof

/-! ### Counters and lists -/

theorem bump_le (n : Nat) (h : n ≤ 65535) : bump n ≤ 65535 ∧ n ≤ bump n := by
  unfold bump Config.counterTop; split <;> omega

@[simp] theorem mem_distinct {x : Nat} {l : List Nat} : x ∈ distinct l ↔ x ∈ l := by
  induction l with
  | nil => simp [distinct]
  | cons y l ih =>
    simp only [distinct, List.mem_cons, List.mem_filter, bne_iff_ne, ne_eq, ih]
    by_cases h : x = y <;> simp [h]

theorem distinct_nodup (l : List Nat) : (distinct l).Nodup := by
  induction l with
  | nil => simp [distinct]
  | cons y l ih => simp [distinct, ih.filter]

theorem noRepeats_iff_nodup {α : Type} [BEq α] [LawfulBEq α] (l : List α) : noRepeats l = true ↔ l.Nodup := by
  induction l with
  | nil => simp [noRepeats]
  | cons x l ih => simp [noRepeats, ih]

/-! ### The dictionary -/

@[simp] theorem mem_insertEntry {e x : DictEntry} {d : List DictEntry} : x ∈ insertEntry e d ↔ x = e ∨ x ∈ d := by
  induction d with
  | nil => simp [insertEntry]
  | cons y d ih =>
    simp only [insertEntry]
    split
    · simp
    · simp only [List.mem_cons, ih]; tauto

/-- An entry of a new slot keeps the slots in rising order. -/
theorem insertEntry_pairwise {e : DictEntry} {d : List DictEntry} (h : d.Pairwise (fun a b => a.slot < b.slot))
    (hn : ∀ x ∈ d, x.slot ≠ e.slot) : (insertEntry e d).Pairwise (fun a b => a.slot < b.slot) := by
  induction d with
  | nil => simp [insertEntry]
  | cons y d ih =>
    obtain ⟨hy, hd⟩ := List.pairwise_cons.1 h
    simp only [insertEntry]
    split
    · next hlt =>
      refine List.pairwise_cons.2 ⟨fun x hx => ?_, h⟩
      rcases List.mem_cons.1 hx with rfl | hx
      · exact hlt
      · exact hlt.trans (hy x hx)
    · next hle =>
      refine List.pairwise_cons.2 ⟨fun x hx => ?_, ih hd fun x hx => hn x (List.mem_cons_of_mem _ hx)⟩
      rcases mem_insertEntry.1 hx with rfl | hx
      · have := hn y List.mem_cons_self; omega
      · exact hy x hx

/-- The slot found is empty, at or above the first one looked at, and no slot between them is empty. -/
theorem lowestFree_spec (d : List DictEntry) (n : Nat) (h : d.Pairwise (fun a b => a.slot < b.slot)) :
    n ≤ lowestFree n d ∧ (∀ e ∈ d, e.slot ≠ lowestFree n d) ∧
    ∀ m, n ≤ m → m < lowestFree n d → ∃ e ∈ d, e.slot = m := by
  induction d generalizing n with
  | nil => exact ⟨le_refl n, by simp, fun m h1 h2 => by simp [lowestFree] at h2; omega⟩
  | cons y d ih =>
    obtain ⟨hy, hd⟩ := List.pairwise_cons.1 h
    simp only [lowestFree, beq_iff_eq]
    split
    · next heq =>
      obtain ⟨h1, h2, h3⟩ := ih (n + 1) hd
      refine ⟨by omega, fun e he => ?_, fun m hm hlt => ?_⟩
      · rcases List.mem_cons.1 he with rfl | he
        · omega
        · exact h2 e he
      · by_cases hmn : m = n
        · exact ⟨y, List.mem_cons_self, by omega⟩
        · obtain ⟨e, he, hs⟩ := h3 m (by omega) hlt
          exact ⟨e, List.mem_cons_of_mem _ he, hs⟩
    · split
      · next hne hlt =>
        obtain ⟨h1, h2, h3⟩ := ih n hd
        refine ⟨h1, fun e he => ?_, fun m hm hlt' => ?_⟩
        · rcases List.mem_cons.1 he with rfl | he
          · omega
          · exact h2 e he
        · obtain ⟨e, he, hs⟩ := h3 m hm hlt'
          exact ⟨e, List.mem_cons_of_mem _ he, hs⟩
      · next hne hlt =>
        refine ⟨le_refl n, fun e he => ?_, fun m h1 h2 => by omega⟩
        rcases List.mem_cons.1 he with rfl | he
        · omega
        · have := hy e he; omega

@[simp] theorem raiseHits_slots (k : Nat) (d : List DictEntry) : (raiseHits k d).map (·.slot) = d.map (·.slot) := by
  simp only [raiseHits, List.map_map]
  exact List.map_congr_left fun e _ => by simp only [Function.comp]; split <;> rfl

/-! ### The catalogue -/

@[simp] theorem mem_insertFont {r x : FontRecord} {l : List FontRecord} : x ∈ insertFont r l ↔ x = r ∨ x ∈ l := by
  induction l with
  | nil => simp [insertFont]
  | cons y l ih =>
    simp only [insertFont]
    split
    · simp
    · simp only [List.mem_cons, ih]; tauto

@[simp] theorem insertFont_length (r : FontRecord) (l : List FontRecord) : (insertFont r l).length = l.length + 1 := by
  induction l with
  | nil => simp [insertFont]
  | cons y l ih => simp only [insertFont]; split <;> simp [ih]

/-- A record of a new number keeps the numbers in rising order. -/
theorem insertFont_pairwise {r : FontRecord} {l : List FontRecord} (h : l.Pairwise (fun a b => a.number < b.number))
    (hn : ∀ x ∈ l, x.number ≠ r.number) : (insertFont r l).Pairwise (fun a b => a.number < b.number) := by
  induction l with
  | nil => simp [insertFont]
  | cons y l ih =>
    obtain ⟨hy, hl⟩ := List.pairwise_cons.1 h
    simp only [insertFont]
    split
    · next hlt =>
      refine List.pairwise_cons.2 ⟨fun x hx => ?_, h⟩
      rcases List.mem_cons.1 hx with rfl | hx
      · exact hlt
      · exact hlt.trans (hy x hx)
    · next hle =>
      refine List.pairwise_cons.2 ⟨fun x hx => ?_, ih hl fun x hx => hn x (List.mem_cons_of_mem _ hx)⟩
      rcases mem_insertFont.1 hx with rfl | hx
      · have := hn y List.mem_cons_self; omega
      · exact hy x hx

/-! ### The queue -/

/-- A change of one entry that keeps its serial leaves every other entry, and the count. -/
theorem queue_modify_find (q : Queue) (k m : Nat) (f : Entry → Entry) (hf : ∀ e, (f e).serial = e.serial) :
    (q.modify k f).find m = (q.find m).map (fun e => if e.serial = k then f e else e) := by
  simp only [Queue.modify, Queue.find, List.find?_map]
  congr 1
  · funext e; simp only [beq_iff_eq]
  · congr 1; funext e; simp only [Function.comp, beq_iff_eq]; split <;> simp [hf]

@[simp] theorem queue_modify_inUse (q : Queue) (k : Nat) (f : Entry → Entry) : (q.modify k f).inUse = q.inUse := by
  simp [Queue.modify, Queue.inUse]

/-- An entry found by its serial stands in the queue. -/
theorem mem_of_queue_find {q : Queue} {k : Nat} {e : Entry} (h : q.find k = some e) : e ∈ q.entries ∧ e.serial = k := by
  simp only [Queue.find] at h
  exact ⟨List.mem_of_find?_eq_some h, by simpa using List.find?_some h⟩

end Sys2Proof.Machine
end

