-- ==== Sys2Proof/Laws/Printing.lean ====
section
/-! SUPPORT. What the sending of a line and the report of its end can do, and what the built lines are made of: the decimal numbers, the passes, the plain notes, and the columns
that the glyphs of a proof line take. -/

namespace Sys2Proof.Machine

open Sys2Proof

/-! ### Sending, and the end of a line -/

/-- What becomes of a report of proof done: it touches an entry IN PRINT alone. -/
theorem proofDone_cases (s : State) (serial : Nat) :
    (s.proofDone serial = s ∧ ∀ e, s.queue.find serial = some e → e.proof ≠ .inPrint) ∨
    ∃ e, s.queue.find serial = some e ∧ e.proof = .inPrint ∧
      s.proofDone serial = (s.onQueue fun q => q.modify serial fun e => { e with proof := .done }).releaseIfDone serial := by
  simp only [State.proofDone]
  split
  next h => exact .inl ⟨rfl, fun e he => by simp [h] at he⟩
  next e h =>
    by_cases hp : e.proof = .inPrint
    · exact .inr ⟨e, h, hp, by simp [hp]⟩
    · exact .inl ⟨by simp [hp], fun e' he => by rw [h] at he; cases he; exact hp⟩

/-- What the print list becomes when an entry is cancelled: the line of an entry IN PRINT alone may leave it. -/
theorem cancelEntry_proof (s : State) (e : Entry) :
    (s.cancelEntry e).proof =
      if e.proof = .inPrint then (s.removeEntry e).proof.cancelLine e.serial else (s.removeEntry e).proof := by
  simp only [State.cancelEntry, beq_iff_eq]
  split <;> rfl

/-- What becomes of the sending: it stays as it is, or a byte is begun, at the rate recorded where a line or a reprint begins. -/
theorem sendNext_cases (p : Proof) :
    p.sendNext = p ∨
    p.flowOn = true ∧ p.paperOut = false ∧ p.list ≠ [] ∧ p.transit = .none ∧
      p.sendNext = { p with
        transit := .counted, begun := true, lineRate := if p.begun = false ∨ p.lead = 2 then p.rate else p.lineRate } := by
  simp only [Proof.sendNext]
  split
  next h => simp only [Bool.and_eq_true, Bool.not_eq_true', List.isEmpty_eq_false_iff, beq_iff_eq] at h; simp [h]
  next => exact .inl rfl

/-! ### Numbers -/

/-- The value of a text of decimal digits. -/
def valueOf (l : List Byte) : Nat := l.foldl (fun a d => 10 * a + (d.toNat - 0x30)) 0

theorem digit_toNat (n : Nat) : (BitVec.ofNat 8 (0x30 + n % 10)).toNat = 0x30 + n % 10 := by
  simp only [BitVec.toNat_ofNat]
  omega

/-- The digits of a number with fuel for all of them. -/
theorem digits_spec (fuel n : Nat) (h : n < 10 ^ fuel) (hf : 0 < fuel) :
    valueOf (digits fuel n) = n ∧ (∀ d ∈ digits fuel n, 0x30 ≤ d.toNat ∧ d.toNat ≤ 0x39) ∧
    (0 < n → (digits fuel n).head? ≠ some 0x30#8) ∧ digits fuel n ≠ [] ∧ ∀ k, 0 < k → n < 10 ^ k → (digits fuel n).length ≤ k := by
  induction fuel generalizing n with
  | zero => omega
  | succ fuel ih =>
    have hd : ∀ m : Nat, 0x30 ≤ (BitVec.ofNat 8 (0x30 + m % 10)).toNat ∧ (BitVec.ofNat 8 (0x30 + m % 10)).toNat ≤ 0x39 := by
      intro m; rw [digit_toNat]; omega
    by_cases hn : n < 10
    · simp only [digits, hn, if_true, List.nil_append]
      refine ⟨?_, ?_, ?_, by simp, ?_⟩
      · simp only [valueOf, List.foldl_cons, List.foldl_nil, digit_toNat]; omega
      · intro d hd'
        rw [List.mem_singleton] at hd'
        subst hd'
        exact hd n
      · intro hp h0
        simp only [List.head?_cons, Option.some.injEq] at h0
        have := congrArg BitVec.toNat h0
        rw [digit_toNat] at this
        simp at this
        omega
      · intro k hk _
        simp
        omega
    · have hlt : n / 10 < 10 ^ fuel := by rw [Nat.div_lt_iff_lt_mul (by norm_num)]; rw [pow_succ] at h; exact h
      have hfuel : 0 < fuel := by
        rcases Nat.eq_zero_or_pos fuel with h0 | h0
        · subst h0; simp at h; omega
        · exact h0
      obtain ⟨h1, h2, h3, h4, h5⟩ := ih (n / 10) hlt hfuel
      simp only [digits, hn, if_false]
      refine ⟨?_, ?_, ?_, by simp, ?_⟩
      · simp only [valueOf] at h1
        simp only [valueOf, List.foldl_append, h1, List.foldl_cons, List.foldl_nil, digit_toNat]
        omega
      · intro d hd'
        rcases List.mem_append.1 hd' with hd' | hd'
        · exact h2 d hd'
        · rw [List.mem_singleton] at hd'; subst hd'; exact hd n
      · intro _
        rw [List.head?_append_of_ne_nil _ h4]
        exact h3 (by omega)
      · intro k hk hnk
        rw [List.length_append, List.length_singleton]
        obtain ⟨k, rfl⟩ : ∃ j, k = j + 1 := ⟨k - 1, by omega⟩
        have hk0 : 0 < k := by
          rcases Nat.eq_zero_or_pos k with h0 | h0
          · subst h0; simp at hnk; omega
          · exact h0
        have := h5 k hk0 (by rw [Nat.div_lt_iff_lt_mul (by norm_num)]; rw [pow_succ] at hnk; exact hnk)
        omega

theorem decimal_spec (n : Nat) (h : n < 100000000) :
    valueOf (decimal n) = n ∧ (∀ d ∈ decimal n, 0x30 ≤ d.toNat ∧ d.toNat ≤ 0x39) ∧
    (0 < n → (decimal n).head? ≠ some 0x30#8) ∧ (n < 100000 → (decimal n).length ≤ 5) := by
  obtain ⟨h1, h2, h3, -, h5⟩ := digits_spec 8 n h (by norm_num)
  exact ⟨h1, h2, h3, h5 5 (by norm_num)⟩

/-! ### Passes -/

theorem take_min_length {α : Type} (l : List α) (n : Nat) : l.take (min n l.length) = l.take n := by
  rcases le_total n l.length with h | h
  · rw [Nat.min_eq_left h]
  · rw [Nat.min_eq_right h, List.take_length, List.take_of_length_le h]

/-- A pass is its characters to the last that is not a space (R185). -/
theorem trimRight_spec (l : List Byte) :
    ∃ n, trimRight l = l.take n ∧ (∀ x ∈ l.drop n, x = 0x20#8) ∧ (l.take n).getLast? ≠ some 0x20#8 := by
  induction l using List.reverseRecOn with
  | nil => exact ⟨0, by simp [trimRight]⟩
  | append_singleton l x ih =>
    by_cases hx : x = 0x20#8
    · obtain ⟨n, h1, h2, h3⟩ := ih
      have hn : trimRight (l ++ [x]) = trimRight l := by simp [trimRight, hx, spaceByte]
      refine ⟨min n l.length, ?_, ?_, ?_⟩
      · rw [hn, h1, List.take_append_of_le_length (by omega), take_min_length]
      · rw [List.drop_append_of_le_length (by omega)]
        intro y hy
        rcases List.mem_append.1 hy with hy | hy
        · rcases le_total n l.length with hl | hl
          · rw [Nat.min_eq_left hl] at hy; exact h2 y hy
          · rw [Nat.min_eq_right hl] at hy; simp at hy
        · simpa [hx] using hy
      · rw [List.take_append_of_le_length (by omega), take_min_length]
        exact h3
    · refine ⟨l.length + 1, ?_, by simp, ?_⟩
      · simp [trimRight, hx, spaceByte]
      · rw [List.take_of_length_le (by simp), List.getLast?_concat]
        simpa using hx

/-- The bytes of a plain note whose text does not end in a space (R186, R187). -/
theorem noteLine_spec (star : Bool) (text : List Byte) (h : text ≠ []) (hl : text.getLast? ≠ some 0x20#8) :
    noteLine star text =
      List.replicate 5 0x20#8 ++ [if star then 0x2A#8 else 0x20#8] ++ List.replicate 6 0x20#8 ++ text ++ [0x0D#8, 0x0A#8] := by
  have ht : ∀ l : List Byte, trimRight (l ++ text) = l ++ text := by
    intro l
    obtain ⟨t, x, rfl⟩ : ∃ t x, text = t ++ [x] := ⟨_, _, (List.dropLast_append_getLast h).symm⟩
    have hx : x ≠ 0x20#8 := by simpa using hl
    rw [← List.append_assoc]
    simp [trimRight, hx, spaceByte]
  have hp : ∀ l : List Byte, passes (plainColumns l) = trimRight l ++ [0x0D#8, 0x0A#8] := by
    intro l
    have h1 : (plainColumns l).map Column.char = l := by simp [plainColumns, Function.comp_def]
    have h2 : (plainColumns l).any (fun c => c.face == .bold || c.face == .boldUnderline) = false := by
      simp [plainColumns]
    have h3 : (plainColumns l).any (fun c => c.face == .underline || c.face == .boldUnderline) = false := by
      simp [plainColumns]
    simp only [passes, h1, h2, h3]
    simp
  rw [noteLine, hp, ht]
  cases star <;> simp [ascii, spaceByte]

/-! ### The text columns -/

/-- The columns that glyphs take, one for each glyph placed, after some are taken (R183). -/
def columnsTaken (measure : Nat) : List ProofGlyph → List (Nat × Column) → List (Nat × Column)
  | [], _ => []
  | g :: gs, before =>
    let c := freeFrom before (if measure == 0 then 0 else g.x * 120 / measure) 120
    if g.x ≥ measure || c > 119 then []
    else
      let x := (c, { char := (printedCode g).getD 0x3F#8, face := g.face : Column })
      x :: columnsTaken measure gs (before ++ [x])

/-- The first free column: no column from the start up to it is free, and it is free unless the fuel ends (R183). -/
theorem freeFrom_spec (before : List (Nat × Column)) (fuel c : Nat) :
    c ≤ freeFrom before c fuel ∧ freeFrom before c fuel ≤ c + fuel ∧
    (∀ k, c ≤ k → k < freeFrom before c fuel → k ∈ before.map Prod.fst) ∧
    (freeFrom before c fuel < c + fuel → freeFrom before c fuel ∉ before.map Prod.fst) := by
  induction fuel generalizing c with
  | zero => simp only [freeFrom]; exact ⟨le_rfl, le_rfl, fun k h1 h2 => by omega, fun h => by omega⟩
  | succ fuel ih =>
    simp only [freeFrom]
    split
    · next hc =>
      obtain ⟨h1, h2, h3, h4⟩ := ih (c + 1)
      have hc' : c ∈ before.map Prod.fst := by simpa [List.any_eq_true] using hc
      refine ⟨by omega, by omega, fun k hk hk2 => ?_, fun h => h4 (by omega)⟩
      rcases Nat.eq_or_lt_of_le hk with rfl | hk
      · exact hc'
      · exact h3 k hk hk2
    · next hc =>
      have hc' : c ∉ before.map Prod.fst := by simpa [List.any_eq_true] using hc
      exact ⟨le_rfl, by omega, fun k h1 h2 => by omega, fun _ => hc'⟩

/-- The columns a line's glyphs take (R183, R184): each the first free one from that of its position; none after the first glyph at or
beyond the measure, or with no free column. -/
theorem columnsTaken_spec (measure : Nat) (gs : List ProofGlyph) (before : List (Nat × Column))
    (hb : (before.map Prod.fst).Nodup) :
    let new := columnsTaken measure gs before
    new.length ≤ gs.length ∧ ((before ++ new).map Prod.fst).Nodup ∧
    (∀ k x, new[k]? = some x → ∃ g, gs[k]? = some g ∧ g.x < measure ∧ g.x * 120 / measure ≤ x.1 ∧ x.1 ≤ 119 ∧
      (∀ c, g.x * 120 / measure ≤ c → c < x.1 → c ∈ (before ++ new.take k).map Prod.fst) ∧
      x.2 = { char := (printedCode g).getD 0x3F#8, face := g.face }) ∧
    (∀ g, gs[new.length]? = some g →
      measure ≤ g.x ∨ ∀ c, g.x * 120 / measure ≤ c → c ≤ 119 → c ∈ (before ++ new).map Prod.fst) := by
  induction gs generalizing before with
  | nil => simp [columnsTaken, hb]
  | cons g gs ih =>
    simp only [columnsTaken]
    obtain ⟨h1, h2, h3, h4⟩ := freeFrom_spec before 120 (if measure == 0 then 0 else g.x * 120 / measure)
    generalize hc : freeFrom before (if measure == 0 then 0 else g.x * 120 / measure) 120 = c at *
    split
    · next hcut =>
      refine ⟨by simp, by simpa using hb, by simp, ?_⟩
      intro g' hg'
      have hg' : g = g' := by simpa using hg'
      subst hg'
      rcases le_or_gt measure g.x with hm | hm
      · exact Or.inl hm
      · refine Or.inr fun k hk hk2 => ?_
        have hm0 : (measure == 0) = false := by simp; omega
        have hcc : 119 < c := by simpa [show ¬ measure ≤ g.x by omega] using hcut
        simp only [List.append_nil]
        exact h3 k (by simpa [hm0] using hk) (by omega)
    · next hcut =>
      have hcut' : g.x < measure ∧ c ≤ 119 := by simpa using hcut
      have hm0 : (measure == 0) = false := by simp; omega
      rw [hm0] at h1 h2 h3 h4
      simp only [Bool.false_eq_true, if_false] at h1 h2 h3 h4
      have hfree : c ∉ before.map Prod.fst :=
        h4 (Nat.lt_of_lt_of_le (Nat.lt_succ_of_le hcut'.2) (Nat.le_add_left _ _))
      set x : Nat × Column := (c, { char := (printedCode g).getD 0x3F#8, face := g.face }) with hx
      have hb' : ((before ++ [x]).map Prod.fst).Nodup := by
        rw [List.map_append, List.nodup_append]
        refine ⟨hb, by simp, ?_⟩
        intro a ha b hb2 hab
        simp [hx] at hb2
        subst hab; subst hb2
        exact hfree ha
      obtain ⟨i1, i2, i3, i4⟩ := ih (before ++ [x]) hb'
      refine ⟨by simpa using i1, by simpa using i2, ?_, ?_⟩
      · intro k y hk
        cases k with
        | zero =>
          have hy : x = y := by simpa using hk
          subst hy
          refine ⟨g, rfl, hcut'.1, h1, hcut'.2, ?_, rfl⟩
          intro k hk hk2
          simpa using h3 k hk hk2
        | succ k =>
          obtain ⟨g', j1, j2, j3, j4, j5, j6⟩ := i3 k y (by simpa using hk)
          refine ⟨g', by simpa using j1, j2, j3, j4, ?_, j6⟩
          intro c' hc1 hc2
          simpa using j5 c' hc1 hc2
      · intro g' hg'
        rcases i4 g' (by simpa using hg') with h | h
        · exact Or.inl h
        · refine Or.inr fun k hk hk2 => ?_
          simpa using h k hk hk2

/-- Placing is taking the columns, with '>' in the last where glyphs are left (R183). -/
theorem placeGlyphs_eq (measure : Nat) (gs : List ProofGlyph) (before : List (Nat × Column)) (q : Bool) :
    let new := columnsTaken measure gs before
    placeGlyphs measure gs before q =
      (if new.length < gs.length then (119, { char := 0x3E#8, face := .plain }) :: (before ++ new).filter (fun p => p.1 != 119)
        else before ++ new,
       q || (gs.take new.length).any fun g => (printedCode g).isNone) := by
  induction gs generalizing before q with
  | nil => simp [placeGlyphs, columnsTaken]
  | cons g gs ih =>
    simp only [placeGlyphs, columnsTaken]
    generalize freeFrom before (if measure == 0 then 0 else g.x * 120 / measure) 120 = c
    by_cases hc : (decide (g.x ≥ measure) || decide (c > 119)) = true
    · simp only [hc, if_true]
      simp
    · rw [if_neg hc, if_neg hc]
      simp only [ih, List.append_assoc, List.singleton_append, List.length_cons, List.take_succ_cons, List.any_cons,
        Nat.succ_lt_succ_iff, Bool.or_assoc]

/-- The row of 120 columns: '>' at the end of a cut line, each column taken as it was taken, blanks elsewhere (R183, R184). -/
theorem textColumns_spec (taken : List (Nat × Column)) (cut : Bool) (hn : (taken.map Prod.fst).Nodup) :
    let row := textColumns (if cut then (119, { char := 0x3E#8, face := .plain }) :: taken.filter (fun p => p.1 != 119) else taken)
    row.length = 120 ∧ (cut = true → row[119]? = some { char := 0x3E#8, face := .plain }) ∧
    (∀ x ∈ taken, x.1 ≤ 119 → ¬(cut = true ∧ x.1 = 119) → row[x.1]? = some x.2) ∧
    (∀ c, c < 120 → c ∉ taken.map Prod.fst → ¬(cut = true ∧ c = 119) → row[c]? = some Column.blank) := by
  have hrow : ∀ (l : List (Nat × Column)) (c : Nat), c < 120 →
      (textColumns l)[c]? = some (((l.find? fun p => p.1 == c).map (·.2)).getD Column.blank) := by
    intro l c hc
    simp [textColumns, List.getElem?_range hc]
  have hfind : ∀ x ∈ taken, taken.find? (fun p => p.1 == x.1) = some x := by
    intro x hx
    cases hf : taken.find? (fun p => p.1 == x.1) with
    | none => simpa using List.find?_eq_none.1 hf x hx
    | some y =>
      have h1 := List.find?_some hf
      have h2 := List.mem_of_find?_eq_some hf
      rw [List.inj_on_of_nodup_map hn h2 hx (by simpa using h1)]
  have hfilter : ∀ c, c ≠ 119 → (taken.filter (fun p => p.1 != 119)).find? (fun p => p.1 == c) = taken.find? (fun p => p.1 == c) := by
    intro c hc
    rw [List.find?_filter]
    congr 1
    funext p
    by_cases hp : p.1 = c <;> simp [hp, hc]
  refine ⟨by simp [textColumns], ?_, ?_, ?_⟩
  · intro hc
    simp only [hc, if_true]
    rw [hrow _ _ (by norm_num)]
    simp
  · intro x hx hx2 hc
    rw [hrow _ _ (by omega)]
    cases cut with
    | false => simp [hfind x hx]
    | true =>
      have h119 : x.1 ≠ 119 := fun h => hc ⟨rfl, h⟩
      have : (119 == x.1) = false := by simpa using fun h : 119 = x.1 => h119 h.symm
      simp only [if_true, List.find?_cons, this]
      rw [hfilter _ h119, hfind x hx]
      rfl
  · intro c hc hn2 hcut
    have hnone : taken.find? (fun p => p.1 == c) = none := by
      rw [List.find?_eq_none]
      intro p hp h
      exact hn2 (List.mem_map.2 ⟨p, hp, by simpa using h⟩)
    rw [hrow _ _ hc]
    cases cut with
    | false => simp [hnone]
    | true =>
      have h119 : c ≠ 119 := fun h => hcut ⟨rfl, h⟩
      have : (119 == c) = false := by simpa using fun h : 119 = c => h119 h.symm
      simp only [if_true, List.find?_cons, this]
      rw [hfilter _ h119, hnone]
      rfl

/-- The glyph a placed character of an entry is printed by: that of its run's font (R184). -/
theorem proofGlyphs_spec (s : State) (runs : List Run) (gs : List (Byte × Nat)) (h : (runs.map Run.count).sum = gs.length) (k : Nat) :
    let fonts := runs.flatMap fun r => List.replicate r.count r.font
    fonts.length = gs.length ∧
    (s.proofGlyphs runs gs)[k]? = gs[k]?.map fun g =>
      { code := g.1, x := g.2, face := ((fonts[k]?.bind s.font).map FontRecord.face).getD .plain
        map := (fonts[k]?.bind s.font).bind FontRecord.map } := by
  induction runs generalizing gs k with
  | nil =>
    have : gs = [] := List.length_eq_zero_iff.1 (by simpa using h.symm)
    subst this
    simp [State.proofGlyphs]
  | cons r runs ih =>
    simp only [List.map_cons, List.sum_cons] at h
    have hd : (runs.map Run.count).sum = (gs.drop r.count).length := by rw [List.length_drop]; omega
    have hl : (gs.take r.count).length = r.count := by rw [List.length_take]; omega
    simp only [State.proofGlyphs, List.flatMap_cons]
    refine ⟨by rw [List.length_append, List.length_replicate, (ih _ hd 0).1, List.length_drop]; omega, ?_⟩
    rcases Nat.lt_or_ge k r.count with hk | hk
    · rw [List.getElem?_append_left (by simpa using by omega), List.getElem?_append_left (by simpa using hk)]
      rw [List.getElem?_map, List.getElem?_take_of_lt hk, List.getElem?_replicate, if_pos hk]
      rfl
    · rw [List.getElem?_append_right (by simpa using by omega), List.getElem?_append_right (by simpa using hk)]
      simp only [List.length_map, hl, List.length_replicate]
      rw [(ih _ hd (k - r.count)).2, List.getElem?_drop, Nat.add_sub_cancel' hk]

end Sys2Proof.Machine
end

