-- ==== Sys2Proof/Laws/Requests.lean ====
section
/-! SUPPORT. What becomes of a request frame: lost while the port discards, kept while four replies wait, answered FORMAT, or answered
by its owner (R195 to R197); and the two ways an owner's effect is answered, with and without the closing part. -/

namespace Sys2Proof.Machine

open Sys2Proof

/-- Everything a request can come to. -/
theorem accept_cases (s : State) (i : Instr) (tag : Byte) (e : Effect) :
    (s.link.discarding = true ∧ s.accept i tag e = s) ∨
    (s.link.discarding = false ∧ 4 ≤ s.link.replies.length ∧
      s.accept i tag e = s.onLink fun l => { l with withheld := l.withheld ++ [i] }) ∨
    (s.accepting ∧ i.shapeOk = false ∧ s.accept i tag e = s.received.answer (codeByte i) tag (refuse .format)) ∨
    (s.accepting ∧ i.shapeOk = true ∧ s.accept i tag e = s.received.answer (codeByte i) tag e) := by
  simp only [State.accept, State.receive, Config.replySlots, State.deliver, State.received, State.accepting]
  cases hd : s.link.discarding
  · by_cases hr : s.link.replies.length < 4
    · cases hs : i.shapeOk <;> simp [hr]
    · simp [hr, Nat.le_of_not_lt hr]
  · simp

/-- A request received in good form is answered by its owner. -/
theorem accept_of_shapeOk {s : State} {i : Instr} (tag : Byte) (e : Effect) (h : s.accepting) (hs : i.shapeOk = true) :
    s.accept i tag e = s.received.answer (codeByte i) tag e := by
  simp [State.accept, State.receive, h.1, h.2, Config.replySlots, State.deliver, hs, State.received]

/-- An owner's effect and answer, as the state it leaves with the reply appended. -/
theorem answer_eq_answered {s t : State} {a : Answer} {e : Effect} (code tag : Byte) (h : e s = (t, a))
    (hf : t.link.frameBegun = false) :
    s.answer code tag e =
      t.answered { code := code, tag := tag, status := a.status, clamped := a.clamped, part := a.part, payload := a.payload } := by
  simp [State.answer, h, State.pushReply, State.answered, Link.withReply, State.onLink, hf]

/-- The reply ends a frame partly received, whether or not the request's receipt has ended it before. -/
@[simp] theorem answered_received (s : State) (r : Reply) : s.received.answered r = s.answered r := by
  simp [State.received, State.answered, Link.withReply, State.onLink]

/-- A request of a block that nothing reacts to. -/
theorem accept_eq_answered {s t : State} {i : Instr} {tag : Byte} {e : Effect} {a : Answer} {r : Reply} (h : s.accepting)
    (hs : i.shapeOk = true) (he : e s.received = (t, a)) (hf : t.link.frameBegun = false)
    (hr : r = { code := codeByte i, tag := tag, status := a.status, clamped := a.clamped, part := a.part, payload := a.payload }) :
    s.accept i tag e = t.answered r := by
  rw [accept_of_shapeOk tag e h hs, answer_eq_answered _ _ he hf, hr]

/-- A request whose event the blocks react to. -/
theorem accept_settled_eq_answered {s t : State} {i : Instr} {tag : Byte} {e : Effect} {a : Answer} {r : Reply} (h : s.accepting)
    (hs : i.shapeOk = true) (he : e s.received = (t, a)) (hf : (settle s.received t).link.frameBegun = false)
    (hr : r = { code := codeByte i, tag := tag, status := a.status, clamped := a.clamped, part := a.part, payload := a.payload }) :
    s.accept i tag (settled e) = (settle s.received t).answered r :=
  accept_eq_answered h hs (by simp [settled, he]) hf hr

/-- A request whose DONE carries fields read at the end of its event. -/
theorem accept_settledReply_eq_answered {s t : State} {i : Instr} {tag : Byte} {e : Effect} {f : State → State → List Byte}
    {a : Answer} {r : Reply} (h : s.accepting) (hs : i.shapeOk = true) (he : e s.received = (t, a))
    (hf : (settle s.received t).link.frameBegun = false)
    (hr : r = { code := codeByte i, tag := tag, status := a.status, clamped := a.clamped, part := a.part
                payload := if a.status = .done then f s.received (settle s.received t) else a.payload }) :
    s.accept i tag (settledReply e f) = (settle s.received t).answered r := by
  rw [accept_of_shapeOk tag _ h hs, answer_eq_answered _ _ (by simp only [settledReply, he]; rfl) hf, hr]
  cases hd : a.status <;> simp [hd]

/-- Every request is taken as accept takes it, with the effect that effectOf names. -/
theorem exec_of_effectOf {s : State} {i : Instr} {tag : Byte} {e : Effect} (h : effectOf i = some (tag, e)) :
    exec i s = .next (s.accept i tag e) := by
  cases i <;> simp only [effectOf, reduceCtorEq, Option.some.injEq, Prod.mk.injEq] at h <;> obtain ⟨rfl, rfl⟩ := h <;> rfl

end Sys2Proof.Machine
end

