-- ==== Sys2Proof/Laws/Settle.lean ====
section
/-! SUPPORT. The closing part of a step ends with nothing due: a count that every reaction lowers, and its bound. -/

namespace Sys2Proof.Machine

open Sys2Proof

/-! ### The count -/

/-- What a job may still be the occasion of: its return to FREE, its held item, its abort mark. -/
def Job.due (j : Job) : Nat :=
  (j.state != .free).toNat + j.line.held.isSome.toNat + j.markPending.toNat

/-- What the jobs may still be the occasion of. -/
def State.jobsDue (s : State) : Nat := (s.jobs.map Job.due).sum

/-- What a run not yet flashing may still be the occasion of. -/
def State.runDue (s : State) : Nat :=
  match s.expo.state, s.expo.flight with
  | .selecting, some fl =>
    1 + (if s.expo.lensTarget.isNone then 1 else 0) +
      (if s.turret.motion = .atRest then (if fl.selecting then 3 else 1) else 0)
  | .waitingTurret, some fl =>
    1 + (if s.expo.lensTarget.isNone then 1 else 0) +
      (if s.turret.motion = .atRest then (if fl.selecting then 2 else 1) else 0)
  | _, _ => 0

/-- Exchange positioning may still begin. -/
def Turret.exchangeDue (t : Turret) : Nat :=
  match t.exchange with
  | some n => if (t.stations.getD n Station.powerOn).state = .draining ∧ t.motion = .atRest then 1 else 0
  | none => 0

/-- What may still happen within the event, but for the heads and the lamp. -/
def State.due (s : State) : Nat :=
  s.jobsDue + s.engine.serving.isNone.toNat + (!s.proof.list.any PrintLine.isEntry).toNat + s.runDue +
    s.turret.exchangeDue + (s.proof.transit == .none).toNat

/-- The count that every reaction lowers. -/
def State.reactionsLeft (s : State) : Nat :=
  4 * s.due + 2 * s.reactHeads.isSome.toNat + s.reactLamp.isSome.toNat

/-! ### Jobs -/

theorem sum_modify_le {l : List Job} {n : Nat} {f : Job → Job} (h : ∀ j, (f j).due ≤ j.due) :
    ((l.modify n f).map Job.due).sum ≤ (l.map Job.due).sum := by
  induction l generalizing n with
  | nil => simp
  | cons j l ih =>
    cases n with
    | zero => simpa using h j
    | succ n => simpa using ih

theorem sum_modify_lt {l : List Job} {n : Nat} {f : Job → Job} (h : (f (l.getD n Job.free)).due < (l.getD n Job.free).due)
    (hn : n < l.length) : ((l.modify n f).map Job.due).sum < (l.map Job.due).sum := by
  induction l generalizing n with
  | nil => simp at hn
  | cons j l ih =>
    cases n with
    | zero => simpa using h
    | succ n => simpa using ih (by simpa using h) (by simpa using hn)

theorem lt_of_job_due {s : State} {n : Nat} (h : 0 < (s.job n).due) : n < s.jobs.length := by
  by_contra hn
  rw [State.job, List.getD_eq_default _ _ (by omega)] at h
  simp [Job.due, Job.free, LineInProgress.empty] at h

theorem jobsDue_onJob_le (s : State) (n : Nat) {f : Job → Job} (h : ∀ j, (f j).due ≤ j.due) :
    (s.onJob n f).jobsDue ≤ s.jobsDue := sum_modify_le h

theorem jobsDue_onJob_lt (s : State) (n : Nat) {f : Job → Job} (h : (f (s.job n)).due < (s.job n).due) :
    (s.onJob n f).jobsDue < s.jobsDue :=
  sum_modify_lt h (lt_of_job_due (by omega))

theorem jobsDue_congr {s t : State} (h : t.jobs = s.jobs) : t.jobsDue = s.jobsDue := by simp [State.jobsDue, h]

/-- A job's status is no occasion. -/
theorem jobsDue_setStatus (s : State) (n : Nat) (c : CompStatus) : (s.setStatus n c).jobsDue ≤ s.jobsDue := by
  have h : (s.setStatus n c).jobs = (s.onJob n fun j => { j with status := c }).jobs := by
    simp only [State.setStatus]; split <;> simp
  rw [jobsDue_congr h]
  exact jobsDue_onJob_le _ _ fun j => le_rfl

theorem jobsDue_restatus (s : State) (n : Nat) : (s.restatus n).jobsDue ≤ s.jobsDue := by
  simp only [State.restatus]
  (repeat' split) <;> first | exact le_rfl | exact jobsDue_setStatus _ _ _

theorem jobsDue_finishComposition (s : State) (n : Nat) : (s.finishComposition n).jobsDue ≤ s.jobsDue := by
  simp only [State.finishComposition]
  split
  · exact jobsDue_onJob_le _ _ fun j => le_rfl
  · exact le_rfl

/-- What an append makes of a job. -/
def Job.appended (b : Body) (j : Job) : Job :=
  match b with
  | .line l => Job.countLine l.flags j
  | .mark => { j with markPending := false }
  | _ => j

theorem appendEntry_jobs (s : State) (n : Nat) (b : Body) :
    (s.appendEntry n b).jobs = s.jobs.modify n (Job.appended b) := by
  have hm : s.jobs.modify n (fun j => j) = s.jobs := List.modify_id n s.jobs
  cases b <;> simp only [State.appendEntry] <;> simp [State.onJob]
  case line | mark => rfl
  all_goals exact hm.symm

theorem Job.appended_due (b : Body) (j : Job) : (Job.appended b j).due ≤ j.due := by
  cases b
  case mark => simp [Job.appended, Job.due]
  all_goals exact le_rfl

theorem jobsDue_appendEntry (s : State) (n : Nat) (b : Body) : (s.appendEntry n b).jobsDue ≤ s.jobsDue := by
  rw [State.jobsDue, appendEntry_jobs]
  exact sum_modify_le (Job.appended_due b)

theorem jobsDue_resumeEnding (s : State) (n : Nat) : (s.resumeEnding n).jobsDue ≤ s.jobsDue := by
  simp only [State.resumeEnding]
  (repeat' split) <;> first | exact le_rfl | skip
  exact jobsDue_onJob_le _ _ fun j => le_rfl

theorem jobsDue_admitted (s : State) (n : Nat) (b : Body) :
    (s.admitted n b).jobsDue ≤ (s.onLine n fun l => { l with held := none }).jobsDue := by
  simp only [State.admitted]
  generalize s.onLine n (fun l => { l with held := none }) = u
  have h : ∀ v : State, v.jobsDue ≤ u.jobsDue →
      (if ((v.finishComposition n).job n).status == .stalled .queueFull then
        ((v.finishComposition n).setStatus n .ready).restatus n else v.finishComposition n).jobsDue ≤ u.jobsDue := by
    intro v hv
    have hf := (jobsDue_finishComposition v n).trans hv
    split
    · exact ((jobsDue_restatus _ n).trans (jobsDue_setStatus _ n _)).trans hf
    · exact hf
  cases b
  case line => exact h _ (jobsDue_resumeEnding u n)
  all_goals exact h _ (jobsDue_onJob_le _ _ fun j => le_rfl)

/-! ### Each reaction -/

/-- What a reaction leaves of the count's parts outside the jobs, the run and the exchange. -/
theorem runDue_congr {s t : State} (h : t.expo.state = s.expo.state) (hf : t.expo.flight = s.expo.flight)
    (hl : t.expo.lensTarget = s.expo.lensTarget) (hm : t.turret.motion = s.turret.motion) : t.runDue = s.runDue := by
  simp only [State.runDue, h, hf, hl, hm]

theorem exchangeDue_congr {a b : Turret} (hx : b.exchange = a.exchange) (hm : b.motion = a.motion)
    (hs : ∀ n, (b.stations.getD n Station.powerOn).state = (a.stations.getD n Station.powerOn).state) :
    b.exchangeDue = a.exchangeDue := by
  simp only [Turret.exchangeDue, hx, hm, hs]

theorem reactFree_due {s t : State} (h : s.reactFree = some t) : t.due < s.due := by
  simp only [State.reactFree, Option.map_eq_some_iff] at h
  obtain ⟨n, hn, rfl⟩ := h
  have hf := List.find?_some hn
  have hjobs : (s.freeJob n).jobsDue < s.jobsDue := by
    have : (s.freeJob n).jobs = (s.onJob n fun j =>
        { Job.free with
          id := j.id, lineNumber := j.lineNumber, consecutive := j.consecutive, linesSet := j.linesSet,
          hyphenated := j.hyphenated, looseLines := j.looseLines, missingChars := j.missingChars,
          ignoredBytes := j.ignoredBytes, clampedCodes := j.clampedCodes }).jobs := by
      simp only [State.freeJob]; split <;> rfl
    rw [jobsDue_congr this]
    refine jobsDue_onJob_lt _ _ ?_
    have hs : (s.job n).state ≠ .free := by
      intro h0; simp [State.freeable, h0] at hf
    have : ((s.job n).state != .free).toNat = 1 := by simp [hs]
    simp only [Job.due, this, Job.free, LineInProgress.empty]
    simp
  simp only [State.due]
  rw [runDue_congr (s := s) (by simp) (by simp) (by simp) (by simp)]
  simp
  omega

theorem reactHeads_due {s t : State} (h : s.reactHeads = some t) :
    t.due = s.due ∧ t.reactHeads = none := by
  simp only [State.reactHeads] at h
  split at h
  · simp at h
  · cases h
    refine ⟨?_, ?_⟩
    · simp only [State.due]
      rw [runDue_congr (s := s) (by simp) (by simp) (by simp) (by simp), jobsDue_congr (s := s) (by simp)]
      simp
    · have : s.recomputeHeads.recomputeHeads = s.recomputeHeads := rfl
      simp [State.reactHeads, this]

theorem reactHeads_onExpo (s : State) (st : ExpoState) :
    (s.onExpo fun x => { x with state := st }).reactHeads.isSome = s.reactHeads.isSome := by
  have h1 : (s.onExpo fun x => { x with state := st }).recomputeHeads =
      s.recomputeHeads.onExpo fun x => { x with state := st } := rfl
  simp only [State.reactHeads, h1]
  simp [State.onExpo]
  split <;> rfl

/-- A change of the exposure alone. -/
theorem due_of_expo {s : State} {f : Exposure → Exposure} (h : (s.onExpo f).runDue = s.runDue) : (s.onExpo f).due = s.due := by
  simp only [State.due, h]
  rfl

theorem reactLamp_due {s t : State} (h : s.reactLamp = some t) :
    t.due = s.due ∧ t.reactLamp = none ∧ t.reactHeads.isSome = s.reactHeads.isSome := by
  simp only [State.reactLamp] at h
  split at h
  · next hs =>
    split at h
    · next hc =>
      cases h
      refine ⟨?_, ?_, reactHeads_onExpo s _⟩
      · exact due_of_expo (by simp [State.runDue, State.onExpo, hs])
      · simp only [Bool.and_eq_true] at hc
        exact if_pos hc.1.1
    · simp at h
  · next hs =>
    split at h
    · simp at h
    · next hc =>
      cases h
      refine ⟨?_, ?_, reactHeads_onExpo s _⟩
      · exact due_of_expo (by simp [State.runDue, State.onExpo, hs])
      · refine if_neg fun h2 => ?_
        simp only [Bool.and_eq_true] at h2
        exact hc h2.1.1
  · simp at h

/-- An append changes no station's state. -/
theorem appendEntry_station_state (s : State) (n : Nat) (b : Body) (k : Nat) :
    ((s.appendEntry n b).turret.stations.getD k Station.powerOn).state = (s.turret.stations.getD k Station.powerOn).state := by
  have hp : ∀ (u : State) (l : List Nat), ((u.pinStations l).turret.stations[k]?.getD Station.powerOn).state =
      (u.turret.stations[k]?.getD Station.powerOn).state := by
    intro u l
    refine foldl_keeps (P := fun u : State => (u.turret.stations[k]?.getD Station.powerOn).state) (fun u m => ?_) u l
    simp only [State.onStation, State.onTurret, List.getElem?_modify]
    cases u.turret.stations[k]? <;> simp
    split <;> rfl
  cases b <;> simp only [State.appendEntry] <;> simp [hp]

theorem appendEntry_due (s : State) (n : Nat) (b : Body) :
    (s.appendEntry n b).runDue = s.runDue ∧ (s.appendEntry n b).turret.exchangeDue = s.turret.exchangeDue :=
  ⟨runDue_congr (by simp) (by simp) (by simp) (by simp),
    exchangeDue_congr (by simp) (by simp) (appendEntry_station_state s n b)⟩

theorem offerWaiting_due {s t : State} (h : s.offerWaiting = some t) : t.due < s.due := by
  simp only [State.offerWaiting] at h
  obtain ⟨n, -, h⟩ := List.exists_of_findSome?_eq_some h
  split at h
  · simp at h
  · next b hb =>
    split at h
    swap
    · simp at h
    obtain ⟨hr, hx⟩ := appendEntry_due s n b
    split at h
    · next hm =>
      cases h
      have hb' : b = .mark := by simpa [Job.waiting, hm, eq_comm] using hb
      subst hb'
      have hj : (s.appendEntry n .mark).jobsDue < s.jobsDue := by
        rw [State.jobsDue, appendEntry_jobs]
        exact jobsDue_onJob_lt s n (f := Job.appended .mark) (by simp [Job.appended, Job.due, hm])
      simp only [State.due, hr, hx]
      simp
      omega
    · next hm =>
      cases h
      have hb' : (s.job n).line.held = some b := by simpa [Job.waiting, hm] using hb
      have hj : ((s.appendEntry n b).onLine n fun l => { l with held := none }).jobsDue < s.jobsDue := by
        have : ((s.appendEntry n b).onLine n fun l => { l with held := none }).jobs =
            (s.onJob n fun j => { Job.appended b j with line := { (Job.appended b j).line with held := none } }).jobs := by
          simp only [State.onLine, State.onJob, appendEntry_jobs]
          rw [List.modify_modify_eq]
          rfl
        rw [jobsDue_congr this]
        refine jobsDue_onJob_lt s n ?_
        have h1 := Job.appended_due b (s.job n)
        have h2 : (Job.appended b (s.job n)).line.held = some b := by rw [← hb']; cases b <;> rfl
        refine lt_of_lt_of_le ?_ h1
        simp [Job.due, h2]
      have hj2 := lt_of_le_of_lt (jobsDue_admitted (s.appendEntry n b) n b) hj
      have hr2 : ((s.appendEntry n b).admitted n b).runDue = s.runDue := by
        rw [← hr]; exact runDue_congr (by simp) (by simp) (by simp) (by simp)
      simp only [State.due, hr2]
      simp [hx]
      omega

theorem chooseTurn_due {s t : State} (h : s.chooseTurn = some t) : t.due < s.due := by
  simp only [State.chooseTurn] at h
  split at h
  · simp at h
  · next hs =>
    simp only [Option.map_eq_some_iff] at h
    obtain ⟨n, hn, rfl⟩ := h
    have hr : ∀ u : Engine → Engine, (s.onEngine u).runDue = s.runDue ∧ (s.onEngine u).jobsDue = s.jobsDue := fun _ => ⟨rfl, rfl⟩
    have he : ∀ u : Engine → Engine, (s.onEngine u).engine = u s.engine ∧ (s.onEngine u).proof = s.proof ∧
      (s.onEngine u).turret = s.turret := fun _ => ⟨rfl, rfl, rfl⟩
    simp only [State.due, hr, he, hs]
    simp

theorem takeEntry_proof (s : State) (e : Entry) :
    (s.takeEntry e).proof.list.any PrintLine.isEntry = true ∧ (s.takeEntry e).proof.transit = s.proof.transit := by
  have hf : ∀ p : Proof, p.follow.list = p.list ∧ p.follow.transit = p.transit := by
    intro p; simp only [Proof.follow]; (repeat' split) <;> exact ⟨rfl, rfl⟩
  have hg : s.proof.gapTaken.transit = s.proof.transit := by
    simp only [Proof.gapTaken]; (repeat' split) <;> rfl
  have hp : (s.takeEntry e).proof =
      ({ s.proof.gapTaken with list := s.proof.gapTaken.list ++ [s.entryLine e] } : Proof).follow := rfl
  rw [hp, (hf _).1, (hf _).2]
  exact ⟨by simp [State.entryLine, PrintLine.isEntry], hg⟩

theorem reactProof_due {s t : State} (h : s.reactProof = some t) : t.due < s.due := by
  simp only [State.reactProof] at h
  split at h
  · next hc =>
    simp only [Option.map_eq_some_iff] at h
    obtain ⟨e, -, rfl⟩ := h
    simp only [Bool.and_eq_true, Bool.not_eq_true'] at hc
    obtain ⟨h1, h2⟩ := takeEntry_proof s e
    have hr : (s.takeEntry e).runDue = s.runDue := runDue_congr (by simp) (by simp) (by simp) (by simp)
    have hj : (s.takeEntry e).jobsDue = s.jobsDue := jobsDue_congr (by simp)
    simp only [State.due, h1, h2, hc.2, hr, hj]
    simp
  · simp at h

/-- A reaction of the turret and the exposure alone. -/
theorem due_lt_of_run {s t : State} (hj : t.jobs = s.jobs) (he : t.engine = s.engine) (hp : t.proof = s.proof)
    (hx : t.turret.exchangeDue ≤ s.turret.exchangeDue) (hr : t.runDue < s.runDue) : t.due < s.due := by
  simp only [State.due, he, hp, jobsDue_congr hj]
  omega

theorem rotate_exchangeDue (t : Turret) (p : Purpose) (n : Nat) : (t.rotate p n).exchangeDue = 0 := by
  simp only [Turret.exchangeDue, Turret.rotate]
  split <;> simp

theorem select_due {s t : State} {fl : Flight} {r : Run} (hf : s.expo.flight = some fl) (hs : fl.selecting = true)
    (hst : s.expo.state = .selecting ∨ s.expo.state = .waitingTurret) (h : s.select fl r = some t) : t.due < s.due := by
  simp only [State.select] at h
  split at h
  · simp at h
  · next hm =>
    have hd : 0 < s.runDue := by
      simp only [State.runDue]
      rcases hst with hst | hst <;> simp only [hst, hf] <;> omega
    split at h
    · cases h
      refine due_lt_of_run rfl rfl rfl le_rfl ?_
      rcases hst with hst | hst <;> simp [State.runDue, State.onExpo, hst, hf, hm, hs]
    · split at h
      · split at h
        · simp at h
        · next hw =>
          cases h
          refine due_lt_of_run rfl rfl rfl le_rfl ?_
          have hst' : s.expo.state = .selecting := by
            rcases hst with hst | hst
            · exact hst
            · simp [hst] at hw
          simp [State.runDue, State.onExpo, hst', hf, hm, hs]
      · cases h
        refine due_lt_of_run rfl rfl rfl (by simp [State.onTurret, State.onExpo, rotate_exchangeDue]) ?_
        rcases hst with hst | hst <;> simp [State.runDue, State.onExpo, State.onTurret, Turret.rotate, hst, hf, hm, hs]

theorem lensFor_change {x : Exposure} {size : Nat} (h : (x.lensFor size != x.lensTarget) = true) :
    x.lensTarget = none ∧ (x.lensFor size).isSome = true := by
  cases hx : x.lensTarget with
  | some n => simp [Exposure.lensFor, hx] at h
  | none =>
    refine ⟨rfl, ?_⟩
    cases hl : x.lensFor size with
    | none => simp [hl, hx] at h
    | some n => rfl

theorem reactRun_due {s t : State} (h : s.reactRun = some t) : t.due < s.due := by
  have go : ∀ fl : Flight, s.expo.flight = some fl → s.expo.state = .selecting ∨ s.expo.state = .waitingTurret →
      (match s.flightRun fl with
        | none => none
        | some r =>
          if s.expo.lensFor r.size != s.expo.lensTarget then
            some (s.onExpo fun x => { x with lensTarget := x.lensFor r.size })
          else if fl.selecting then s.select fl r
          else if s.expo.lensTarget.isNone && s.turret.motion == .atRest then
            some (s.onExpo fun x => { x with state := .flashing, carriageTarget := some (s.flightX fl) })
          else none) = some t → t.due < s.due := by
    intro fl hf hst h
    split at h
    · simp at h
    · next r hr =>
      split at h
      · next hl =>
        cases h
        obtain ⟨h1, h2⟩ := lensFor_change hl
        refine due_lt_of_run rfl rfl rfl le_rfl ?_
        have h3 : (s.expo.lensFor r.size).isNone = false := by simpa [Option.isNone_iff_eq_none, Option.isSome_iff_ne_none] using h2
        rcases hst with hst | hst <;> simp [State.runDue, State.onExpo, hst, hf, h1, h3]
      · split at h
        · next hsel => exact select_due hf hsel hst h
        · split at h
          · cases h
            refine due_lt_of_run rfl rfl rfl le_rfl ?_
            have : (s.onExpo fun x => { x with state := .flashing, carriageTarget := some (s.flightX fl) }).runDue = 0 := by
              simp [State.runDue, State.onExpo]
            rw [this]
            simp only [State.runDue]
            rcases hst with hst | hst <;> simp only [hst, hf] <;> omega
          · simp at h
  simp only [State.reactRun] at h
  split at h
  · exact go _ ‹_› (.inl ‹_›) h
  · exact go _ ‹_› (.inr ‹_›) h
  · simp at h

theorem jobsDue_reask (s : State) (n : Nat) : (s.reask n).jobsDue ≤ s.jobsDue := by
  simp only [State.reask]
  (repeat' split) <;> first | exact jobsDue_setStatus _ _ _ | exact le_rfl

theorem jobsDue_changeStation (s : State) (n : Nat) (f : Station → Station) : (s.changeStation n f).jobsDue ≤ s.jobsDue := by
  simp only [State.changeStation, State.reaskAll, List.foldl]
  refine (jobsDue_reask _ 3).trans ((jobsDue_reask _ 2).trans ((jobsDue_reask _ 1).trans ((jobsDue_reask _ 0).trans_eq ?_)))
  exact jobsDue_congr rfl

theorem changeStation_stations (s : State) (n : Nat) (f : Station → Station) :
    (s.changeStation n f).turret.stations = s.turret.stations.modify n fun st => { f st with changed := true } := by
  simp [State.changeStation, State.onStation, State.onTurret]

theorem releaseHatch_due (s : State) (n : Nat) : (s.releaseHatch n).jobsDue ≤ s.jobsDue ∧
    ((s.releaseHatch n).turret.stations.getD n Station.powerOn).state ≠ .draining := by
  have hd : ∀ l : List Station, ((l.modify n fun st =>
      { st with state := .opened, font := none, changed := true }).getD n Station.powerOn).state ≠ .draining := by
    intro l
    rw [List.getD_eq_getElem?_getD, List.getElem?_modify]
    cases l[n]? <;> simp [Station.powerOn]
  simp only [State.releaseHatch]
  refine ⟨(jobsDue_changeStation _ _ _).trans_eq (jobsDue_congr ?_), ?_⟩
  · split <;> rfl
  · rw [changeStation_stations]
    exact hd _

theorem reactExchange_due {s t : State} (h : s.reactExchange = some t) : t.due < s.due := by
  simp only [State.reactExchange, Option.map_eq_some_iff] at h
  obtain ⟨n, hn, rfl⟩ := h
  have hx : s.turret.exchange = some n ∧ s.turret.exchangeDue = 1 := by
    simp only [Turret.positioningDue] at hn
    split at hn
    · simp at hn
    · next m hm =>
      split at hn
      · next hc =>
        cases hn
        simp only [Bool.and_eq_true, beq_iff_eq] at hc
        exact ⟨hm, by simp only [Turret.exchangeDue, hm]; rw [if_pos ⟨hc.1.1.1.1.1, hc.2⟩]⟩
      · simp at hn
  simp only [State.beginPositioning]
  split
  · obtain ⟨hj, hd⟩ := releaseHatch_due s n
    have hr : (s.releaseHatch n).runDue = s.runDue := runDue_congr (by simp) (by simp) (by simp) (by simp)
    have h0 : (s.releaseHatch n).turret.exchangeDue = 0 := by
      have h1 : (s.releaseHatch n).turret.exchange = some n := by simp [hx.1]
      simp only [Turret.exchangeDue, h1]
      rw [if_neg fun h => hd h.1]
    simp only [State.due, hr, h0, hx.2]
    simp
    omega
  · have hr : (s.onTurret (Turret.rotate .exchange ((n + 4) % 8))).runDue ≤ s.runDue := by
      simp only [State.runDue, State.onTurret, Turret.rotate]
      (repeat' split) <;> simp_all
    have h0 : (s.onTurret (Turret.rotate .exchange ((n + 4) % 8))).turret.exchangeDue = 0 := rotate_exchangeDue _ _ _
    have hj : (s.onTurret (Turret.rotate .exchange ((n + 4) % 8))).jobsDue = s.jobsDue := rfl
    simp only [State.due, h0, hx.2, hj]
    simp only [State.onTurret] at *
    omega

theorem reactSend_due {s t : State} (h : s.reactSend = some t) : t.due < s.due := by
  simp only [State.reactSend] at h
  split at h
  · simp at h
  · next hc =>
    cases h
    have hp : s.proof.transit = .none ∧ s.proof.sendNext.transit = .counted ∧ s.proof.sendNext.list = s.proof.list := by
      simp only [Proof.sendNext] at hc ⊢
      split
      · next hs => simp at hs; simp [hs]
      · next hs => simp [hs] at hc
    have hr : (s.onProof Proof.sendNext).runDue = s.runDue := rfl
    have hj : (s.onProof Proof.sendNext).jobsDue = s.jobsDue := rfl
    simp only [State.due, hr, hj]
    simp [State.onProof, hp]

/-! ### The end -/

theorem react_reactionsLeft {s t : State} (h : s.react = some t) : t.reactionsLeft < s.reactionsLeft := by
  have key : t.due < s.due → t.reactionsLeft < s.reactionsLeft := by
    intro hd
    simp only [State.reactionsLeft]
    have h1 := Bool.toNat_le t.reactHeads.isSome
    have h2 := Bool.toNat_le t.reactLamp.isSome
    omega
  simp only [State.react] at h
  rcases orElse_cases h with h | h
  · exact key (reactFree_due h)
  rcases orElse_cases h with h | h
  · obtain ⟨h1, h2⟩ := reactHeads_due h
    simp only [State.reactionsLeft, h1, h2, h]
    have h3 := Bool.toNat_le t.reactLamp.isSome
    simp
    omega
  rcases orElse_cases h with h | h
  · exact key (offerWaiting_due h)
  rcases orElse_cases h with h | h
  · exact key (chooseTurn_due h)
  rcases orElse_cases h with h | h
  · exact key (reactProof_due h)
  rcases orElse_cases h with h | h
  · obtain ⟨h1, h2, h3⟩ := reactLamp_due h
    simp [State.reactionsLeft, h1, h2, h3, h]
  rcases orElse_cases h with h | h
  · exact key (reactRun_due h)
  rcases orElse_cases h with h | h
  · exact key (reactExchange_due h)
  · exact key (reactSend_due h)

theorem reactAll_ends {n : Nat} {s : State} (h : s.reactionsLeft ≤ n) : (reactAll n s).react = none := by
  induction n generalizing s with
  | zero =>
    simp only [reactAll]
    cases hr : s.react with
    | none => rfl
    | some t => have := react_reactionsLeft hr; omega
  | succ n ih =>
    simp only [reactAll]
    split
    · assumption
    · next t ht => exact ih (by have := react_reactionsLeft ht; omega)

theorem reactionsLeft_le {s : State} (h : s.jobs.length = 4) : s.reactionsLeft ≤ 100 := by
  have hd : ∀ j : Job, j.due ≤ 3 := by
    intro j
    have h1 := Bool.toNat_le (j.state != .free)
    have h2 := Bool.toNat_le j.line.held.isSome
    have h3 := Bool.toNat_le j.markPending
    simp only [Job.due]
    omega
  have hj : s.jobsDue ≤ 12 := by
    have : ∀ l : List Job, (l.map Job.due).sum ≤ 3 * l.length := by
      intro l
      induction l with
      | nil => simp
      | cons j l ih => have := hd j; simp; omega
    have := this s.jobs
    rw [h] at this
    exact this
  have hr : s.runDue ≤ 5 := by
    simp only [State.runDue]; (repeat' split) <;> omega
  have hx : s.turret.exchangeDue ≤ 1 := by
    simp only [Turret.exchangeDue]; (repeat' split) <;> omega
  have h1 := Bool.toNat_le s.engine.serving.isNone
  have h2 := Bool.toNat_le (!s.proof.list.any PrintLine.isEntry)
  have h3 := Bool.toNat_le (s.proof.transit == .none)
  have h4 := Bool.toNat_le s.reactHeads.isSome
  have h5 := Bool.toNat_le s.reactLamp.isSome
  simp only [State.reactionsLeft, State.due]
  omega

/-- Where nothing is due, no block's reaction is. -/
theorem react_none {s : State} (h : s.react = none) :
    s.reactFree = none ∧ s.reactHeads = none ∧ s.offerWaiting = none ∧ s.chooseTurn = none ∧ s.reactProof = none ∧
    s.reactLamp = none ∧ s.reactRun = none ∧ s.reactExchange = none ∧ s.reactSend = none := by
  have go : ∀ {α : Type} {a : Option α} {f : Unit → Option α}, a.orElse f = none → a = none ∧ f () = none := by
    intro α a f h
    cases a with
    | none => exact ⟨rfl, h⟩
    | some x => simp at h
  simp only [State.react] at h
  obtain ⟨h1, h⟩ := go h
  obtain ⟨h2, h⟩ := go h
  obtain ⟨h3, h⟩ := go h
  obtain ⟨h4, h⟩ := go h
  obtain ⟨h5, h⟩ := go h
  obtain ⟨h6, h⟩ := go h
  obtain ⟨h7, h⟩ := go h
  obtain ⟨h8, h9⟩ := go h
  exact ⟨h1, h2, h3, h4, h5, h6, h7, h8, h9⟩

/-- The closing part's reactions end with none due. -/
theorem reactAll_settles {s : State} (h : s.jobs.length = 4) : (reactAll 100 s).react = none :=
  reactAll_ends (reactionsLeft_le h)

end Sys2Proof.Machine
end

