-- ==== Sys2Proof/Laws/Spacing.lean ====
section
/-! SUPPORT. What a line's distributions, its runs and its positions are, element by element. -/

namespace Sys2Proof.Machine

open Sys2Proof

/-- A share is the floor of its part, and one more for the first shares from the left (R80). -/
theorem share_spec (total : Nat) (sizes : List Nat) :
    (share total sizes).length = sizes.length ∧
    ∀ i z, sizes[i]? = some z → (share total sizes)[i]? =
      some (total * z / sizes.sum + if i < total - (sizes.map fun z => total * z / sizes.sum).sum then 1 else 0) := by
  refine ⟨by simp [share], fun i z hz => ?_⟩
  simp only [share, List.getElem?_map, List.getElem?_zipIdx, hz]
  simp
  split <;> rfl

/-- One unit each to the shares below their cap, from the left, while units remain (R81). -/
theorem topUp_spec (r : Nat) (l : List (Nat × Nat)) :
    (topUp r l).length = l.length ∧
    ∀ i x cap, l[i]? = some (x, cap) → (topUp r l)[i]? =
      some (if x < cap ∧ ((l.take i).filter fun y => y.1 < y.2).length < r then x + 1 else x) := by
  induction l generalizing r with
  | nil => simp [topUp]
  | cons a l ih =>
    obtain ⟨x, cap⟩ := a
    simp only [topUp]
    split
    · next h =>
      have h' : 0 < r ∧ x < cap := by simpa using h
      refine ⟨by simp [(ih (r - 1)).1], fun i y c hi => ?_⟩
      cases i with
      | zero =>
        simp at hi
        obtain ⟨rfl, rfl⟩ := hi
        simp [h'.1, h'.2]
      | succ i =>
        simp at hi ⊢
        rw [(ih (r - 1)).2 i y c hi]
        simp only [h'.2, decide_true, if_true, List.length_cons, List.filter_cons]
        congr 1
        have : ∀ n, n < r - 1 ↔ n + 1 < r := by intro n; omega
        simp only [this]
    · next h =>
      have h' : ¬(0 < r ∧ x < cap) := by simpa using h
      refine ⟨by simp [(ih r).1], fun i y c hi => ?_⟩
      cases i with
      | zero =>
        simp at hi
        obtain ⟨rfl, rfl⟩ := hi
        have : ¬(x < cap ∧ 0 < r) := fun h => h' ⟨h.2, h.1⟩
        simp [this]
      | succ i =>
        simp at hi ⊢
        rw [(ih r).2 i y c hi]
        by_cases hc : x < cap
        · have hr : r = 0 := by
            rcases Nat.eq_zero_or_pos r with h0 | h0
            · exact h0
            · exact absurd ⟨h0, hc⟩ h'
          subst hr
          simp
        · simp [hc]

theorem cappedShare_spec (total : Nat) (sizes caps : List Nat) (h : sizes.length = caps.length) :
    let lowered := (sizes.zip caps).map fun x => min (total * x.1 / sizes.sum) x.2
    (cappedShare total sizes caps).length = sizes.length ∧
    ∀ i x cap, lowered[i]? = some x → caps[i]? = some cap →
      (cappedShare total sizes caps)[i]? = some
        (if x < cap ∧ (((lowered.zip caps).take i).filter fun y => y.1 < y.2).length < total - lowered.sum then x + 1 else x) := by
  intro lowered
  have ht := topUp_spec (total - lowered.sum) (lowered.zip caps)
  refine ⟨by rw [cappedShare]; refine ht.1.trans ?_; simp [lowered, h], fun i x cap hx hc => ?_⟩
  rw [cappedShare]
  refine ht.2 i x cap ?_
  rw [List.getElem?_zip_eq_some]
  exact ⟨hx, hc⟩

/-- The runs of a line, glyph by glyph (R71, R85). -/
theorem runsOf_spec (gs : List Glyph) :
    (∀ r ∈ runsOf gs, 0 < r.count) ∧
    (∀ q ∈ (runsOf gs).zip ((runsOf gs).drop 1), q.1.font ≠ q.2.font ∨ q.1.size ≠ q.2.size) ∧
    (∀ g ∈ gs.head?, ∃ r ∈ (runsOf gs).head?, r.font = g.font ∧ r.size = g.size ∧
      ((∀ q ∈ gs.zip (gs.drop 1), q.1.font = q.2.font → q.1.size = q.2.size → q.1.station = q.2.station) → r.station = g.station)) ∧
    ((∀ q ∈ gs.zip (gs.drop 1), q.1.font = q.2.font → q.1.size = q.2.size → q.1.station = q.2.station) →
      ((runsOf gs).flatMap fun r => List.replicate r.count (r.station, r.font, r.size)) =
        gs.map fun g => (g.station, g.font, g.size)) := by
  induction gs with
  | nil => simp [runsOf]
  | cons g gs ih =>
    obtain ⟨h1, h2, h3, h4⟩ := ih
    cases gs with
    | nil => simp [runsOf]
    | cons h gs =>
      obtain ⟨r, hr, hf, hz, hst⟩ := h3 h rfl
      obtain ⟨rs, hrs⟩ : ∃ rs, runsOf (h :: gs) = r :: rs := by
        cases hx : runsOf (h :: gs) with
        | nil => rw [hx] at hr; simp at hr
        | cons a rs => rw [hx] at hr; simp at hr; exact ⟨rs, by rw [hr]⟩
      have heq : runsOf (g :: h :: gs) =
          if sameRun g h then { r with count := r.count + 1 } :: rs
          else { station := g.station, font := g.font, size := g.size, count := 1 } :: r :: rs := by
        rw [runsOf]; simp only [List.head?_cons, hrs]
      rw [hrs] at h1 h2 h4
      have hzip : ∀ {P : Glyph × Glyph → Prop}, (∀ q ∈ (g :: h :: gs).zip ((g :: h :: gs).drop 1), P q) →
          P (g, h) ∧ ∀ q ∈ (h :: gs).zip ((h :: gs).drop 1), P q := by
        intro P hP
        exact ⟨hP _ (by simp), fun q hq => hP q (by simp at hq ⊢; exact Or.inr hq)⟩
      rw [heq]
      by_cases hs : sameRun g h = true
      · have hs' : g.font = h.font ∧ g.size = h.size := by simpa [sameRun] using hs
        rw [if_pos hs]
        refine ⟨?_, ?_, ?_, ?_⟩
        · intro x hx
          rcases List.mem_cons.1 hx with rfl | hx
          · simp
          · exact h1 x (List.mem_cons_of_mem _ hx)
        · intro q hq
          cases rs with
          | nil => simp at hq
          | cons r2 rs =>
            simp at hq
            rcases hq with rfl | hq
            · exact h2 (r, r2) (by simp)
            · exact h2 q (by simp [hq])
        · intro x hx
          have hx : g = x := by simpa using hx
          subst hx
          refine ⟨_, rfl, by simp [hf, hs'.1], by simp [hz, hs'.2], fun hP => ?_⟩
          obtain ⟨p1, p2⟩ := hzip hP
          exact (hst p2).trans (p1 hs'.1 hs'.2).symm
        · intro hP
          obtain ⟨p1, p2⟩ := hzip hP
          have h5 := h4 p2
          simp only [List.flatMap_cons, List.map_cons] at h5 ⊢
          rw [List.replicate_succ, List.cons_append, h5]
          have : r.station = g.station := (hst p2).trans (p1 hs'.1 hs'.2).symm
          simp [this, hf, hz, hs'.1, hs'.2]
      · have hs' : ¬(g.font = h.font ∧ g.size = h.size) := by simpa [sameRun] using hs
        rw [if_neg hs]
        refine ⟨?_, ?_, ?_, ?_⟩
        · intro x hx
          rcases List.mem_cons.1 hx with rfl | hx
          · simp
          · exact h1 x hx
        · intro q hq
          simp at hq
          rcases hq with rfl | hq
          · simp only [hf, hz]; tauto
          · exact h2 q (by simpa using hq)
        · intro x hx
          have hx : g = x := by simpa using hx
          subst hx
          exact ⟨_, rfl, rfl, rfl, fun _ => rfl⟩
        · intro hP
          have h5 := h4 (hzip hP).2
          simp only [List.flatMap_cons, List.map_cons, List.replicate_one, List.singleton_append] at h5 ⊢
          rw [h5]

/-- A glyph and those after it: what stands before them grows by its advance, and by the gap or the letterspace that follows it. -/
theorem placeAt_cons_cons (g h : Glyph) (gs : List Glyph) (advs gaps pairs : List Nat) (start : Nat) :
    placeAt (g :: h :: gs) advs gaps pairs start = (g.code, (start + 64) / 128) ::
      if h.gap then placeAt (h :: gs) (advs.drop 1) (gaps.drop 1) pairs (start + advs.headD 0 + gaps.headD 0)
      else placeAt (h :: gs) (advs.drop 1) gaps (pairs.drop 1) (start + advs.headD 0 + pairs.headD 0) := rfl

/-- A glyph's position is the rounded sum of what stands before it (R84). -/
theorem placeAt_spec (gs : List Glyph) (advs gaps pairs : List Nat) (start : Nat) :
    (placeAt gs advs gaps pairs start).length = gs.length ∧
    ∀ k g, gs[k]? = some g →
      let before := ((gs.take (k + 1)).drop 1).countP Glyph.gap
      (placeAt gs advs gaps pairs start)[k]? = some (g.code,
        (start + ((advs.take k).sum + (gaps.take before).sum + (pairs.take (k - before)).sum) + 64) / 128) := by
  have hsum : ∀ (l : List Nat) (n : Nat), (l.take (n + 1)).sum = l.headD 0 + ((l.drop 1).take n).sum := by
    intro l n; cases l <;> simp
  induction gs generalizing advs gaps pairs start with
  | nil => simp [placeAt]
  | cons g gs ih =>
    cases gs with
    | nil =>
      refine ⟨by simp [placeAt], fun k x hk => ?_⟩
      have : k = 0 ∧ g = x := by cases k <;> simp_all
      obtain ⟨rfl, rfl⟩ := this
      simp [placeAt]
    | cons h gs =>
      rw [placeAt_cons_cons]
      refine ⟨by rw [List.length_cons]; split <;> rw [(ih _ _ _ _).1] <;> rfl, fun k x hk => ?_⟩
      cases k with
      | zero =>
        have hx : g = x := by simpa using hk
        subst hx
        simp
      | succ k =>
        have hk : (h :: gs)[k]? = some x := by simpa using hk
        have hle : (((h :: gs).take (k + 1)).drop 1).countP Glyph.gap ≤ k := by
          refine List.countP_le_length.trans ?_
          rw [List.length_drop, List.length_take]
          omega
        have hcount : ((((g :: h :: gs).take (k + 1 + 1)).drop 1).countP Glyph.gap) =
            (if h.gap then 1 else 0) + (((h :: gs).take (k + 1)).drop 1).countP Glyph.gap := by
          rw [List.take_succ_cons, List.drop_succ_cons, List.drop_zero, List.take_succ_cons, List.drop_succ_cons, List.drop_zero,
            List.countP_cons, Nat.add_comm]
        simp only [hcount, List.getElem?_cons_succ]
        have hi := fun a b c d => (ih a b c d).2 k x hk
        simp only at hi
        generalize (((h :: gs).take (k + 1)).drop 1).countP Glyph.gap = b at *
        by_cases hg : h.gap = true
        · simp only [hg, if_true]
          rw [hi, Nat.add_comm 1 b, hsum advs k, hsum gaps b, show k + 1 - (b + 1) = k - b by omega]
          congr 3
          omega
        · simp only [hg]
          have hi2 := hi (advs.drop 1) gaps (pairs.drop 1) (start + advs.headD 0 + pairs.headD 0)
          simp only [Bool.false_eq_true, if_false, Nat.zero_add]
          rw [hi2, hsum advs k, show k + 1 - b = (k - b) + 1 by omega, hsum pairs (k - b)]
          congr 3
          omega

end Sys2Proof.Machine
end

