-- ==== Sys2Proof/Tests/Slice0.lean ====
section
/-! SUPPORT. Tests: ill-formed commands that WellFormed refuses; the spec's worked values; one step on small states; and, for each
statement with hypotheses, a concrete state and operands that meet them clause by clause. -/

namespace Sys2Proof.Tests

-- One theorem at a time: each of these proofs is a kernel evaluation.
set_option Elab.async false

open Sys2Proof Sys2Proof.Machine

/-! ### Small states -/

/-- A font of unit width 50 in every character, with the hyphen 0x2D. -/
def fontDef (number master : Nat) : FontDef :=
  { number := number, master := master, widths := List.replicate 190 50, hyphen := none, kerns := [], gain := 1, offset := -2,
    face := 0, map := some [(0xA5#8, 0x61#8)] }

def record (number master : Nat) : FontRecord :=
  { number := number, master := master, widths := List.replicate 190 50, hyphen := 0x2D#8, kerns := [], gain := 1, offset := -2,
    face := .plain, map := some [(0xA5#8, 0x61#8)], stationPart := 0, entryPart := 0, linePart := 0 }

def openParams : OpenParams :=
  { font := 1, size := 100, leading := 120, measure := 2400, left := 0, right := 0, paragraph := 0, spaceMin := 20,
    spaceOpt := 30, spaceMax := 60, letterMax := 3, minPrefix := 2, minSuffix := 2, ladder := 2, grade := 3, zone := 0,
    quad := 0, hyphenate := 1, language := 0, policy := 0 }

def params : Params :=
  { font := 1, size := 100, leading := 120, measure := 2400, left := 0, right := 0, paragraph := 0, spaceMin := 20,
    spaceOpt := 30, spaceMax := 60, letterMax := 3, minPrefix := 2, minSuffix := 2, ladder := 2, grade := 3, zone := 0,
    quad := .justify, hyphenate := true, language := 0, policy := .required }

/-- Reset with waiting replies. -/
def waiting (n : Nat) : State :=
  State.reset.onLink fun l =>
    { l with replies := List.replicate n (plainReply (.identify 1) 1 .done), direction := .controllerToHost }

/-- Three replies waiting, one font in the catalogue, mounted on station 2, and the pass over. -/
def mounted : State :=
  { waiting 3 with
    fonts := [{ record 1 10 with stationPart := 1 }]
    turret := { State.reset.turret with
      motion := .atRest, pass := .none
      stations := (List.range 8).map fun n =>
        { state := if n = 2 then .mounted else .empty, code := if n = 2 then 10 else 4095
          font := if n = 2 then some 1 else none, prior := none, pins := 0, claims := 0, changed := false } } }

/-- A job in slot 0, ACTIVE, with a given text and line in progress, served by the engine. -/
def servedWith (text : List Byte) (l : LineInProgress) : State :=
  { mounted with
    jobs := [{ Job.free with id := 7, state := .active, status := .ready, params := params, paragraphMark := true, text := text
                             line := l, lineNumber := 1 }, Job.free, Job.free, Job.free]
    galleyOrder := [0], exposureHead := some 0, proofHead := some 0, engine := { serving := some 0, pointer := 0 } }

/-- A word of one character that has ended. -/
def endedLine (font : Nat) : LineInProgress :=
  { LineInProgress.empty with ended := some { items := [.char 0x41#8 font 100], cont := false, hasCont := false } }

/-- A line of one glyph with an ending due. -/
def endingLine (glyphs : List Glyph) (p : Option LineParams) : LineInProgress :=
  { LineInProgress.empty with
    glyphs := glyphs, params := p, ending := some { paragraph := true, action := .nothing, lineSet := false } }

def glyph : Glyph := { code := 0x41#8, font := 1, size := 100, station := 2, gap := false }

def lineParams : LineParams :=
  { measure := 2400, effLeft := 0, right := 0, quad := .justify, spaceMin := 20, spaceOpt := 30, spaceMax := 60,
    letterMax := 3, hyphenate := true, language := 0, leading := 120, paragraph := true }

def lineBody : LineBody :=
  { lineNumber := 1, depth := 300, measure := 2400, effLeft := 0, mode := .justify
    runs := [{ station := 2, font := 1, size := 100, count := 2 }, { station := 3, font := 1, size := 120, count := 1 }]
    glyphs := [(0x41#8, 0), (0x42#8, 195), (0x43#8, 390)], flags := [.last] }

def entryOf (b : Body) : Entry :=
  { serial := 5, slot := 0, jobId := 7, attributed := true, expo := .waiting, proof := .notTaken, required := true, body := b }

/-- An entry named for exposure, IDLE, with a loaded film. -/
def named (b : Body) : State :=
  let s := servedWith [] LineInProgress.empty
  { s with
    queue := { s.queue with entries := [entryOf b], nextSerial := 6 }
    expo := { s.expo with state := .idle, named := some 5 }
    lamp := { s.lamp with state := .ready, validityTimer := true }
    film := { s.film with loaded := 100000, baseline := 2000, highMark := 2000, origin := 500, owner := .job 0 7, present := true } }

def flight (run g : Nat) : Flight :=
  { serial := 5, kind := .line, attributed := true, run := run, glyph := g, leadDone := true, selecting := false
    coverSeen := false, lampSeen := false }

/-- A line being flashed at a glyph. -/
def flashingAt (run g : Nat) : State :=
  let s := named (.line lineBody)
  { s with expo := { s.expo with
      state := .flashing, flight := some (flight run g), flashing := true, carriageTarget := some 195, lens := some 100 } }

/-- A film move under way. -/
def moving (state : FilmState) (m : Mover) (target trims : Nat) : State :=
  let s := named (.line lineBody)
  { s with film := { s.film with state := state, mover := m, target := some target, trims := trims, measured := 2100 } }

/-- A line being printed. -/
def printing (p : Proof → Proof) : State :=
  let s := named (.line lineBody)
  { s with
    queue := { s.queue with entries := [{ entryOf (.line lineBody) with proof := .inPrint }] }
    proof := p { s.proof with
      state := .printing, list := [{ kind := .entry 5, bytes := [0x41#8, 0x0D#8, 0x0A#8] }], begun := true
      transit := .counted } }

def word : List Byte := [0x61#8, 0x62#8, 0x63#8]

def letters : List Nat := (List.range 190).map fun i => if 64 ≤ i ∧ i < 90 then i - 63 else 0

def table : LanguageTable := { letterMap := letters, vowels := [1], rules := [] }

def dictEntry (slot : Nat) (sc : Scope) : DictEntry :=
  { slot := slot, language := 0, word := [1, 2, 3], breaks := [], scope := sc, hits := 1 }

/-- A dictionary of two entries, with slot 1 empty. -/
def worded : State :=
  { servedWith [] LineInProgress.empty with
    languages := [some table, none, none, none], dict := [dictEntry 0 .house, dictEntry 2 .desk] }


/-! ### Ill-formed commands -/

def refusesAll (l : List Instr) : Bool := l.all fun i => !i.wellFormed

def long : List Byte := List.replicate 256 0x61#8

def breaks256 : List WordBreak := List.replicate 256 { position := 1, grade := 1 }

def language : LanguageDef :=
  { letterMap := letters, vowels := [1], rules := [{ suffix := true, grade := 1, letters := [9, 14, 7] }] }

def house : ScopeArg := { scope := 0, slot := 0, jobId := 0 }

def revision : FontRevision := { density := none, face := none, map := .keep, widths := none, kerns := none, hyphen := none }

def pair : KernPair := { first := 0x41#8, second := 0x42#8, adjust := -16 }

/-- R196: payloads of another shape than their rule gives. -/
theorem test_shapes_refused :
    refusesAll
      [.defineFont 1 { fontDef 1 10 with widths := List.replicate 189 50 },
       .defineFont 1 { fontDef 1 10 with kerns := List.replicate 256 pair },
       .defineFont 1 { fontDef 1 10 with map := some (List.replicate 256 (0x41#8, 0x42#8)) },
       .reviseFont 1 1 { revision with widths := some (List.replicate 256 (0x41#8, 1)) },
       .reviseFont 1 1 { revision with kerns := some (List.replicate 256 pair) },
       .reviseFont 1 1 { revision with map := .replace (List.replicate 256 (0x41#8, 0x42#8)) },
       .defineLanguage 1 0 { language with letterMap := [] },
       .defineLanguage 1 0 { language with vowels := List.replicate 256 1 },
       .defineLanguage 1 0 { language with rules := List.replicate 256 { suffix := false, grade := 1, letters := [1] } },
       .defineLanguage 1 0 { language with rules := [{ suffix := false, grade := 1, letters := List.replicate 16 1 }] },
       .setStationProtection 1 (List.replicate 256 0), .sendText 1 0 (List.replicate 600 0x41#8), .tryWord 1 0 long,
       .addWord 1 0 long [] house, .addWord 1 0 word breaks256 house, .amendWord 1 (.byKey 0 long house) [],
       .amendWord 1 (.bySlot 0) breaks256, .retireWord 1 (.byKey 0 long house), .queryWord 1 (.byKey 0 long house),
       .queryWord 1 (.asSeenBy 0 0 long)] = true := by decide +kernel

/-- R207: numbers that do not fit their fields, and readings no device reports: link, fonts, turret. -/
theorem test_link_font_turret_values_refused :
    refusesAll
      [.lengthFieldError 2, .lengthFieldError 622, .lengthFieldError 65536, .requestFrameFormat 0 0 (List.replicate 621 0#8),
       .setNoticeTiming 1 256 0 0, .setNoticeTiming 1 0 256 0, .setNoticeTiming 1 0 0 65536,
       .defineFont 1 { fontDef 1 10 with number := 65536 }, .defineFont 1 { fontDef 1 10 with master := 65536 },
       .defineFont 1 { fontDef 1 10 with widths := List.replicate 190 256 },
       .defineFont 1 { fontDef 1 10 with kerns := [{ pair with adjust := -129 }] },
       .defineFont 1 { fontDef 1 10 with gain := 128 }, .defineFont 1 { fontDef 1 10 with offset := -129 },
       .defineFont 1 { fontDef 1 10 with face := 256 }, .reviseFont 1 65536 revision,
       .reviseFont 1 1 { revision with density := some (128, 0) }, .reviseFont 1 1 { revision with density := some (0, 128) },
       .reviseFont 1 1 { revision with face := some 256 }, .reviseFont 1 1 { revision with widths := some [(0x41#8, 256)] },
       .reviseFont 1 1 { revision with kerns := some [{ pair with adjust := 128 }] }, .retireFont 1 65536,
       .queryFont 1 65536, .prepareExchange 1 256, .cancelExchange 1 256, .setStationProtection 1 [256],
       .stripReadComplete 4096] = true := by decide +kernel

/-- The same: jobs and words. -/
theorem test_job_word_values_refused :
    refusesAll
      ([.openJob 1 256 1 openParams, .openJob 1 0 65536 openParams, .sendText 1 256 [], .closeJob 1 256 1,
        .closeJob 1 0 65536, .abortJob 1 256 1, .abortJob 1 0 65536, .queryJob 1 256, .tryWord 1 256 [],
        .setGalleyGap 1 65536, .defineLanguage 1 256 language,
        .defineLanguage 1 0 { language with letterMap := List.replicate 190 256 },
        .defineLanguage 1 0 { language with vowels := [256] },
        .defineLanguage 1 0 { language with rules := [{ suffix := false, grade := 4, letters := [1] }] },
        .defineLanguage 1 0 { language with rules := [{ suffix := false, grade := 1, letters := [64] }] },
        .queryLanguage 1 256, .addWord 1 256 word [] house, .addWord 1 0 word [] { house with scope := 256 },
        .addWord 1 0 word [] { house with slot := 256 }, .addWord 1 0 word [] { house with jobId := 65536 },
        .addWord 1 0 word [{ position := 256, grade := 1 }] house, .addWord 1 0 word [{ position := 1, grade := 256 }] house,
        .amendWord 1 (.bySlot 65536) [], .amendWord 1 (.byKey 256 word house) [],
        .amendWord 1 (.byKey 0 word { house with slot := 256 }) [], .amendWord 1 (.bySlot 0) [{ position := 256, grade := 1 }],
        .amendWord 1 (.bySlot 0) [{ position := 1, grade := 256 }], .retireWord 1 (.bySlot 65536),
        .retireWords 1 256 0 0 0, .retireWords 1 0 256 0 0, .retireWords 1 0 0 256 0, .retireWords 1 0 0 0 65536,
        .pruneWords 1 256 0, .pruneWords 1 0 65536, .queryWord 1 (.bySlot 65536), .queryWord 1 (.byKey 256 word house),
        .queryWord 1 (.byKey 0 word { house with slot := 256 }), .queryWord 1 (.asSeenBy 256 0 word),
        .queryWord 1 (.asSeenBy 0 256 word), .listWords 1 65536 0 0 0 0, .listWords 1 0 256 0 0 0, .listWords 1 0 0 256 0 0,
        .listWords 1 0 0 0 256 0, .listWords 1 0 0 0 0 65536] ++
       ([{ openParams with font := 65536 }, { openParams with size := 65536 }, { openParams with leading := 65536 },
         { openParams with measure := 65536 }, { openParams with left := 65536 }, { openParams with right := 65536 },
         { openParams with paragraph := 65536 }, { openParams with zone := 65536 }, { openParams with spaceMin := 256 },
         { openParams with spaceOpt := 256 }, { openParams with spaceMax := 256 }, { openParams with letterMax := 256 },
         { openParams with minPrefix := 256 }, { openParams with minSuffix := 256 }, { openParams with ladder := 256 },
         { openParams with grade := 256 }, { openParams with quad := 256 }, { openParams with hyphenate := 256 },
         { openParams with language := 256 }, { openParams with policy := 256 }] : List OpenParams).map (.openJob 1 0 1) ++
       ([{ houseDefaults with spaceFloor := 256 }, { houseDefaults with spaceCeiling := 256 },
         { houseDefaults with letterCeiling := 256 }, { houseDefaults with prefixFloor := 256 },
         { houseDefaults with suffixFloor := 256 }, { houseDefaults with ladderCeiling := 256 },
         { houseDefaults with sizeLow := 65536 }, { houseDefaults with sizeHigh := 65536 },
         { houseDefaults with measureLow := 65536 }, { houseDefaults with measureHigh := 65536 }] :
         List HouseStyle).map (.setHouseStyle 1)) = true := by decide +kernel

/-- The same: queue, exposure, lamp, film and proof. -/
theorem test_output_values_refused :
    refusesAll
      [.setQueueMarks 1 256 0 0 0, .setQueueMarks 1 0 256 0 0, .setQueueMarks 1 0 0 65536 0, .setQueueMarks 1 0 0 0 65536,
       .queryQueue 1 (.summary 256), .queryQueue 1 (.entry 65536 0), .queryQueue 1 (.entry 0 256), .flashComplete 4096,
       .photocellSample 4096, .setLamp 1 65536 0 0, .setLamp 1 0 65536 0, .setLamp 1 0 0 256, .driveStop 2160001,
       .loadFilm 1 16777216, .setLowFilm 1 16777216, .setProof 1 256 300, .setProof 1 0 65536,
       .printerByteDiscarded 0x11#8, .printerByteDiscarded 0x13#8] = true := by decide +kernel

/-- Commands at the ends of their fields are well formed. -/
theorem test_well_formed :
    ([.powerOnReset ⟨true, true, true, true⟩, .lengthFieldError 1, .lengthFieldError 623, .setNoticeTiming 1 255 255 65535,
      .defineFont 1 (fontDef 999 4094), .sendText 1 3 (List.replicate 599 0x41#8), .openJob 1 3 65535 openParams,
      .defineLanguage 1 3 language, .stripReadComplete 4095, .driveStop 0, .loadFilm 1 2160001] : List Instr).all
      Instr.wellFormed = true := by decide +kernel

/-! ### The spec's worked values -/

/-- 08, Worked Example: Exposure Durations. -/
theorem test_flash_durations :
    flashDuration 95 1 (-2) 1800 = 46 ∧ foldIndex 1800 1750 = 1794 ∧ flashDuration 95 1 (-2) 1794 = 46 ∧
    flashDuration 720 3 7 900 = 320 ∧ rawDuration 720 3 7 900 = 385 ∧ flashDuration 50 (-3) (-8) 4000 = 10 ∧
    rawDuration 50 (-3) (-8) 4000 = 8 := by decide +kernel

/-- 04, the two lines that are shared between gaps, with their remainders. -/
theorem test_shares : share 37575 [95, 95] = [18788, 18787] ∧ share 44225 [95, 95, 95] = [14742, 14742, 14741] := by
  decide +kernel

/-- 04, A Loose Line: gaps of 33,275 fu and pairs of 1,900; with a maximum of 8 wu, pairs of 3,800 and gaps of 19,025. -/
theorem test_loose_line :
    let p : LineParams := { lineParams with spaceMax := 40, letterMax := 4, measure := 3600 }
    justifyGaps p 95050 [95, 95] (List.replicate 15 95) =
      { gaps := [33275, 33275], pairs := List.replicate 15 1900, offset := 0, flags := [.loose, .letterspaced] } ∧
    (justifyGaps { p with letterMax := 8 } 95050 [95, 95] (List.replicate 15 95)).gaps = [19025, 19025] := by decide +kernel

/-- 04, 09: depths of 238, 300 and, rounded, 1200 and 1500 eu. -/
theorem test_depths : [95, 120, 480, 600].map toEu = [238, 300, 1200, 1500] := by decide +kernel

def english : LanguageTable :=
  { letterMap := (List.range 190).map fun i => if 64 ≤ i ∧ i < 90 then i - 63 else if 32 ≤ i ∧ i < 58 then i - 31 else 0
    vowels := [1, 5, 9, 15, 21]
    rules := [{ suffix := false, grade := 1, letters := [21, 14] }, { suffix := true, grade := 2, letters := [5, 4] }] }

/-- 05, Candidates for One Word: "Unbalanced," with its core at 0, and the candidates 2, 4 and 7. -/
theorem test_unbalanced :
    let a := analyse { State.reset with languages := [none, some english, none, none] } 2 1 2 3
      ((ascii "Unbalanced,").map fun c => { code := c, explicit := false }) []
    a.cls = .rules ∧ a.start = 0 ∧ a.length = 10 ∧
    a.candidates = [{ position := 2, grade := 1, source := .prefixRule }, { position := 4, grade := 3, source := .single },
      { position := 7, grade := 2, source := .cluster }] := by decide +kernel

/-- 05: with two discretionary marks, the candidates 2 and 5 of a core of eleven characters. -/
theorem test_discretionary :
    let a := analyse State.reset 2 1 2 3 ((ascii "Unbalanced,").map fun c => { code := c, explicit := false }) [2, 5]
    a.cls = .discretionary ∧ a.length = 11 ∧ a.candidates.map (·.position) = [2, 5] := by decide +kernel

def proofed : List Run := [{ station := 2, font := 212, size := 95, count := 6 }, { station := 3, font := 405, size := 95, count := 2 }]

/-- 10, One Proof Line: 77 bytes, the margin " 1042 M", the é printed as e and the degree sign as a question mark; and the gap line of
33 bytes. -/
theorem test_proof_line :
    let s : State := { State.reset with fonts :=
      [{ record 212 10 with face := .plain, map := some [(0xE9#8, 0x65#8)] }, { record 405 11 with face := .bold, map := none }] }
    let l := s.proofLine
      { lineNumber := 1042, depth := 238, measure := 3600, effLeft := 0, mode := .justify, runs := proofed, flags := [.last]
        glyphs := (ascii "Caf").zip [0, 104, 186] ++ [(0xE9#8, 238), (0x34#8, 397), (0xB0#8, 486), (0x42#8, 616), (0x2E#8, 720)] }
    l.length = 77 ∧ l.take 7 = ascii " 1042 M" ∧ l[12]? = some 0x43#8 ∧ l[19]? = some 0x65#8 ∧
    l[28]? = some 0x3F#8 ∧ l[37]? = some 0x0D#8 ∧ l[70]? = some 0x42#8 ∧ l[76]? = some 0x0A#8 ∧
    (gapLine 3).bytes.length = 33 := by decide +kernel

/-- 10: glyphs crowded on a measure of 13,500 eu. -/
theorem test_crowded_columns :
    (placeGlyphs 13500 ([0, 95, 160, 230, 300, 410, 700].map fun x => { code := 0x41#8, x := x, face := .plain, map := none })
      [] false).1.map Prod.fst = [0, 1, 2, 3, 4, 5, 6] := by decide +kernel

/-- 09, A Three-Column Galley: the two reverse moves, the cut's target, and the condition after the cut. -/
theorem test_film_example :
    let f : Film := { State.reset.film with loaded := 40000, highMark := 1200 }
    { f with baseline := 1200 }.reverseMove 1200 = 1200 ∧ { f with baseline := 900 }.reverseMove 1500 = 900 ∧
    { f with baseline := 300 }.leadTarget (some 1800) 238 = 3238 ∧ { f with highMark := 3476 }.cutTarget = 4376 ∧
    { f with highMark := 3476 }.low = false ∧ { f with highMark := 4376 }.low = true := by decide +kernel

/-! ### One step -/

/-- R198: IDENTIFY from reset. -/
theorem test_identify_reply :
    (step { State.reset with pending := [.identify 7] }) =
      .next (State.reset.answered (replyWith (.identify 7) 7 .done (identifyEffect State.reset).2.payload)) := by rfl

/-- R196: a frame whose code is no request's. -/
theorem test_unknown_code : requestOfFrame 0x02#8 9#8 [] = some (.status 9) ∧ requestOfFrame 0x02#8 9#8 [0#8] = none ∧
    requestOfFrame 0xEE#8 9#8 [] = none := by decide +kernel

/-- R158: the lamp is switched on from OFF and not twice. -/
theorem test_lamp_on :
    (exec (.lampOn 3) State.reset) =
      .next (({ State.reset with lamp := { State.reset.lamp with state := .igniting, ignitionTimer := true } } : State).answered
        (plainReply (.lampOn 3) 3 .started)) := by rfl

/-- R109: the lowest empty slot of a dictionary with entries 0 and 2. -/
theorem test_lowest_slot : lowestFree 0 worded.dict = 1 := by decide +kernel

/-- R36: the index found begins the pass with the read of the station opposite the hatch. -/
theorem test_index_found :
    exec .indexFound State.reset = .next { State.reset with turret := { State.reset.turret with
      position := 0, motion := .rotating .verification 0, pass := .reading 0, read := .first } } := by rfl

/-! ### Witnesses: states and operands that meet the hypotheses of each statement, clause by clause -/

/-- The state after a command. -/
def after (i : Instr) (s : State) : State := match exec i s with | .next t => t | _ => s

theorem witness_StepTakesTheFrontCommand :
    ({ State.reset with pending := [.dispatch, .takeByte] } : State).pending = .dispatch :: [.takeByte] ∧
    State.reset.pending = [] := ⟨rfl, rfl⟩

theorem witness_ReceivedRequestGetsOneReply :
    effectOf (.identify 7) = some (7, identifyEffect) ∧ (∀ g, Instr.identify 7 ≠ .resetLink g) ∧ (waiting 3).accepting ∧
    effectOf (.tryWord 7 0 long) = some (7, tryWordEffect 0 long) ∧ (Instr.tryWord 7 0 long).shapeOk = false :=
  ⟨rfl, fun _ h => (nomatch h), by decide +kernel, rfl, by decide +kernel⟩

theorem witness_RefusedRequestChangesNothing :
    (∃ e, effectOf (.openJob 7 4 1 openParams) = some (7, e)) ∧ mounted.accepting ∧ mounted.received.atRest ∧
    exec (.openJob 7 4 1 openParams) mounted = .next (after (.openJob 7 4 1 openParams) mounted) ∧
    (after (.openJob 7 4 1 openParams) mounted).link.replies =
      mounted.link.replies ++ [plainReply (.openJob 7 4 1 openParams) 7 .range] ∧
    settlesAfter (.retireFont 7 1) = false ∧
    (after (.retireFont 7 1) mounted).link.replies =
      mounted.link.replies ++ [replyWith (.retireFont 7 1) 7 .inUse [1, 1, 0, 0]] :=
  ⟨⟨_, rfl⟩, by decide +kernel, by decide +kernel, rfl, by decide +kernel, by decide +kernel, by decide +kernel⟩

theorem witness_FramesWaitForTheReplyQueue :
    isFrame (.identify 7) = true ∧ ({ waiting 4 with link := { (waiting 4).link with discarding := true } }).link.discarding = true ∧
    (waiting 4).link.discarding = false ∧ 4 ≤ (waiting 4).link.replies.length ∧ (waiting 0).link.replies = [] ∧
    (waiting 1).link.replies = plainReply (.identify 1) 1 .done :: [] ∧ (waiting 1).link.withheld = [] ∧
    (let s := after (.identify 7) (waiting 4)
     s.link.withheld = [.identify 7] ∧ s.link.replies.length = 4 ∧
     (after (.status 8) s).link.withheld = .identify 7 :: [.status 8]) := by decide +kernel

theorem witness_MalformedFramesAreAnsweredFormat :
    (waiting 3).accepting ∧ requestOfFrame 0x02#8 7 [0] = none ∧ 1 < 2 ∧ 622 < 623 ∧
    (∃ e, effectOf (.sendText 7 0 (List.replicate 600 0x41#8)) = some (7, e)) ∧
    (Instr.sendText 7 0 (List.replicate 600 0x41#8)).shapeOk = false :=
  ⟨by decide +kernel, by decide +kernel, by decide, by decide, ⟨_, rfl⟩, by decide +kernel⟩

/-- A CLOSING job whose composition is finished and whose entries have left the queue. -/
def drained : State :=
  let s := servedWith [] LineInProgress.empty
  { s with
    jobs := s.jobs.modify 0 fun j => { j with state := .closing, finished := true, linesSet := 4 }
    engine := { serving := none, pointer := 0 } }

theorem witness_ClosingPartFrame :
    drained.jobs.length = 4 ∧ 0 < drained.jobs.length ∧ drained.freeable 0 = true ∧
    (let t := reactAll 100 drained
     t.react = none ∧ t.galleyOrder = [] ∧ t.exposureHead = none ∧ (t.job 0).state = .free ∧ (t.job 0).id = 7 ∧
     (t.job 0).linesSet = 4 ∧ t.link.holds .jobDrained = true) ∧
    (let t := reactAll 100 (servedWith [0x41#8] LineInProgress.empty)
     0 ∈ t.galleyOrder ∧ (t.job 0).waiting = none ∧ t.engine.serving = some 0) ∧
    (let s := named (.line lineBody)
     let u : State := { s with proof := { s.proof with state := .idle, named := some 5 } }
     u.proof.taking = true ∧ (∀ l ∈ u.proof.list, l.isEntry = false) ∧ (reactAll 100 u).proof.list.length = 1) := by decide +kernel

theorem witness_IdentifyGivesTheFixedValues : (waiting 0).accepting ∧ (waiting 3).accepting := by decide +kernel

theorem witness_NoticeRequestsAndAttn :
    (waiting 3).accepting ∧ 0x100000#24 &&& 0xF00000#24 ≠ 0#24 ∧ 0x0FFFFF#24 &&& 0xF00000#24 = 0#24 ∧
    ¬(101 ≤ 100 ∧ 255 ≤ 255 ∧ 1000 ≤ 1000) ∧ 100 ≤ 100 ∧ 255 ≤ 255 ∧ 1000 ≤ 1000 := by decide +kernel

theorem witness_LineExposedIsDeliveredByItsTimers :
    let running := State.reset.onLink fun l => { l with delayTimer := some 20, absTimer := some 200 }
    running.link.delayTimer ≠ none ∧ running.link.absTimer ≠ none ∧
    (State.reset.onLink fun l => { l with delayMs := 0 }).link.delayMs = 0 ∧
    (State.reset.onLink fun l => { l with limitMs := 0 }).link.limitMs = 0 ∧
    State.reset.link.delayMs ≠ 0 ∧ State.reset.link.limitMs ≠ 0 := by decide +kernel

theorem witness_LinkResetRestoresTheLink : (waiting 3).accepting ∧ (waiting 4).link.withheld = [] := by decide +kernel

theorem witness_CompositionResetFreesTheJobs :
    (flashingAt 0 0).accepting ∧ (flashingAt 0 0).expo.flight.isSome = true ∧ (flashingAt 0 0).film.owner = .job 0 7 ∧
    ((flashingAt 0 0).queue.entries.map (·.serial)).Nodup ∧ (flashingAt 0 0).queue.entries.length = 1 := by decide +kernel

theorem witness_QueriesChangeNothing :
    (waiting 3).accepting ∧ word.length < 256 ∧ word.length ≤ 240 ∧ (servedWith [] LineInProgress.empty).accepting ∧
    ((servedWith [] LineInProgress.empty).job 0).composing = true ∧ 63 < 64 ∧ 63 ≤ 63 := by decide +kernel

theorem witness_DefineFontEntersARecord :
    mounted.accepting ∧ (Instr.defineFont 7 (fontDef 2 11)).shapeOk = true ∧
    definedRecord { fontDef 2 11 with number := 0 } = none ∧ (definedRecord (fontDef 2 11)).isSome = true ∧
    (mounted.font 1).isSome = true ∧ mounted.font 2 = none ∧ (mounted.fontOfMaster 10).isSome = true ∧
    mounted.fontOfMaster 11 = none ∧ mounted.fonts.length < 32 ∧
    (let s : State := { waiting 3 with fonts := (List.range 32).map fun k => record (k + 3) (k + 12) }
     s.font 2 = none ∧ s.fontOfMaster 11 = none ∧ 32 ≤ s.fonts.length) := by decide +kernel

theorem witness_DefinedRecordsKeepTheRanges :
    definedRecord (fontDef 1 1) = some { record 1 1 with stationPart := 0 } ∧
    (definedRecord { fontDef 999 4094 with gain := -3, offset := 7, kerns := [pair] }).isSome = true ∧
    (definedRecord { fontDef 1 1 with map := some [] }).map (·.map) = some none := by decide +kernel

/-- The ranges a definition keeps, and with them its record. -/
theorem witness_DefinedRecordsKeepTheRanges_ranges :
    (let d := { fontDef 999 4094 with gain := -3, offset := 7, face := 3, kerns := [pair] }
     1 ≤ d.number ∧ d.number ≤ 999 ∧ 1 ≤ d.master ∧ d.master ≤ 4094 ∧ (∀ w ∈ d.widths, w ≤ 127) ∧ isCharCode 0x2D#8 = true ∧
     0 < tableAt d.widths 0x2D#8 ∧ d.kerns.length ≤ 48 ∧
     (∀ k ∈ d.kerns, isCharCode k.first = true ∧ isCharCode k.second = true ∧ -16 ≤ k.adjust ∧ k.adjust ≤ 15) ∧
     (d.kerns.map fun k => (k.first, k.second)).Nodup ∧ d.face ≤ 3 ∧
     (∀ m ∈ d.map, m ≠ [] ∧ m.length ≤ 32 ∧ (m.map Prod.fst).Nodup ∧
       ∀ p ∈ m, 0xA0 ≤ p.1.toNat ∧ 0x21 ≤ p.2.toNat ∧ p.2.toNat ≤ 0x7E)) := by
  refine ⟨by decide, by decide, by decide, by decide, ?_, by decide, by decide +kernel, by decide, ?_, by decide, by decide, ?_⟩
  · intro w hw
    rw [List.eq_of_mem_replicate hw]
    decide
  · decide +kernel
  · intro m hm
    obtain rfl : m = [(0xA5#8, 0x61#8)] := (Option.some.inj hm).symm
    simp

/-- A font with no reference. -/
def spare : State := { mounted with fonts := mounted.fonts ++ [record 2 11] }

theorem witness_ReviseAndRetireFont :
    spare.accepting ∧ (Instr.reviseFont 7 1 revision).shapeOk = true ∧ spare.font 3 = none ∧
    (spare.font 1).map FontRecord.count = some 1 ∧ (spare.font 2).map FontRecord.count = some 0 ∧
    revisionOk revision = true ∧ revisionOk { revision with density := some (4, 0) } = false ∧
    (let f := applyRevision revision (record 1 10)
     0 < f.width f.hyphen) ∧ ({ revision with hyphen := some 0x41#8 } : FontRevision).hyphen.isSome = true ∧
    (let r := { revision with widths := some [(0x41#8, 9), (0xFF#8, 127)], face := some 3, map := .replace [] }
     revisionOk r = true ∧ (record 1 10).widths.length = 190 ∧ (applyRevision r (record 1 10)).width 0x41#8 = 9 ∧
     (applyRevision r (record 1 10)).width 0xFF#8 = 127 ∧ (applyRevision r (record 1 10)).width 0x42#8 = 50 ∧
     (applyRevision r (record 1 10)).face.code = 3 ∧ (applyRevision r (record 1 10)).map = none) := by decide +kernel

/-- The ranges of a revision, at their ends and one past them. -/
theorem witness_ReviseAndRetireFont_ranges :
    ([0x21#8, 0x7E#8, 0xA0#8, 0xFF#8].all isCharCode && [0x20#8, 0x7F#8, 0x9F#8].all fun b => !isCharCode b) = true ∧
    ([{ revision with density := some (-3, 7) }, { revision with density := some (3, -8) }, { revision with face := some 3 },
      { revision with map := .replace [(0xA0#8, 0x21#8), (0xFF#8, 0x7E#8)] }, { revision with widths := some [(0x21#8, 127)] },
      { revision with kerns := some [pair, { pair with first := 0x42#8, adjust := 15 }] },
      { revision with hyphen := some 0xFF#8 }] : List FontRevision).all revisionOk = true ∧
    ([{ revision with density := some (-4, 0) }, { revision with density := some (0, 8) }, { revision with face := some 4 },
      { revision with map := .replace [(0x9F#8, 0x21#8)] }, { revision with map := .replace [(0xA0#8, 0x20#8)] },
      { revision with map := .replace [(0xA0#8, 0x21#8), (0xA0#8, 0x22#8)] },
      { revision with map := .replace ((List.range 33).map fun k => (BitVec.ofNat 8 (160 + k), 0x21#8)) },
      { revision with widths := some [] }, { revision with widths := some [(0x21#8, 128)] },
      { revision with widths := some [(0x21#8, 1), (0x21#8, 2)] }, { revision with widths := some [(0x7F#8, 1)] },
      { revision with kerns := some [pair, pair] }, { revision with kerns := some [{ pair with adjust := 16 }] },
      { revision with kerns := some ((List.range 49).map fun k => { pair with first := BitVec.ofNat 8 (160 + k) }) },
      { revision with hyphen := some 0x20#8 }] : List FontRevision).all (fun r => !revisionOk r) = true := by decide +kernel

/-- An exchange of station 2 at each of its stages. -/
def exchanging (st : StationState) (m : Motion) (pending mark : Bool) : State :=
  { mounted with turret := { mounted.turret with
      motion := m, exchange := some 2, cancelPending := pending, hatchMark := mark, latchEngaged := st != .opened
      stations := mounted.turret.stations.modify 2 fun x => { x with state := st, prior := some .mounted } } }

theorem witness_ExchangeRequests :
    mounted.accepting ∧ 7 < 8 ∧ 7 ≤ 7 ∧ 7 ∈ ({ mounted with turret := { mounted.turret with protection := [7] } }).turret.protection ∧
    (let s := exchanging .draining (.rotating .exchange 6) false false
     s.accepting ∧ (s.station 2).state = .draining ∧ s.turret.exchange = some 2 ∧ s.turret.cancelPending = false ∧
     s.turret.motion = .rotating .exchange 6 ∧ (s.station 7).state ≠ .draining ∧ s.turret.exchange ≠ some 7 ∧
     (∃ st ∈ s.turret.stations, st.state = .draining)) ∧
    (∀ st ∈ mounted.turret.stations, ¬(st.state = .draining ∨ st.state = .opened ∨ st.state = .verifying)) ∧
    (exchanging .draining (.rotating .exchange 6) true false).turret.cancelPending = true ∧
    (let s := exchanging .draining .atRest false false
     (s.station 2).state = .draining ∧ s.turret.motion = .atRest) ∧
    (let s := exchanging .opened .atRest false true
     (s.station 2).state = .opened ∧ s.turret.hatchMark = true) ∧
    (let s := exchanging .opened .atRest false false
     (s.station 2).state = .opened ∧ s.turret.hatchMark = false) ∧
    ((exchanging .verifying .atRest false true).station 2).state = .verifying ∧
    mounted.turret.stations.length = 8 ∧ ((exchanging .draining .atRest false false).station 2).prior = some .mounted ∧
    (mounted.station 7).prior ≠ some .mounted ∧ mounted.fontOfMaster (mounted.station 7).code = none ∧
    (mounted.fontOfMaster (mounted.station 2).code).isSome = true ∧
    ((mounted.settleStation 2).station 2).state = .mounted ∧ ((mounted.settleStation 7).station 7).state = .empty := by
  decide +kernel

theorem witness_RotationArrivalDoesItsPurpose :
    mounted.turret.motion = .atRest ∧
    ({ mounted with turret := { mounted.turret with motion := .rotating .exposure 2 } }).turret.motion = .rotating .exposure 2 ∧
    (let s := exchanging .draining (.rotating .exchange 6) false false
     s.turret.motion = .rotating .exchange 6 ∧ s.turret.exchange = some 2 ∧ s.turret.cancelPending = false ∧
     (s.station 2).prior = some .mounted ∧ (s.station 2).font = some 1) ∧
    (exchanging .draining (.rotating .exchange 6) true false).turret.cancelPending = true ∧
    (let s := after (.stripReadComplete 4095) (after .indexFound State.reset)
     s.turret.motion = .rotating .verification 1 ∧ s.turret.pass = .stepping 1) ∧
    ({ State.reset with turret := { State.reset.turret with pass := .stepping 8 } }).turret.pass = .stepping 8 ∧
    State.reset.turret.pass = .seeking ∧ mounted.turret.pass ≠ .seeking ∧
    (mounted.turret.rotate .exposure 4).ascending = true ∧ (mounted.turret.rotate .exposure 5).ascending = false ∧
    mounted.turret.position = 0 ∧ mounted.turret.locked = false ∧ (exchanging .opened .atRest false false).turret.locked = true ∧
    (let s := exchanging .draining .atRest false false
     s.turret.positioningDue = some 2 ∧ s.turret.position ≠ (2 + 4) % 8 ∧ 2 < s.turret.stations.length ∧
     ({ s with turret := { s.turret with position := 6 } }).turret.position = (2 + 4) % 8) := by decide +kernel

theorem witness_HatchEventsMarkAndVerify :
    (let s := exchanging .opened .atRest false false
     s.turret.exchange = some 2 ∧ (s.station 2).state = .opened ∧ s.turret.latchEngaged = false ∧ s.turret.pass ≠ .waitHatch) ∧
    (exchanging .opened .atRest false true).turret.hatchMark = true ∧
    (∀ n, mounted.turret.exchange ≠ some n) ∧
    ({ State.reset with turret := Turret.powerOn true }).turret.pass = .waitHatch :=
  ⟨by decide +kernel, rfl, fun _ h => (nomatch h), rfl⟩

theorem witness_StripReadSettlesTheStation :
    State.reset.turret.read = .none ∧
    (let s := after .indexFound State.reset
     s.turret.read = .first ∧ s.turret.pass = .reading 0 ∧ s.turret.stations.length = 8) ∧
    (after (.stripReadComplete 0) (after .indexFound State.reset)).turret.read = .retry ∧
    (let s : State := { exchanging .verifying .atRest false true with turret :=
       { (exchanging .verifying .atRest false true).turret with read := .first, position := 6 } }
     s.turret.read = .first ∧ s.turret.stations.length = 8 ∧ s.turret.pass = .none) := by decide +kernel

theorem witness_OpenJobFillsAFreeSlot :
    mounted.accepting ∧ 3 < 4 ∧ clampParams mounted.house { openParams with font := 0 } = none ∧ 3 ≤ 3 ∧ 65535 ≠ 0 ∧
    (clampParams mounted.house openParams).isSome = true ∧ (mounted.job 3).state = .free ∧
    ((servedWith [] LineInProgress.empty).job 0).state ≠ .free := by decide +kernel

theorem witness_ClampedParametersLieInTheirRanges :
    houseOk houseDefaults = true ∧ (clampParams houseDefaults openParams).isSome = true ∧
    (clampParams houseDefaults { openParams with
      size := 0, measure := 65535, left := 65535, right := 65535, spaceMin := 255, spaceMax := 0, ladder := 0, grade := 255
      minPrefix := 255 }).isSome = true ∧
    clampParams houseDefaults { openParams with quad := 4 } = none ∧
    openParams.left + openParams.right + 900 ≤ 2400 ∧ 1500 + 900 ≤ 2400 ∧ 2400 < 1501 + 900 ∧
    ((clampParams houseDefaults { openParams with left := 1501, right := 5 }).map fun p => (p.left, p.right)) = some (1500, 0) ∧
    ((clampParams houseDefaults { openParams with left := 1500, right := 5 }).map fun p => (p.left, p.right)) = some (1500, 0) ∧
    houseDefaults.spaceFloor ≤ openParams.spaceMin ∧ openParams.spaceMin ≤ openParams.spaceOpt ∧
    openParams.spaceOpt ≤ openParams.spaceMax ∧ openParams.spaceMax ≤ houseDefaults.spaceCeiling := by decide +kernel

theorem witness_SendTextIsTakenWholeOrNotAtAll :
    let s := servedWith (List.replicate 1500 0x41#8) LineInProgress.empty
    s.accepting ∧ (List.replicate 599 0x41#8).length ≤ 599 ∧ 3 < 4 ∧ (s.job 3).state ≠ .active ∧ (s.job 0).state = .active ∧
    2048 - (s.job 0).text.length < 599 ∧ 548 ≤ 2048 - (s.job 0).text.length ∧ 0 < s.jobs.length := by decide +kernel

theorem witness_CloseAndAbortJob :
    let s := named (.line lineBody)
    s.accepting ∧ 3 < 4 ∧ (s.job 3).state ≠ .active ∧ (s.job 0).id ≠ 8 ∧ (s.job 0).state = .active ∧ (s.job 0).id = 7 ∧
    0 < s.jobs.length ∧ (s.cancellable 0).length = 1 ∧
    ((after (.closeJob 7 0 7) s).job 0).state = .closing ∧ (s.job 0).line.isEmpty = true ∧
    (let u := servedWith [] (endedLine 1)
     (u.job 0).text = [] ∧ (u.job 0).finished = false ∧ (u.job 0).line.ending = none ∧
     ({ (u.job 0).line with held := none } : LineInProgress).isEmpty = false) ∧
    (let u := servedWith [] { LineInProgress.empty with held := some .cut }
     (u.job 0).line.held.isSome = true ∧ ({ (u.job 0).line with held := none } : LineInProgress).isEmpty = true) ∧
    ((servedWith [0x41#8] LineInProgress.empty).job 0).text ≠ [] ∧ (s.queue.entries.map (·.serial)).Nodup ∧
    entryOf (.line lineBody) ∈ s.cancellable 0 ∧ (flashingAt 0 0).cancellable 3 = [] := by decide +kernel

/-- A CLOSING job in slot 0 that holds a MOVE before 62 of its own, and one line of the job in slot 1. -/
def heldMove : State :=
  let s := servedWith [] LineInProgress.empty
  let job (id : Nat) (st : JobState) (l : LineInProgress) : Job :=
    { Job.free with id := id, state := st, status := if st = .closing then .stalled .queueFull else .waitingText
                    params := params, paragraphMark := true, line := l, lineNumber := 1 }
  { s with
    jobs := [job 7 .closing { LineInProgress.empty with
                held := some (.move 10 false), ending := some { paragraph := false, action := .move 10, lineSet := true } },
             job 8 .active LineInProgress.empty, Job.free, Job.free]
    galleyOrder := [0, 1], engine := { serving := none, pointer := 0 }
    queue := { s.queue with
      entries := (List.range 62).map (fun k => { entryOf (.move 10 false) with serial := k, proof := .done, required := false }) ++
        [{ entryOf (.line lineBody) with serial := 62, slot := 1, jobId := 8 }]
      nextSerial := 63 } }

/-- R51, R52, R131: the line cancelled makes room for the held MOVE, which leaves the proof head to the aborted job, and its mark is
appended within the event: one entry cancelled, no word removed, the mark not pending. -/
theorem test_abort_reply_at_the_end_of_its_event :
    (heldMove.admits 1 .mark = false ∧ heldMove.proofHead = some 0) ∧
    ((after (.abortJob 7 1 8) heldMove).link.replies.getLast?.map (·.payload)) =
      some (num1 1 ++ num2 0 ++ num1 1 ++ num1 0) := by decide +kernel

theorem witness_RequestsUnderTheHouseLock :
    (waiting 3).accepting ∧ (waiting 3).houseLocked = false ∧ ({ waiting 3 with houseLocked := true }).houseLocked = true ∧
    houseOk { houseDefaults with sizeLow := 721 } = false ∧ houseOk houseDefaults = true ∧ [0, 7].length < 256 ∧
    ¬((∀ n ∈ [8], n ≤ 7) ∧ [8].Nodup) ∧ (∀ n ∈ [0, 7], n ≤ 7) ∧ [0, 7].Nodup ∧
    (Instr.defineLanguage 7 3 language).shapeOk = true ∧ languageOk language = true ∧
    languageOk { language with vowels := [64] } = false := by decide +kernel

/-- The ranges of a house style and of a language table, at their ends and one past them. -/
theorem witness_RequestsUnderTheHouseLock_ranges :
    ([{ houseDefaults with spaceFloor := 127, spaceCeiling := 127, letterCeiling := 8, prefixFloor := 6, suffixFloor := 6,
                           ladderCeiling := 9, sizeLow := 720, measureLow := 13500 },
      { houseDefaults with spaceFloor := 0, spaceCeiling := 1, letterCeiling := 0, ladderCeiling := 1, sizeHigh := 50,
                           measureHigh := 900 }] : List HouseStyle).all houseOk = true ∧
    ([{ houseDefaults with spaceCeiling := 128 }, { houseDefaults with spaceFloor := 0, spaceCeiling := 0 },
      { houseDefaults with spaceFloor := 65 }, { houseDefaults with letterCeiling := 9 }, { houseDefaults with prefixFloor := 1 },
      { houseDefaults with prefixFloor := 7 }, { houseDefaults with suffixFloor := 1 }, { houseDefaults with suffixFloor := 7 },
      { houseDefaults with ladderCeiling := 0 }, { houseDefaults with ladderCeiling := 10 }, { houseDefaults with sizeLow := 49 },
      { houseDefaults with sizeHigh := 721 }, { houseDefaults with measureLow := 899 },
      { houseDefaults with measureHigh := 13501 }] : List HouseStyle).all (fun h => !houseOk h) = true ∧
    (let rule (k : Bool) (g n : Nat) : AffixRule := { suffix := k, grade := g, letters := List.replicate n 48 }
     ([{ language with letterMap := [0, 48], vowels := [1, 48] },
       { language with rules := [rule true 1 2, rule false 1 2, rule true 3 8] }] : List LanguageDef).all languageOk = true ∧
     ([{ language with letterMap := [49] }, { language with vowels := [0] }, { language with vowels := [49] },
       { language with vowels := [1, 1] }, { language with rules := [rule true 1 2, rule true 2 2] },
       { language with rules := [rule true 0 2] }, { language with rules := [rule true 4 2] },
       { language with rules := [rule true 1 1] }, { language with rules := [rule true 1 9] },
       { language with rules := [{ rule true 1 2 with letters := [0, 1] }] },
       { language with rules := [{ rule true 1 2 with letters := [1, 49] }] },
       { language with rules := (List.range 49).map fun k => { rule true 1 2 with letters := [1 + k / 8, 1 + k % 8] } }] :
        List LanguageDef).all (fun t => !languageOk t) = true) := by decide +kernel

theorem witness_SetGalleyGapReplacesTheGap :
    let s : State := named (.line { lineBody with lineNumber := 1 })
    let t : State := { s with film := { s.film with owner := .ended } }
    t.accepting ∧ 36000 < 36001 ∧ 36000 ≤ 36000 ∧ t.film.gapDue (entryOf (.line lineBody)) = true ∧
    t.link.withheld = [] := by decide +kernel

theorem witness_TakeByteAppliesTheClass :
    let s := servedWith [0x1B#8, 0x50#8, 2#8, 0xD0#8] LineInProgress.empty
    State.reset.serves .take = none ∧ s.serves .take = some 0 ∧ (s.job 0).text = 0x1B#8 :: (0x50#8 :: 2#8 :: 0xD0#8 :: []) ∧
    isCharCode 0x41#8 = true ∧ isCharCode 0x20#8 = false ∧ isCharCode 0x07#8 = false ∧ countChars [] = 0 ∧
    countChars (List.replicate 239 (.char 0x41#8 1 100)) < 240 ∧
    240 ≤ countChars (List.replicate 240 (.char 0x41#8 1 100)) ∧ (0xA0#8 : Byte).toNat = 160 ∧
    (QuadMode.justify.code = 0 ∧ QuadMode.center.code = 3) ∧ 3 < 4 ∧ codeLength 0x41#8 = none ∧
    codeLength 0x49#8 = some 4 ∧ [0#8, 0#8, 0#8].length < 4 := by decide +kernel

/-- R49, R79: the last byte of a CLOSING job's buffer ends its word and makes the paragraph end due. -/
theorem test_exhausted_buffer :
    let s := servedWith [0x41#8] LineInProgress.empty
    let j := Job.takeByte s.house { s.job 0 with state := .closing }
    j.text = [] ∧ j.line.ending = some { paragraph := true, action := .nothing, lineSet := false } ∧
    j.line.ended = some { items := [.char 0x41#8 1 100], cont := false, hasCont := false } := by decide +kernel

/-- A word of one character, wider than its measure. -/
def wideWord : State :=
  let s := servedWith [] { LineInProgress.empty with
    ended := some { items := [.char 0x41#8 1 720], cont := false, hasCont := false } }
  { s with
    fonts := [{ record 1 10 with widths := List.replicate 190 127, stationPart := 1 }]
    jobs := s.jobs.modify 0 fun j => { j with params := { j.params with measure := 900 } } }

/-- R76, R78: it is set OVERSET and offered in the step that places it, and leaves no carry. -/
theorem test_overset :
    let t := after .placeWord wideWord
    (t.queue.entries.map fun e => match e.body with | .line b => (b.flags, b.glyphs.length) | _ => ([], 0)) =
      [([.overset], 1)] ∧ (t.job 0).line.carry = none ∧ (t.job 0).status = .waitingText ∧
    after .setLine wideWord = t := by decide +kernel

theorem witness_PlaceWordPlacesOrStalls :
    State.reset.serves .place = none ∧
    (let s := servedWith [] (endedLine 1)
     s.serves .place = some 0 ∧ 0 < s.jobs.length ∧ (s.job 0).line.placing = none ∧ (s.job 0).line.carry = none ∧
     (s.job 0).line.ended = some { items := [.char 0x41#8 1 100], cont := false, hasCont := false } ∧
     (s.font 1).isSome = true ∧ ((s.font 1).map fun r => r.width 0x41#8) = some 50 ∧ (s.job 0).line.glyphs = [] ∧
     (∀ e ∈ (s.job 0).line.ending, e.lineSet = false) ∧
     s.flowPause = false ∧ ((s.font 1).map s.askTurret) = some (.station 2) ∧ 2 < s.turret.stations.length ∧
     s.fits (s.job 0).openLine [glyph] = true) ∧
    (let s := servedWith [] (endedLine 2)
     s.serves .place = some 0 ∧ s.font 2 = none) ∧
    (let s := servedWith [] (endedLine 1)
     let wide : State := { s with fonts := [{ record 1 10 with widths := List.replicate 190 127 }] }
     let z : Glyph := { glyph with size := 720 }
     wide.fits { (s.job 0).openLine with measure := 900 } [z] = false) ∧
    ((servedWith [] (endedLine 1)).placeNext 0).2 = .finished ∧ (wideWord.placeNext 0).2 = .overflow ∧
    ((servedWith [] (endedLine 2)).placeNext 0).2 = .stall .fontUnavailable 2 ∧
    (let s := servedWith [] (endedLine 1)
     ({ s with queue := { s.queue with highWater := true }, exposureHead := none } : State).placeNext 0).2 = .paused ∧
    (let l := { endedLine 1 with carry := some { items := [.char 0x42#8 1 100], cont := true, hasCont := false } }
     l.carry.isSome = true ∧ l.placing = none ∧ l.beginPlacing.placing.isSome = true ∧ l.beginPlacing.beginPlacing = l.beginPlacing) ∧
    (let l := { endingLine [] none with pending := [.char 0x42#8 1 100] }
     l.ended = none ∧ l.ending.isSome = true ∧ 0 < countChars l.pending) ∧
    ({ record 1 10 with widths := List.replicate 190 0 }).width 0x41#8 = 0 ∧
    240 ≤ (List.replicate 240 glyph).length ∧ (runsOf (List.replicate 240 glyph)).length = 1 ∧
    ([glyph].find? (·.font == 1)).isSome = true ∧ (∀ g ∈ [glyph], g.font ≠ 2) ∧
    (let s := exchanging .draining .atRest false false
     (s.font 1).map s.askTurret = some .changing) ∧
    (let s : State := { mounted with fonts := mounted.fonts ++ [record 2 11] }
     (s.font 2).map s.askTurret = some .unavailable) ∧ wideWord.admits 0 (.line lineBody) = true := by decide +kernel

/-- The word "unbalanced" on a measure of six of its characters, after some placed words. -/
def longWord (before : List Glyph) (hyphenate : Bool) : State :=
  let s := servedWith [] { LineInProgress.empty with
    ended := some { items := (ascii "unbalanced").map fun b => .char b 1 100, cont := false, hasCont := false }
    glyphs := before
    params := if before = [] then none else some { lineParams with measure := 1200, hyphenate := hyphenate } }
  { s with
    languages := [some english, none, none, none]
    jobs := s.jobs.modify 0 fun j => { j with params := { j.params with measure := 1200, hyphenate := hyphenate } } }

/-- The flags and the glyphs of the line a word leaves, and the characters of its carry. -/
def broken (s : State) : List (List LineFlag × List Byte) × Option Nat :=
  let t := after .placeWord s
  (t.queue.entries.map fun e => match e.body with | .line b => (b.flags.take 1, b.glyphs.map Prod.fst) | _ => ([], []),
   (t.job 0).line.carry.map fun w => countChars w.items)

/-- R77, R78, R101, R103: broken at the largest fitting candidate, before the word, by force. -/
theorem test_breaks :
    broken (longWord [] true) = ([([.hyphA], ascii "unba-")], some 6) ∧
    broken (longWord [glyph, glyph] false) = ([([.short], [0x41#8, 0x41#8])], some 10) ∧
    broken (longWord [] false) = ([([.forced], ascii "unbala")], some 4) := by decide +kernel

theorem witness_SetLineSetsTheLastLine :
    State.reset.serves .set = none ∧
    (let s := servedWith [] (endingLine [glyph] (some lineParams))
     let body := s.lineBody lineParams [glyph] [.last] true
     s.serves .place = none ∧ s.serves .set = some 0 ∧ 0 < s.jobs.length ∧ (s.job 0).line.glyphs ≠ [] ∧
     (s.job 0).line.ending = some { paragraph := true, action := .nothing, lineSet := false } ∧
     s.admits 0 (.line body) = true ∧
     (let full : State := { s with queue := { s.queue with entries := List.replicate 64 (entryOf (.line lineBody)) } }
      full.serves .set = some 0 ∧ full.admits 0 (.line (full.lineBody lineParams [glyph] [.last] true)) = false ∧
      (full.job 0).finished = false)) ∧
    (let s := servedWith [] (endingLine [] none)
     s.serves .set = some 0 ∧ (s.job 0).line.params = none) ∧
    (let s := servedWith [] { LineInProgress.empty with ending := some { paragraph := false, action := .cut, lineSet := true } }
     s.serves .set = some 0 ∧ s.admits 0 .cut = true) ∧
    wideWord.serves .place = some 0 ∧ (wideWord.placeNext 0).2 = .overflow ∧
    ((servedWith [] (endedLine 1)).placeNext 0).2 ≠ .overflow ∧
    (let s := ((longWord [] true).placeNext 0).1
     ∃ pl p, (s.job 0).line.placing = some pl ∧ (s.job 0).line.params = some p ∧ s.attempts 0 p pl [] = true ∧
       ((analyse s 0 p.language 2 2 (s.wordChars pl.word.items) []).candidates.map Candidate.position).Pairwise (· < ·)) ∧
    1 ≤ countChars [.mark, .char 0x41#8 1 100] := by
  refine ⟨?_, ?_, ?_, ?_, ?_, ?_, ?_, ⟨_, _, rfl, rfl, ?_, ?_⟩, ?_⟩ <;> decide +kernel

theorem witness_JustifiedLinesFillTheMeasure :
    let s := mounted
    let g : Glyph := { glyph with size := 100 }
    let gs := [g, { g with gap := true }]
    let p : LineParams := { lineParams with measure := 900 }
    p.quad = .justify ∧ (∀ g ∈ gs, 0 < g.size) ∧ (s.advances gs).sum ≤ p.width ∧
    LineFlag.short ∉ (s.spacing p gs false false).flags := by decide +kernel

/-- Lines of each kind: gaps within their maximums, letterspaced, loose; a word that fills and one that is short; ragged at the optimums
and shrunk. An advance is 25,000 fu, an optimum 15,000, a maximum 30,000, a cap 1,500. -/
theorem witness_JustifiedLinesFillTheMeasure_kinds :
    let s := mounted
    let g : Glyph := { glyph with size := 100 }
    let two := [g, { g with gap := true }]
    let three := [g, g, { g with gap := true }]
    let p := fun m : Nat => { lineParams with measure := m }
    (p 600).quad = .justify ∧ gapSizes two = [100] ∧ gapSizes three = [100] ∧ pairSizes three = [100] ∧ gapSizes [g, g] = [] ∧
    (s.advances two).sum = 50000 ∧ (s.advances three).sum = 75000 ∧
    (s.spacing (p 600) two false false).flags = [] ∧ (s.spacing (p 825) three false false).flags = [.letterspaced] ∧
    (s.spacing (p 900) three false false).flags = [.loose, .letterspaced] ∧ (s.spacing (p 900) two false false).flags = [.loose] ∧
    (s.spacing (p 400) [g, g] false false).flags = [.letterspaced] ∧ (s.spacing (p 400) [g] false false).flags = [.short] ∧
    50000 ≤ (p 500).width ∧ (p 500).width < 50000 + 15000 ∧ 50000 + 15000 ≤ (p 600).width ∧
    (∀ q ∈ two.zip (two.drop 1), q.1.font = q.2.font → q.1.size = q.2.size → q.1.station = q.2.station) ∧
    [2, 3].length = [1, 1].length ∧ [2, 3][0]? = some 2 ∧ ([2, 3].zip [1, 1]).length = 2 := by decide +kernel

/-- R142, R207: in the summary a LINE has its three fields, another kind their absence. -/
theorem test_summary_presence :
    (entryOf .cut).summaryBytes = [0, 5, 2, 0, 0, 7, 1, 0, 0, 1, 0].map (BitVec.ofNat 8) ∧
    (entryOf (.line lineBody)).summaryBytes = [0, 5, 0, 0, 0, 7, 1, 0, 0, 1, 1, 0, 1, 3, 0, 1].map (BitVec.ofNat 8) := by
  decide +kernel

theorem witness_RuleCandidatesKeepTheMinima :
    (∀ r ∈ english.rules, 1 ≤ r.grade ∧ r.grade ≤ 3) ∧
    (ruleCandidates english ((ascii "unbalanced").map (tableAt english.letterMap)) 2 3).length = 3 ∧
    (let s : State := { worded with languages := [some english, none, none, none] }
     let plain := fun t : String => (ascii t).map fun c => { code := c, explicit := c == 0x2D#8 : CoreChar }
     let cls := fun t : String => (analyse s 0 0 2 2 (plain t) []).cls
     cls "12" = .noLetters ∧ cls "(a-b)" = .explicit ∧ cls "a4b" = .unhyphenable ∧ cls "abc" = .never ∧
     cls "unbalanced" = .rules ∧ cls "a" = .noRules ∧ (analyse s 0 0 2 2 (plain "ab") [1]).cls = .discretionary ∧
     s.language 0 = some english ∧ s.language 1 = none ∧
     (∀ c ∈ plain "(", letterIndex (some english) c = 0) ∧ (∀ c ∈ plain "abc", letterIndex (some english) c ≠ 0)) := by
  decide +kernel

theorem worded_keeps_dictOk : DictOk worded := by
  refine ⟨by decide +kernel, by decide +kernel, by decide +kernel, fun slot id => ?_, by decide +kernel⟩
  exact le_trans List.countP_le_length (by decide +kernel)

theorem witness_AddWordTakesTheLowestEmptySlot :
    worded.accepting ∧ DictOk worded ∧ scopeOf house = some .house ∧ scopeOf { scope := 2, slot := 0, jobId := 7 } = some (.job 0 7) ∧
    wordOk word = true ∧ breaksOk word.length [{ position := 2, grade := 3 }] = true ∧ worded.houseLocked = false ∧
    worded.language 0 = some table ∧ (worded.job 0).composing = true ∧ (worded.job 0).id = 7 ∧ fold table word = some [1, 2, 3] ∧
    (entryOfKey worded.dict 0 [1, 2, 3] .house).isSome = true ∧ entryOfKey worded.dict 0 [1, 2, 3] (.job 0 7) = none ∧
    worded.dict.length < 4096 ∧ worded.dict.countP (isJobWord 0 7) < 256 :=
  ⟨by decide +kernel, worded_keeps_dictOk, by decide +kernel⟩

/-- ADD WORD in each row of its table, and in the ends of its ranges. -/
theorem witness_AddWordTakesTheLowestEmptySlot_rows :
    (let broken (p g : Nat) : List WordBreak := [{ position := p, grade := g }]
     let job : ScopeArg := { scope := 2, slot := 0, jobId := 7 }
     let status (s : State) (n : Nat) (w : List Byte) (bs : List WordBreak) (o : ScopeArg) : Option Status :=
       (after (.addWord 7 n w bs o) s).link.replies.getLast?.map (·.status)
     let letter (c : Byte) (k : Nat) := List.replicate k c
     [status worded 4 word [] job, status worded 0 (letter 0x61#8 1) [] job, status worded 0 (letter 0x61#8 32) [] job,
      status worded 0 [0x61#8, 0x20#8] [] job, status worded 0 word (broken 0 1) job, status worded 0 word (broken 3 1) job,
      status worded 0 word (broken 1 4) job, status worded 0 word (broken 1 1 ++ broken 1 1) job,
      status worded 0 word [] { scope := 3, slot := 0, jobId := 7 }, status worded 0 word [] { scope := 2, slot := 4, jobId := 7 },
      status worded 0 word [] { scope := 2, slot := 0, jobId := 0 }, status worded 0 [0x61#8, 0x21#8] [] job].all
        (· == some .range) = true ∧
     status { worded with houseLocked := true } 0 word [] house = some .locked ∧
     [status worded 1 word [] job, status worded 0 word [] { job with jobId := 8 }, status worded 0 word [] { job with slot := 1 }].all
        (· == some .state) = true ∧
     status worded 0 word [] house = some .duplicate ∧
     [status worded 0 word (broken 1 1 ++ broken 2 3) job, status worded 0 (letter 0x61#8 31) [] { job with scope := 1 },
      status { worded with houseLocked := true } 0 (letter 0x61#8 2) [] { job with scope := 1 }].all (· == some .done) = true) := by
  decide +kernel

/-- The quota of the job in slot 0 used up. -/
theorem witness_AddWordTakesTheLowestEmptySlot_full :
    let d := (List.range 256).map fun k => { dictEntry k (.job 0 7) with word := [1, 1 + k / 16, 1 + k % 16] }
    256 ≤ d.countP (isJobWord 0 7) ∧ entryOfKey d 0 [2, 2, 3] (.job 0 7) = none ∧ (d.map (·.word)).Nodup ∧ d.length = 256 := by
  decide +kernel

theorem witness_NamedWordsAreAmendedRetiredReported :
    worded.accepting ∧ nameEntry worded (.bySlot 2) = .ok (dictEntry 2 .desk) ∧ nameEntry worded (.bySlot 4095) = .error .absent ∧
    nameEntry worded (.bySlot 4096) = .error .range ∧ nameEntry worded (.byKey 0 word house) = .ok (dictEntry 0 .house) ∧
    (Instr.amendWord 7 (.bySlot 2) []).shapeOk = true ∧ (dictEntry 0 .house).scope = .house ∧ worded.houseLocked = false ∧
    breaksOk 3 [] = true ∧ breaksOk 3 [{ position := 3, grade := 1 }] = false ∧ word.length < 256 ∧
    choose worded.dict 0 [1, 2, 3] 0 7 = some (dictEntry 2 .desk) ∧ choose worded.dict 0 [1, 2, 4] 0 7 = none ∧
    fold table [0x61#8, 0x62#8, 0x64#8] = some [1, 2, 4] ∧ ({ worded with houseLocked := true }).houseLocked = true := by
  refine ⟨?_, rfl, rfl, rfl, rfl, ?_⟩ <;> decide +kernel

theorem witness_PruneWordsRetiresAndHalves :
    worded.accepting ∧ 3 < 4 ∧ 4 ≠ 255 ∧ 3 ≤ 3 ∧ dictEntry 2 .desk ∈ worded.dict ∧ (dictEntry 2 .desk).hits = 1 := by
  decide +kernel

theorem witness_ConsultationChoosesByScope :
    choose worded.dict 0 [1, 2, 3] 0 7 = some (dictEntry 2 .desk) ∧ choose worded.dict 0 [3, 2, 1] 0 7 = none ∧
    (choose (dictEntry 1 (.job 0 7) :: worded.dict) 0 [1, 2, 3] 0 7).map (·.scope) = some (.job 0 7) ∧
    (choose [dictEntry 0 .house] 0 [1, 2, 3] 0 7).map (·.scope) = some .house := by decide +kernel

theorem witness_SetQueueMarksTestsTheCounts :
    let s := named (.line lineBody)
    s.accepting ∧ ¬(64 < 64 ∧ 64 ≤ 64) ∧ 0 < 1 ∧ 64 ≤ 64 ∧ 6143 < 6144 ∧ 6144 ≤ 6144 ∧
    1 ≤ s.queue.inUse ∧ ¬(64 ≤ s.queue.inUse ∨ 6144 ≤ s.queue.glyphsInUse) ∧ s.queue.inUse ≤ 1 ∧ s.queue.glyphsInUse ≤ 6143 ∧
    ¬(s.queue.inUse ≤ 0) ∧ s.queue.highWater = false ∧
    ({ s with queue := { s.queue with highWater := true } }).queue.highWater = true := by decide +kernel

theorem witness_AdmissionAndAppend :
    let s := servedWith [] LineInProgress.empty
    s.admits 0 (.line lineBody) = true ∧ s.admits 0 .mark = true ∧ 0 < s.jobs.length ∧
    (let behind : State := { s with exposureHead := some 1, proofHead := some 1 }
     behind.admits 0 (.line lineBody) = true ∧ behind.proofHead ≠ some 0 ∧ behind.exposureHead ≠ some 0) ∧
    s.queue.nextSerial < 65536 ∧ s.queue.entries.length ≤ 64 ∧ s.queue.find 5 = none ∧
    (let t := flashingAt 0 0
     t.queue.find 5 = some (entryOf (.line lineBody)) ∧ 2 < t.turret.stations.length) ∧
    (∀ p ∈ [ProofProgress.notTaken, .done],
      let e := { entryOf (.line lineBody) with expo := .done, proof := p, required := false }
      e.expo = .done ∧ e.required = false) ∧
    (printing id).proof.state ≠ .disabled ∧ (printing id).proof.disablePending = false ∧
    (printing id).proof.list.countP PrintLine.isSpoil < 8 ∧
    (printing fun p => { p with state := .disabled }).proof.state = .disabled ∧
    (printing id).queue.find 5 = some { entryOf (.line lineBody) with proof := .inPrint } ∧
    (entryOf (.line lineBody)).proof ≠ .inPrint := by decide +kernel

/-- R137, R188: a line still in the print list whose entry has left does not touch a new entry of its serial. -/
theorem test_line_of_an_entry_that_left :
    let s : State := { printing fun p => { p with begun := false } with queue := (named (.line lineBody)).queue }
    s.proofDone 5 = s ∧ s.lineSent.queue = s.queue ∧ (s.cancelEntry (entryOf (.line lineBody))).proof = s.proof := by
  decide +kernel

/-- R127: a serial that a present entry carries is passed over. -/
theorem test_serial_passed_over :
    ({ (named .cut).queue with nextSerial := 5 } : Queue).nextFree = 6 ∧ ({ (named .cut).queue with nextSerial := 65535 } : Queue).nextFree = 65535 := by
  decide +kernel

theorem witness_CarriageArrivalFlashesForTheDuration :
    let s := flashingAt 0 0
    s.expo.state = .flashing ∧ s.expo.carriageTarget = some 195 ∧ s.expo.flight = some (flight 0 0) ∧
    s.flightRun (flight 0 0) = some { station := 2, font := 1, size := 100, count := 2 } ∧ (s.font 1).isSome = true ∧
    (named .cut).expo.state ≠ .flashing ∧ LampOk s ∧ s.lamp.state = .ready := by
  refine ⟨by decide +kernel, by decide +kernel, by decide +kernel, by decide +kernel, by decide +kernel, by decide +kernel, ?_, ?_⟩
  · simp only [LampOk]; decide +kernel
  · decide +kernel

/-- A line in flight in a state of its exposure. -/
def inFlight (st : ExpoState) : State :=
  let s := named (.line lineBody)
  { s with expo := { s.expo with state := st, flight := some (flight 0 0) } }

theorem witness_FlashCompleteGoesOnOrEndsTheLine :
    (let s := flashingAt 0 0
     s.expo.flashing = true ∧ s.flightLine (flight 0 0) = some lineBody ∧ s.lamp.state = .ready ∧ 1 ≤ 4094 ∧ 4094 ≤ 4094 ∧
     s.lamp.failLimit ≤ (7 * s.lamp.index + 1 + 4) / 8 ∧ 0 + 1 < 2 ∧
     lineBody.runs[0]? = some { station := 2, font := 1, size := 100, count := 2 }) ∧
    (let s := flashingAt 0 1
     s.flightLine (flight 0 1) = some lineBody ∧ ¬1 + 1 < 2 ∧
     lineBody.runs[1]? = some { station := 3, font := 1, size := 120, count := 1 }) ∧
    (let s := flashingAt 1 0
     s.flightLine (flight 1 0) = some lineBody ∧ ¬0 + 1 < 1 ∧ lineBody.runs[2]? = none) ∧
    (named .cut).expo.flashing = false ∧ (named .cut).expo.lensTarget = none ∧
    ({ named .cut with expo := { (named .cut).expo with lensTarget := some 720 } }).expo.lensTarget = some 720 ∧
    (let s := inFlight .selecting
     s.expo.flight = some (flight 0 0) ∧ (s.flightRun (flight 0 0)).isSome = true ∧ s.expo.lensTarget ≠ some 100 ∧
     s.turret.motion = .atRest ∧ s.turret.position ≠ 2) ∧
    (inFlight .waitingTurret).expo.state = .waitingTurret ∧ ({ flight 0 0 with selecting := true } : Flight).selecting = true ∧
    (∃ st ∈ (exchanging .opened .atRest false false).turret.stations, st.state = .opened) := by decide +kernel

/-- A FLASH COMPLETE whose sample is invalid, or faults the lamp: the second and the third invalid one, and one that takes L below F. -/
theorem witness_FlashCompleteGoesOnOrEndsTheLine_samples :
    (let s (invalid index : Nat) : State := { flashingAt 0 0 with lamp := { (flashingAt 0 0).lamp with invalid := invalid, index := index } }
     let t (sample : Nat) (s : State) := flashCompleteEffect sample s
     (s 1 2048).expo.flashing = true ∧ (s 1 2048).expo.state = .flashing ∧ (s 1 2048).expo.flight = some (flight 0 0) ∧
     (s 1 2048).lamp.state = .ready ∧ ¬(1 ≤ 4095 ∧ 4095 ≤ 4094) ∧ (s 1 2048).lamp.invalid < 2 ∧ 2 ≤ (s 2 2048).lamp.invalid ∧
     (7 * (s 0 700).lamp.index + 1 + 4) / 8 < (s 0 700).lamp.failLimit ∧
     (t 0 (s 1 2048)).lamp.invalid = 2 ∧ (t 4095 (s 1 2048)).expo.flight = some (flight 0 1) ∧
     (t 4095 (s 2 2048)).lamp.state = .fault .sensor ∧ (t 4095 (s 2 2048)).expo.state = .stopped ∧
     (t 1 (s 0 700)).lamp.state = .fault .output ∧ (t 1 (s 0 700)).expo.linesSpoiled = 1 ∧
     (t 1 (s 0 700)).link.holds .lineSpoiled = true) := by decide +kernel

theorem witness_DispatchPutsTheNamedEntryInFlight :
    State.reset.expo.named.bind State.reset.queue.find = none ∧
    (let s := named (.line lineBody)
     s.expo.named.bind s.queue.find = some (entryOf (.line lineBody)) ∧ s.expo.state = .idle ∧ s.film.state = .atRest ∧
     s.lamp.state = .ready ∧ s.film.baseline + 300 + 900 ≤ s.film.loaded ∧ s.film.present = true ∧
     s.film.baseline + 300 ≠ s.film.baseline ∧ s.film.owner = .job 0 7) ∧
    (let s : State := { named (.line lineBody) with film := { (named (.line lineBody)).film with owner := .ended, loaded := 4999 } }
     s.film.owner ≠ .none ∧ s.film.loaded < s.film.highMark + s.galleyGap + 300 + 900) ∧
    (moving .moving (.lead none) 2300 0).film.state ≠ .atRest ∧
    (let s := named (.move (-1000) false)
     s.expo.named.bind s.queue.find = some (entryOf (.move (-1000) false)) ∧ s.film.present = true ∧
     0 < min 1000 (min (18000 + s.film.baseline - s.film.highMark) (s.film.baseline - s.film.origin))) ∧
    (let s := named .cut
     s.expo.named.bind s.queue.find = some (entryOf .cut) ∧
     min (s.film.highMark + 900) s.film.loaded ≠ s.film.baseline) ∧
    (∀ d ∈ [(600 : Nat), 97100, 97101],
      let s := named (.move d false)
      s.expo.named.bind s.queue.find = some (entryOf (.move d false)) ∧ 0 < d ∧
      (s.film.baseline + d + 900 ≤ s.film.loaded ↔ d ≤ 97100)) ∧
    (entryOf .cut).expo = .waiting ∧ (entryOf (.move (-1000) false)).body.testDistance = none ∧
    (let s : State := { named .cut with film := { (named .cut).film with present := false } }
     s.film.present = false ∧ (after .dispatch s).film.state = .jammed) ∧
    (let s : State := { named (.move (-1000) false) with film := { (named .cut).film with origin := 2000 } }
     min 1000 (min (18000 + s.film.baseline - s.film.highMark) (s.film.baseline - s.film.origin)) = 0) ∧
    (let s : State := { named (.move 97100 false) with film := { (named .cut).film with present := false } }
     s.expo.named.bind s.queue.find = some (entryOf (.move 97100 false)) ∧ s.film.present = false ∧
     s.film.baseline + 97100 + 900 ≤ s.film.loaded ∧ (after .dispatch s).film.state = .jammed) := by decide +kernel

/-- The controller stopped for some reasons. -/
def stopped (r : Stops) : State :=
  let s := named .cut
  { s with expo := { s.expo with state := .stopped, stops := r } }

theorem witness_HoldReleaseAndCover :
    (named .cut).accepting ∧ (named .cut).expo.state = .idle ∧ State.reset.expo.state = .held ∧ State.reset.accepting ∧
    (let s := stopped { Stops.none with cover := true }
     s.accepting ∧ s.expo.state = .stopped ∧ s.expo.stops ≠ Stops.none) ∧
    (let s := stopped Stops.none
     s.expo.state = .stopped ∧ s.expo.stops = Stops.none ∧ s.film.coverOpen = false ∧ s.film.state ≠ .jammed ∧
     s.lamp.state.barsRelease = false) ∧
    (∀ st ∈ [ExpoState.leading, .selecting, .waitingTurret, .flashing, .filmOperation],
      (inFlight st).accepting ∧ (inFlight st).expo.state.inFlight = true ∧ (inFlight st).expo.flight = some (flight 0 0)) := by
  decide +kernel

/-- The lamp in a state, with an index. -/
def lampIn (st : LampState) (index : Nat) : State :=
  let s := named .cut
  { s with lamp := { s.lamp with
      state := st, index := index, ignitionTimer := st == .igniting, recoveryTimer := st == .recovering
      economyTimer := if st == .ready then some 60 else none
      validityTimer := st == .ready || st == .economy || st == .recovering } }

theorem witness_LampRequests :
    (lampIn .off 2048).accepting ∧ (lampIn .off 2048).lamp.state = .off ∧ (lampIn (.fault .sensor) 9).lamp.state = .fault .sensor ∧
    (∀ st ∈ [LampState.igniting, .ready, .economy, .recovering], (lampIn st 2048).lamp.state = st) ∧
    (flashingAt 0 0).expo.flight = some (flight 0 0) ∧ (flight 0 0).kind = .line ∧ (named .cut).expo.flight = none ∧
    ¬(2 ≤ 1 ∧ 1 ≤ 4031) ∧ 2 ≤ 4031 ∧ 4031 ≤ 4031 ∧ 1 ≤ 4030 ∧ 4030 ≤ 4031 - 1 ∧ 255 ≤ 255 ∧
    700 ≤ (lampIn .ready 700).lamp.index ∧ (lampIn .ready 699).lamp.index < 700 ∧ (lampIn .economy 9).lamp.state ≠ .ready ∧
    700 ≤ (lampIn .recovering 700).lamp.index ∧ (lampIn .recovering 699).lamp.index < 700 := by decide +kernel

theorem witness_PhotocellAndLampTimers :
    (lampIn .off 2048).lamp.state = .off ∧ (lampIn .recovering 2048).lamp.state = .recovering ∧
    (lampIn .ready 2048).lamp.failLimit ≤ (7 * 2048 + 1 + 4) / 8 ∧ (lampIn .ready 2048).lamp.failLimit ≤ (7 * 2048 + 4094 + 4) / 8 ∧
    4094 < 4095 ∧ (lampIn .ready 2048).lamp.invalid < 2 ∧
    (let s := lampIn .ready 2048
     2 ≤ ({ s with lamp := { s.lamp with invalid := 2 } }).lamp.invalid) ∧
    (lampIn .igniting 1400).lamp.ignitionTimer = true ∧ (lampIn .igniting 1400).lamp.failLimit < 1400 ∧
    (lampIn .igniting 1400).lamp.weakLimit ≤ (lampIn .igniting 1400).lamp.index ∧
    (lampIn .igniting 1399).lamp.index < (lampIn .igniting 1399).lamp.weakLimit ∧
    (lampIn .ready 2048).lamp.economyTimer.isSome = true ∧ (lampIn .recovering 700).lamp.recoveryTimer = true ∧
    (lampIn .recovering 700).lamp.failLimit ≤ (lampIn .recovering 700).lamp.index ∧
    (lampIn .economy 9).lamp.validityTimer = true ∧ (lampIn .off 9).lamp.ignitionTimer = false ∧
    (lampIn .off 9).lamp.economyTimer = none ∧ (lampIn .off 9).lamp.recoveryTimer = false ∧
    (lampIn .off 9).lamp.validityTimer = false ∧
    (7 * (lampIn .recovering 700).lamp.index + 1 + 4) / 8 < (lampIn .recovering 700).lamp.failLimit ∧
    (∀ st ∈ [LampState.igniting, .economy, .fault .output], (lampIn st 9).lamp.state = st ∧ (lampIn st 9).lamp.invalid < 2) ∧
    (named .cut).waits = true ∧ State.reset.waits = false ∧ (lampIn .economy 9).lamp.index < (lampIn .economy 9).lamp.failLimit ∧
    (lampIn .economy 2048).lamp.failLimit ≤ (lampIn .economy 2048).lamp.index ∧ (lampIn .ready 2048).waits = true := by
  decide +kernel

theorem witness_LoadFilmAndFeedAndCut :
    (named .cut).accepting ∧ 2160000 < 2160001 ∧ 2160000 ≤ 2160000 ∧ (flashingAt 0 0).expo.flight.isSome = true ∧
    (moving .feeding (.hostCut false) 2900 0).film.working = true ∧ (named .cut).expo.flight = none ∧
    (named .cut).film.working = false ∧ (named .cut).film.present = true ∧ State.reset.film.present = false ∧
    (named .cut).expo.state = .idle ∧ (named .cut).film.loaded ≠ 0 ∧ (named .cut).film.coverOpen = false ∧
    State.reset.film.loaded = 0 ∧ (moving .feeding (.hostCut false) 2900 0).expo.state = .idle ∧
    (moving .feeding (.hostCut false) 2900 0).expo.flight = none ∧
    min ((named .cut).film.highMark + 900) (named .cut).film.loaded ≠ (named .cut).film.baseline := by decide +kernel

/-- A FEED AND CUT that needs no motion, and one begun with the film ABSENT, in IDLE, HELD and STOPPED. -/
theorem witness_LoadFilmAndFeedAndCut_at_once :
    (let at' (st : ExpoState) (present : Bool) : State :=
       { named .cut with
         expo := { (named .cut).expo with state := st }
         film := { (named .cut).film with
           loaded := 2900, baseline := if present then 2900 else 2000, highMark := if present then 2900 else 2000, present := present } }
     let t (s : State) := after (.feedAndCut 7) s
     (∀ st ∈ [ExpoState.idle, .held, .stopped], ∀ p ∈ [true, false],
       (at' st p).accepting ∧ (at' st p).expo.state = st ∧ (at' st p).expo.flight = none ∧ (at' st p).film.loaded ≠ 0 ∧
       (at' st p).film.coverOpen = false ∧ (at' st p).film.working = false ∧ (at' st p).film.present = p) ∧
     min ((at' .idle true).film.highMark + 900) (at' .idle true).film.loaded = (at' .idle true).film.baseline ∧
     (t (at' .idle true)).film.state = .cutting ∧ (t (at' .idle false)).film.state = .jammed ∧
     (t (at' .idle false)).expo.state = .stopped ∧ (t (at' .held false)).expo.state = .held ∧
     (t (at' .stopped false)).expo.stops.jam = true) := by decide +kernel

theorem witness_SetLowFilmJudgesAtOnce : (waiting 3).accepting ∧ 2160000 < 2160001 ∧ 2160000 ≤ 2160000 := by decide +kernel

/-- An entry in flight with its film move under way, and what was recorded against it. -/
def led (m : Mover) (st : ExpoState) (seen : Bool × Bool) : State :=
  let s := moving .moving m 2300 0
  { s with expo := { s.expo with
      state := st, flight := some { flight 0 0 with coverSeen := seen.1, lampSeen := seen.2 } } }

theorem witness_DriveStopVerifiesTrimsOrJams :
    (named .cut).film.inMove = false ∧
    (∀ m ∈ [Mover.lead none, .lead (some 1800), .forward none, .forward (some 1800), .reverse true, .reverse false, .cutEntry, .hostCut true],
      let s := moving .moving m 2300 0
      s.film.inMove = true ∧ s.film.target = some 2300 ∧ s.film.mover ≠ .none) ∧
    2299 ≤ 2300 + 1 ∧ 2300 ≤ 2299 + 1 ∧ 2301 ≤ 2300 + 1 ∧ ¬(2302 ≤ 2300 + 1 ∧ 2300 ≤ 2302 + 1) ∧
    (moving .trimming (.lead none) 2300 4).film.trims < 5 ∧ 5 ≤ (moving .trimming (.lead none) 2300 5).film.trims ∧
    (∀ seen ∈ [(false, false), (true, false), (false, true)],
      let s := led (.lead none) .leading seen
      s.expo.flight = some { flight 0 0 with coverSeen := seen.1, lampSeen := seen.2 } ∧ s.expo.state = .leading ∧
      s.film.mover = .lead none ∧ s.queue.find 5 = some (entryOf (.line lineBody)) ∧
      lineBody.runs[0]? = some { station := 2, font := 1, size := 100, count := 2 } ∧
      (∀ m ∈ [Mover.forward none, .reverse false, .reverse true, .cutEntry],
        (led m .filmOperation seen).expo.state = .filmOperation ∧ (led m .filmOperation seen).film.mover = m)) ∧
    (∀ st ∈ [ExpoState.idle, .waitingLamp, .held, .stopped], (led (.hostCut true) st (false, false)).expo.state = st) := by
  decide +kernel

/-- R147, R148, R152: a lead verified begins the first run; after a cover event its line is abandoned; jammed, its entry is WAITING again. -/
theorem test_lead_ends :
    (after (.driveStop 2300) (led (.lead none) .leading (false, false))).expo.state = .selecting ∧
    (let t := after (.driveStop 2300) (led (.lead none) .leading (true, false))
     t.expo.state = .stopped ∧ t.expo.linesSpoiled = 1 ∧ t.expo.stops = { cover := true, lamp := false, filmOut := false, jam := false }) ∧
    (let t := after (.filmPresentChange false) (led (.lead none) .leading (true, false))
     t.expo.stops = { cover := true, lamp := false, filmOut := false, jam := true } ∧ t.queue.entries.map (·.expo) = [.waiting]) := by
  decide +kernel

theorem witness_CutterHomeAndTimeout :
    (named .cut).film.state ≠ .cutting ∧
    (∀ m ∈ [Mover.cutEntry, .hostCut true, .hostCut false],
      (moving .cutting m 2900 0).film.state = .cutting ∧ (moving .cutting m 2900 0).film.target = some 2900 ∧
      (moving .cutting m 2900 0).film.mover = m ∧ (moving .cutting m 2900 0).expo.state = .idle) ∧
    (let s := named .cut
     let t : State := { s with expo := { s.expo with
       state := .filmOperation, flight := some { flight 0 0 with kind := .cut } } }
     t.expo.flight.isSome = true) := by decide +kernel

theorem witness_SetProofAndProofByteSent :
    (named .cut).accepting ∧ ¬(2 ≤ 1) ∧ 1 ≤ 1 ∧ 9600 ∈ [300, 600, 1200, 2400, 4800, 9600] ∧ 301 ∉ [300, 600, 1200, 2400, 4800, 9600] ∧
    (named .cut).proof.transit = .none ∧ (printing fun p => { p with transit := .stale }).proof.list ≠ [] ∧
    (let s := printing fun p => { p with lead := 2 }
     s.proof.transit = .counted ∧ 0 < s.proof.lead) ∧
    (let s := printing fun p => { p with sent := 1 }
     s.proof.list = { kind := .entry 5, bytes := [0x41#8, 0x0D#8, 0x0A#8] } :: [] ∧ s.proof.lead = 0 ∧ s.proof.transit = .counted ∧
     s.proof.sent + 1 < 3) ∧
    3 ≤ (printing fun p => { p with sent := 2 }).proof.sent + 1 ∧
    ((printing id).queue.find 5).map (·.proof) = some .inPrint ∧ ((named (.line lineBody)).queue.find 5).map (·.proof) = some .notTaken ∧
    (gapLine 3).isEntry = false ∧ (gapLine 3).isGap = true ∧
    (let s := named (.line lineBody)
     let u : State := { s with proof := { s.proof with state := .idle, named := some 5, list := [gapLine 3], gapCount := 2 } }
     u.proof.state ≠ .disabled ∧ u.proof.disablePending = false ∧ (∀ l ∈ u.proof.list, l.isEntry = false) ∧
     u.proof.named = some 5 ∧ u.queue.find 5 = some (entryOf (.line lineBody)) ∧ u.proof.begun = false ∧
     u.proof.list.find? PrintLine.isGap = some (gapLine 3) ∧
     (u.reactProof.map fun t => (t.proof.list.take 1, t.proof.gapCount)) = some ([gapLine 5], 0)) ∧
    (lineBody.runs.map Run.count).sum = lineBody.glyphs.length ∧ 99999999 < 100000000 ∧ 0 < 1 ∧ 99999 < 100000 ∧
    ascii "JOB 7 ABORTED" ≠ [] ∧ (ascii "JOB 7 ABORTED").getLast? ≠ some 0x20#8 ∧
    (∀ x ∈ [2398, 2400],
      let b : LineBody := { lineBody with glyphs := [(0x41#8, 2379), (0x42#8, 2380), (0x43#8, x)] }
      (b.runs.map Run.count).sum = b.glyphs.length) := by decide +kernel

/-- R181, R191: the reply of a SET PROOF that enables printing with an entry named says PRINTING. -/
theorem test_enabling_takes_the_entry :
    let s := named (.line lineBody)
    let u : State := { s with proof := { s.proof with named := some 5 } }
    ((after (.setProof 7 1 2400) u).link.replies.getLast?.map (·.payload)) = some (num1 2 ++ num1 0 ++ num2 2400) := by
  decide +kernel

theorem witness_PrinterFlowStallAndPaper :
    State.reset.proof.flowOn = true ∧ State.reset.proof.stallTimer = false ∧ State.reset.proof.paperOut = false ∧
    (let s := after .xoffReceived (printing id)
     s.proof.flowOn = false ∧ s.proof.stallTimer = true ∧ (after .stallTimerExpiry s).proof.stalled = true) ∧
    (let s := after .paperOut (printing fun p => { p with sent := 1 })
     s.proof.paperOut = true ∧ s.proof.reprint = true ∧ s.proof.flowOn = true ∧ s.proof.list ≠ []) ∧
    (after .paperOut (printing id)).proof.reprint = false := by decide +kernel

/-- R191: the rate is taken at the first byte of a line and at the carriage return before a reprint, and at no other byte. -/
theorem test_rate_taken_once :
    [(false, 0), (true, 2), (true, 1), (true, 0)].map (fun x : Bool × Nat =>
      ({ (printing id).proof with transit := .none, rate := 300, begun := x.1, lead := x.2 } : Proof).sendNext.lineRate) =
      [300, 300, 2400, 2400] := by decide +kernel

/-- The three conditions of the stall timer, starting, running on and each failing. -/
theorem witness_PrinterFlowStallAndPaper_timer :
    (let on := (printing id).proof
     let off : Proof := { on with flowOn := false }
     (on.judgeStall off).stallTimer = true ∧ (off.judgeStall off).stallTimer = false ∧
     (off.judgeStall { off with stallTimer := true }).stallTimer = true ∧
     [on, { off with paperOut := true }, { off with list := [] }].all
       (fun p => !(off.judgeStall { p with stallTimer := true }).stallTimer && (p.judgeStall off).stallTimer) = true) := by
  decide +kernel

/-! The invariants hold of states other than reset, with a command that changes the block. -/

theorem witness_EveryCommandKeepsTheLink :
    LinkOk (waiting 3) ∧ exec (.identify 7) (waiting 3) = .next (after (.identify 7) (waiting 3)) :=
  ⟨by simp only [LinkOk]; decide +kernel, rfl⟩

theorem endedLine_holders : HoldersOk (servedWith [] (endedLine 1)) := by
  refine ⟨by simp only [CatalogueOk]; decide +kernel, by simp only [ExpoOk]; decide +kernel, by decide +kernel,
    by decide +kernel, by decide +kernel, by simp only [RefsOk]; decide +kernel, ?_, by simp only [ClaimsOk]; decide +kernel,
    ?_, by simp only [LinesOk]; decide +kernel, ⟨by decide +kernel, by decide +kernel, fun _ h => nomatch h⟩⟩
  · intro st hst
    have : st.font.isSome = st.bound ∧ (st.font = none ∨ st.font = some 1 ∧ st.code = 10) := by
      revert st; decide +kernel
    refine ⟨this.1, fun n h => ?_⟩
    rcases this.2 with h' | ⟨h', hc⟩
    · rw [h'] at h; cases h
    · rw [h'] at h; cases h; exact ⟨_, rfl, hc.symm⟩
  · exact ⟨fun _ h => (nomatch h), by decide +kernel, by decide +kernel, fun h => absurd rfl h, fun _ h => (nomatch h),
      by decide +kernel, fun _ h => nomatch h⟩

theorem witness_EveryCommandKeepsTheCatalogue :
    CatalogueOk mounted ∧ exec (.defineFont 7 (fontDef 2 11)) mounted = .next (after (.defineFont 7 (fontDef 2 11)) mounted) ∧
    (after (.defineFont 7 (fontDef 2 11)) mounted).fonts.length = 2 ∧
    (let s := servedWith [] (endedLine 1)
     HoldersOk s ∧ exec .placeWord s = .next (after .placeWord s) ∧ ((after .placeWord s).station 2).claims = 1 ∧
     ((after .placeWord s).font 1).map (·.linePart) = some 1) :=
  ⟨by simp only [CatalogueOk]; decide +kernel, rfl, by decide +kernel, endedLine_holders, rfl, by decide +kernel,
    by decide +kernel⟩

theorem witness_EveryCommandKeepsTheDictionary :
    DictOk worded ∧ exec (.retireWord 7 (.bySlot 2)) worded = .next (after (.retireWord 7 (.bySlot 2)) worded) ∧
    (after (.retireWord 7 (.bySlot 2)) worded).dict.length = 1 := ⟨worded_keeps_dictOk, rfl, by decide +kernel⟩

theorem witness_EveryCommandKeepsJobWordsWithTheirJob :
    let s : State := { worded with dict := [dictEntry 0 (.job 0 7)] }
    JobWordsOk s ∧ exec (.abortJob 7 0 7) s = .next (after (.abortJob 7 0 7) s) ∧ (after (.abortJob 7 0 7) s).dict = [] := by
  refine ⟨fun e h slot id hs => ?_, rfl, by decide +kernel⟩
  obtain rfl : e = dictEntry 0 (.job 0 7) := by simpa using h
  obtain ⟨rfl, rfl⟩ : 0 = slot ∧ 7 = id := by simpa [dictEntry] using hs
  exact ⟨by decide, by decide +kernel, Or.inl (by decide +kernel)⟩

theorem witness_EveryCommandKeepsTheQueue :
    QueueOk (named (.line lineBody)) ∧
    exec (.setQueueMarks 7 1 0 6144 0) (named (.line lineBody)) = .next (after (.setQueueMarks 7 1 0 6144 0) (named (.line lineBody))) ∧
    (after (.setQueueMarks 7 1 0 6144 0) (named (.line lineBody))).queue.highWater = true :=
  ⟨by simp only [QueueOk]; decide +kernel, rfl, by decide +kernel⟩

theorem witness_EveryCommandKeepsTheGalleyOrder :
    let s := servedWith [] LineInProgress.empty
    GalleyOk s ∧ ShapeOk s ∧ exec (.openJob 7 3 9 openParams) s = .next (after (.openJob 7 3 9 openParams) s) ∧
    (after (.openJob 7 3 9 openParams) s).galleyOrder = [0, 3] := by
  refine ⟨⟨by decide +kernel, by decide +kernel, fun n => ?_⟩, by simp only [ShapeOk]; decide +kernel, rfl, by decide +kernel⟩
  by_cases h : n < 4
  · interval_cases n <;> decide +kernel
  · constructor
    · intro hm
      have : n = 0 := by simpa [servedWith] using hm
      omega
    · exact fun hh => absurd hh.1 h

theorem witness_EveryCommandKeepsTheExposureAndProofStates :
    ExpoOk (flashingAt 0 0) ∧ ProofOk (printing id) ∧
    exec .coverOpened (flashingAt 0 0) = .next (after .coverOpened (flashingAt 0 0)) ∧
    (after .coverOpened (flashingAt 0 0)).expo.state = .stopped ∧
    (after .proofByteSent (printing fun p => { p with sent := 2 })).proof.state = .idle := by
  refine ⟨?_, ?_, rfl, ?_, ?_⟩
  · simp only [ExpoOk]; decide +kernel
  · simp only [ProofOk]; decide +kernel
  · decide +kernel
  · decide +kernel

theorem witness_EveryCommandKeepsTheLamp :
    LampOk (lampIn .ready 700) ∧
    exec (.setLamp 7 1400 701 60) (lampIn .ready 700) = .next (after (.setLamp 7 1400 701 60) (lampIn .ready 700)) ∧
    (after (.setLamp 7 1400 701 60) (lampIn .ready 700)).lamp.state = .fault .output :=
  ⟨by simp only [LampOk]; decide +kernel, rfl, by decide +kernel⟩

theorem witness_EveryCommandKeepsTheFilmGeometry :
    let s := moving .moving (.hostCut false) 2300 0
    let t := moving .moving (.lead none) 2300 0
    FilmOk t ∧ ¬FilmOk s ∧ exec (.driveStop 2300) t = .next (after (.driveStop 2300) t) ∧
    (after (.driveStop 2300) t).film.baseline = 2300 := by
  refine ⟨?_, fun h => h, rfl, by decide +kernel⟩
  exact ⟨by simp only [Film.verified]; decide +kernel, by decide +kernel, by decide +kernel⟩

theorem witness_ResetMeetsTheInvariants :
    exec (.powerOnReset ⟨true, true, true, true⟩) mounted = .next (after (.powerOnReset ⟨true, true, true, true⟩) mounted) := rfl

/-! ### The hypotheses of the clauses on what the blocks ask of one another -/

/-- R144, R145: a LINE named while the lamp is OFF waits for it, and a CUT named ends the wait. A selection waits for the turret's
rotation, and the beginning of the flashing for the lens. -/
theorem witness_ClosingPartFrame_waits :
    (let s : State := { named (.line lineBody) with lamp := { (named .cut).lamp with state := .off } }
     let t := reactAll 100 s
     s.expo.state = .idle ∧ t.expo.state = .waitingLamp ∧ t.film.state = .atRest ∧ t.lamp.state ≠ .ready ∧
     (t.expo.named.bind t.queue.find).map (·.body) = some (.line lineBody) ∧ t.exposureHead = some 0 ∧ t.nextForExposure = some 5 ∧
     t.proofHead = some 0 ∧ s.reactLamp.isSome = true) ∧
    (let s : State := { named .cut with expo := { (named .cut).expo with state := .waitingLamp } }
     (reactAll 100 s).expo.state = .idle ∧ s.reactLamp.isSome = true) ∧
    (let s := inFlight .selecting
     let fl := { flight 0 0 with selecting := true }
     let a : State := { s with
       turret := { s.turret with motion := .rotating .exposure 4 }, expo := { s.expo with flight := some fl } }
     let t := reactAll 100 a
     t.expo.state = .selecting ∧ t.expo.flight = some fl ∧ (t.flightRun fl).isSome = true ∧ fl.selecting = true) ∧
    (let s := inFlight .selecting
     let t := reactAll 100 { s with expo := { s.expo with lensTarget := some 50 } }
     t.expo.state = .selecting ∧ t.expo.flight = some (flight 0 0) ∧ (flight 0 0).selecting = false) ∧
    drained.exposureComplete 0 = true ∧ drained.proofingComplete 0 = true ∧
    (let s : State := { servedWith [0x41#8] LineInProgress.empty with engine := { serving := none, pointer := 3 } }
     s.eligible 0 = true ∧ s.eligible 3 = false ∧ (s.chooseTurn.map (·.engine.serving)) = some (some 0)) := by decide +kernel

/-- A job of slot 0 stalled for a font, over the turret and the catalogue of a state. -/
def stalledFor (font : Nat) (s : State) : State :=
  { s with jobs := (servedWith [] (endedLine font)).jobs.modify 0 fun j => { j with
      status := .stalled .fontUnavailable, stallFont := font } }

/-- R86: the answer lifts the stall, changes its reason, or leaves it. -/
theorem witness_DefineFontEntersARecord_asks :
    ([(mounted, 1), (exchanging .draining .atRest false false, 1), (spare, 2), (mounted, 2)].map fun x =>
      let s := stalledFor x.2 x.1
      let t := s.reask 0
      ((s.askFont x.2), (t.job 0).status, t.link.holds .jobStalled)) =
      [(.station 2, .ready, false), (.changing, .stalled .fontChanging, true), (.unavailable, .stalled .fontUnavailable, false),
       (.unavailable, .stalled .fontUnavailable, false)] ∧
    mounted.font 2 = none ∧ (spare.font 2).isSome = true ∧ ((stalledFor 1 mounted).job 0).state = .active := by decide +kernel

/-- R139, R188: the line of a cancelled entry leaves the print list when it has not begun, and stays when it has. -/
theorem witness_CloseAndAbortJob_lines :
    ([printing id, printing fun p => { p with begun := false, transit := .none },
       printing fun p => { p with paperOut := true, reprint := true, transit := .none }].map fun s =>
      ((s.job 0).state, (s.cancellable 0).length, s.proof.list.countP PrintLine.isEntry, s.proof.begun,
       ((after (.abortJob 7 0 7) s).proof.list.any fun l => l.kind == .entry 5))) =
      [(.active, 1, 1, true, true), (.active, 1, 1, false, false), (.active, 1, 1, true, true)] ∧ (printing id).accepting := by
  decide +kernel

/-- R67, R70, R79: each kind of step, the end of a turn and each status after it. -/
theorem witness_TakeByteAppliesTheClass_order :
    let job := fun (text : List Byte) (l : LineInProgress) => (servedWith text l).job 0
    let closing := fun (text : List Byte) (l : LineInProgress) => ({ job text l with state := .closing } : Job)
    let after := fun (j : Job) =>
      let t := ({ servedWith [] LineInProgress.empty with jobs := [j, Job.free, Job.free, Job.free] } : State).afterStep 0
      ((t.job 0).status, (t.job 0).finished, t.engine.serving, t.link.holds .jobStalled)
    (job [0x41#8] (endedLine 1)).work = .place ∧ (job [0x41#8] (endingLine [] none)).work = .set ∧
    (job [0x41#8] LineInProgress.empty).work = .take ∧ (job [0x1B#8, 0x46#8] LineInProgress.empty).work = .none ∧
    (closing [0x1B#8] LineInProgress.empty).work = .take ∧ (closing [] LineInProgress.empty).composing = true ∧
    after (job [] LineInProgress.empty) = (.waitingText, false, none, false) ∧
    after (job [0x41#8] LineInProgress.empty) = (.ready, false, some 0, false) ∧
    after (closing [] LineInProgress.empty) = (.ready, true, none, false) ∧
    after (job [] { LineInProgress.empty with held := some .cut }) = (.stalled .queueFull, false, none, true) := by decide +kernel

/-- R41: a stall and a held item where the job was READY. -/
theorem witness_stalls_are_raised :
    (let s := servedWith [] (endedLine 2)
     (s.job 0).status = .ready ∧ (s.job 0).finished = false ∧ (after .placeWord s).link.holds .jobStalled = true) ∧
    (let s := servedWith [] { LineInProgress.empty with ending := some { paragraph := false, action := .cut, lineSet := true } }
     let full : State := { s with queue := { s.queue with entries := List.replicate 64 (entryOf (.line lineBody)) } }
     full.serves .set = some 0 ∧ full.admits 0 .cut = false ∧ (full.job 0).finished = false ∧
     (after .setLine full).link.holds .jobStalled = true) := by decide +kernel

/-- R73, R74: a kerned pair, the same pair across a gap and across two runs. -/
theorem witness_JustifiedLinesFillTheMeasure_advances :
    let s : State := { mounted with fonts := [{ record 1 10 with kerns := [pair] }] }
    let g := glyph
    let h := { glyph with code := 0x42#8 }
    (record 1 10).width 0x41#8 = 50 ∧ s.advances [g, h] = [17000, 25000] ∧ s.advances [g, { h with gap := true }] = [25000, 25000] ∧
    s.advances [g, { h with size := 120 }] = [25000, 30000] ∧ gapSizes [g, { h with gap := true }] = [100] ∧
    pairSizes [{ g with size := 120 }, h] = [120] ∧ (runsOf [g, h, { h with size := 120 }, h]).length = 3 := by decide +kernel

/-- R113, R120: the rows of the naming table by key, and what the third form refuses. -/
theorem witness_NamedWordsAreAmendedRetiredReported_refusals :
    wordOk word = true ∧ wordOk [0x61#8] = false ∧ scopeOf house = some .house ∧
    [scopeOf { house with scope := 3 }, scopeOf { scope := 2, slot := 4, jobId := 7 }, scopeOf { scope := 2, slot := 0, jobId := 0 }].all
      Option.isNone = true ∧
    scopeOf { scope := 2, slot := 3, jobId := 7 } = some (.job 3 7) ∧
    worded.language 1 = none ∧ worded.language 0 = some table ∧ fold table [0x21#8, 0x61#8] = none ∧
    [(4, word, house), (0, [0x61#8], house), (0, [0x21#8, 0x61#8], house)].all (fun x =>
      match nameEntry worded (.byKey x.1 x.2.1 x.2.2) with | .error .range => true | _ => false) = true ∧
    (match nameEntry worded (.byKey 1 word house) with | .error .state => true | _ => false) = true ∧
    (worded.job 3).state = .free ∧ (worded.job 0).state = .active := by decide +kernel

theorem witness_HoldReleaseAndCover_lamp :
    [LampState.off, .igniting, .ready, .economy, .recovering, .fault .sensor].map LampState.barsRelease =
      [true, true, false, false, false, true] := by decide

end Sys2Proof.Tests
end

section
/-! What the shared operations on references, claims, pins and entries make of the state, in one equation each. -/

namespace Sys2Proof.Machine

open Sys2Proof

/-! ### Lists -/

/-- A change of one element moves a count by what the test says of that element before and after. -/
theorem countP_modify_add {α : Type} (p : α → Bool) (f : α → α) (d : α) {l : List α} {n : Nat} (h : n < l.length) :
    (l.modify n f).countP p + (p (l.getD n d)).toNat = l.countP p + (p (f (l.getD n d))).toNat := by
  induction l generalizing n with
  | nil => simp at h
  | cons x l ih =>
    cases n with
    | zero => cases hp : p x <;> cases hq : p (f x) <;> simp [hp, hq]
    | succ n =>
      have := ih (n := n) (by simpa using h)
      simp only [List.modify_succ_cons, List.getD_cons_succ, List.countP_cons]
      omega

theorem countP_toNat_le {α : Type} {p : α → Bool} {l : List α} {x : α} (h : x ∈ l) : (p x).toNat ≤ l.countP p := by
  cases hp : p x
  · simp
  · exact List.countP_pos_iff.2 ⟨x, h, hp⟩

/-! ### Many records, many stations -/

/-- Every record whose number is in a list is changed. -/
def State.onFonts (s : State) (l : List Nat) (f : FontRecord → FontRecord) : State :=
  { s with fonts := s.fonts.map fun r => if r.number ∈ l then f r else r }

/-- Every station whose number is in a list is changed. -/
def State.onStations (s : State) (l : List Nat) (f : Station → Station) : State :=
  s.onTurret fun t => { t with stations := t.stations.mapIdx fun n st => if n ∈ l then f st else st }

theorem foldl_onFont (f : FontRecord → FontRecord) (hf : ∀ r, (f r).number = r.number) {l : List Nat} (hl : l.Nodup)
    (s : State) : l.foldl (fun s n => s.onFont n f) s = s.onFonts l f := by
  induction l generalizing s with
  | nil => simp [State.onFonts]
  | cons n l ih =>
    obtain ⟨hn, hl⟩ := List.nodup_cons.1 hl
    rw [List.foldl_cons, ih hl]
    simp only [State.onFonts, State.onFont, List.map_map]
    congr 1
    refine List.map_congr_left fun r _ => ?_
    by_cases h : r.number = n
    · subst h; simp [hf, hn]
    · simp [h]

theorem foldl_onStation (f : Station → Station) {l : List Nat} (hl : l.Nodup) (s : State) :
    l.foldl (fun s n => s.onStation n f) s = s.onStations l f := by
  induction l generalizing s with
  | nil =>
    have : s.turret.stations.mapIdx (fun _ st => st) = s.turret.stations := List.ext_getElem? fun m => by simp
    simp [State.onStations, State.onTurret, this]
  | cons n l ih =>
    obtain ⟨hn, hl⟩ := List.nodup_cons.1 hl
    rw [List.foldl_cons, ih hl]
    have : (s.turret.stations.modify n f).mapIdx (fun m st => if m ∈ l then f st else st) =
        s.turret.stations.mapIdx fun m st => if m ∈ n :: l then f st else st := by
      refine List.ext_getElem? fun m => ?_
      simp only [List.getElem?_mapIdx, List.getElem?_modify]
      by_cases h : n = m
      · subst h; cases s.turret.stations[n]? <;> simp [hn]
      · cases s.turret.stations[m]? <;> simp [h, Ne.symm h]
    simp only [State.onStations, State.onStation, State.onTurret, this]

theorem Body.fonts_nodup (b : Body) : b.fonts.Nodup := distinct_nodup _
theorem Body.stations_nodup (b : Body) : b.stations.Nodup := distinct_nodup _

theorem LineInProgress.fonts_nodup (l : LineInProgress) : l.fonts.Nodup := by
  unfold LineInProgress.fonts; split <;> exact distinct_nodup _
theorem LineInProgress.stations_nodup (l : LineInProgress) : l.stations.Nodup := by
  unfold LineInProgress.stations; split <;> exact distinct_nodup _

section
variable {s : State} {l : List Nat} (hl : l.Nodup)
include hl

theorem dropLineRefs_eq : s.dropLineRefs l = s.onFonts l fun r => { r with linePart := r.linePart - 1 } := by
  rw [State.dropLineRefs, foldl_onFont _ (by intro r; rfl) hl]
theorem passRefs_eq :
    s.passRefs l = s.onFonts l fun r => { r with linePart := r.linePart - 1, entryPart := r.entryPart + 1 } := by
  rw [State.passRefs, foldl_onFont _ (by intro r; rfl) hl]
theorem dropEntryRefs_eq : s.dropEntryRefs l = s.onFonts l fun r => { r with entryPart := r.entryPart - 1 } := by
  rw [State.dropEntryRefs, foldl_onFont _ (by intro r; rfl) hl]
theorem dropClaims_eq : s.dropClaims l = s.onStations l fun st => { st with claims := st.claims - 1 } :=
  foldl_onStation _ hl s
theorem pinStations_eq :
    s.pinStations l = s.onStations l fun st => { st with claims := st.claims - 1, pins := st.pins + 1 } :=
  foldl_onStation _ hl s
theorem dropPins_eq : s.dropPins l = s.onStations l fun st => { st with pins := st.pins - 1 } :=
  foldl_onStation _ hl s
end

theorem State.station_onStations (s : State) (l : List Nat) (f : Station → Station) {n : Nat}
    (h : n < s.turret.stations.length) :
    (s.onStations l f).station n = if n ∈ l then f (s.station n) else s.station n := by
  simp [State.station, State.onStations, List.getD_eq_getElem?_getD, h]

end Sys2Proof.Machine
end

section
namespace Sys2Proof.Machine

open Sys2Proof

/-! ### Append -/

/-- A body with its job line number: only a LINE takes one (R127, R128). -/
def Body.numbered (n : Nat) : Body → Body
  | .line l => .line { l with lineNumber := n }
  | b => b

@[simp] theorem Body.numbered_kind (n : Nat) (b : Body) : (b.numbered n).kind = b.kind := by cases b <;> rfl
@[simp] theorem Body.numbered_runs (n : Nat) (b : Body) : (b.numbered n).runs = b.runs := by cases b <;> rfl
@[simp] theorem Body.numbered_glyphCount (n : Nat) (b : Body) : (b.numbered n).glyphCount = b.glyphCount := by
  cases b <;> rfl
@[simp] theorem Body.numbered_fonts (n : Nat) (b : Body) : (b.numbered n).fonts = b.fonts := by simp [Body.fonts]
@[simp] theorem Body.numbered_stations (n : Nat) (b : Body) : (b.numbered n).stations = b.stations := by simp [Body.stations]

@[simp] theorem Body.mem_fonts {n : Nat} {b : Body} : n ∈ b.fonts ↔ n ∈ b.runs.map Run.font := by simp [Body.fonts]
@[simp] theorem Body.mem_stations {n : Nat} {b : Body} : n ∈ b.stations ↔ n ∈ b.runs.map Run.station := by
  simp [Body.stations]

/-- The entry an append makes (R127, R131). -/
def State.newEntry (s : State) (slot : Nat) (b : Body) : Entry :=
  { serial := s.queue.nextFree, slot := slot, jobId := (s.job slot).id, attributed := true
    expo := if b.kind = .mark then .done else .waiting
    proof := if b.kind = .line ∨ b.kind = .mark then .notTaken else .done
    required := decide (b.kind = .mark ∨ (s.job slot).params.policy = .required)
    body := b.numbered (s.job slot).lineNumber }

/-- The state an append leaves before the high mark is tested (R131). -/
def State.appended (s : State) (slot : Nat) (b : Body) : State :=
  (((s.onQueue fun q =>
      { q with entries := q.entries ++ [s.newEntry slot b], nextSerial := (q.nextFree + 1) % 65536 }).onFonts b.fonts
        fun r => { r with linePart := r.linePart - 1, entryPart := r.entryPart + 1 }).onStations b.stations
        fun st => { st with claims := st.claims - 1, pins := st.pins + 1 }).onJob slot (Job.appended b)

theorem appendEntry_eq (s : State) (slot : Nat) (b : Body) : s.appendEntry slot b = (s.appended slot b).testHigh := by
  have hid : ∀ u : State, u.onJob slot (fun j => j) = u := fun u => by
    rw [State.onJob, show (fun j : Job => j) = id from rfl, List.modify_id]
  have hreq : ∀ p : ProofPolicy, (p == .required) = decide (p = .required) := by intro p; cases p <;> rfl
  rw [State.appended, ← pinStations_eq b.stations_nodup, ← passRefs_eq b.fonts_nodup]
  cases b with
  | line l => simp [State.appendEntry, State.newEntry, Body.numbered, Body.kind, hreq]; rfl
  | mark => simp [State.appendEntry, State.newEntry, Body.numbered, Body.kind]; rfl
  | move d c =>
    rw [show Job.appended (.move d c) = fun j => j from rfl, hid]
    simp [State.appendEntry, State.newEntry, Body.numbered, Body.kind, hreq, show (Kind.move == Kind.mark) = false from rfl]
  | cut =>
    rw [show Job.appended .cut = fun j => j from rfl, hid]
    simp [State.appendEntry, State.newEntry, Body.numbered, Body.kind, hreq, show (Kind.cut == Kind.mark) = false from rfl]

/-- The test after an append, on the queue and the link (R133). -/
theorem testHigh_queue (s : State) :
    s.testHigh.queue = { s.queue with highWater := s.queue.highWater || s.queue.atHigh } := by
  simp only [State.testHigh]
  cases h : s.queue.highWater <;> cases h2 : s.queue.atHigh <;> simp <;> rw [← h]

theorem testHigh_link (s : State) :
    s.testHigh.link = if s.queue.atHigh = true ∧ s.queue.highWater = false then (s.raise .queueHigh).link else s.link := by
  simp only [State.testHigh]
  cases h : s.queue.highWater <;> cases h2 : s.queue.atHigh <;> simp

theorem atHigh_iff (q : Queue) : q.atHigh = true ↔ q.entryHigh ≤ q.inUse ∨ q.glyphHigh ≤ q.glyphsInUse := by
  simp [Queue.atHigh]

theorem atLow_iff (q : Queue) : q.atLow = true ↔ q.inUse ≤ q.entryLow ∧ q.glyphsInUse ≤ q.glyphLow := by
  simp [Queue.atLow]

end Sys2Proof.Machine
end

section
namespace Sys2Proof.Machine

open Sys2Proof

/-! ### Serials -/

/-- The serials tried, in their order (R127). -/
def Queue.tried (q : Queue) : List Nat := (List.range 65).map fun k => (q.nextSerial + k) % 65536

theorem Queue.tried_nodup (q : Queue) : q.tried.Nodup := by
  refine List.Nodup.map_on (fun a ha b hb h => ?_) List.nodup_range
  rw [List.mem_range] at ha hb
  omega

/-- Of the 65 serials tried one is free where at most 64 entries are present. -/
theorem Queue.exists_free {q : Queue} (h : q.entries.length ≤ 64) :
    ∃ n ∈ q.tried, q.entries.any (·.serial == n) = false := by
  by_contra hall
  push Not at hall
  have hsub : q.tried ⊆ q.entries.map (·.serial) := fun n hn => by
    have : ∃ e ∈ q.entries, e.serial = n := by simpa using hall n hn
    simpa using this
  have := (q.tried_nodup.subperm hsub).length_le
  simp [Queue.tried] at this
  omega

/-- The serial of the next append is that of no present entry (R127). -/
theorem Queue.nextFree_spec {q : Queue} (h : q.entries.length ≤ 64) :
    q.nextFree < 65536 ∧ ∀ e ∈ q.entries, e.serial ≠ q.nextFree := by
  obtain ⟨n, hn, hfree⟩ := q.exists_free h
  cases hf : q.tried.find? (fun n => !q.entries.any (·.serial == n)) with
  | none => exact absurd (List.find?_eq_none.1 hf n hn) (by simp [hfree])
  | some m =>
    have hm : q.nextFree = m := by rw [Queue.nextFree, ← Queue.tried, hf]; rfl
    obtain ⟨k, -, hk⟩ := List.mem_map.1 (List.mem_of_find?_eq_some hf)
    have hany := List.find?_some hf
    simp at hany
    rw [hm]
    exact ⟨by omega, hany⟩

theorem Queue.nextFree_eq {q : Queue} (h : q.nextSerial < 65536) (hn : ∀ e ∈ q.entries, e.serial ≠ q.nextSerial) :
    q.nextFree = q.nextSerial := by
  have hfree : (!q.entries.any (·.serial == q.nextSerial)) = true := by simpa using hn
  rw [Queue.nextFree, List.range_succ_eq_map, List.map_cons, Nat.add_zero, Nat.mod_eq_of_lt h, List.find?_cons, hfree]
  rfl

/-! ### Release, exposure done, proof done -/

/-- The entries but for those of a serial. -/
def Queue.without (q : Queue) (k : Nat) : Queue := { q with entries := q.entries.filter fun e => e.serial ≠ k }

theorem filter_serial_bne (l : List Entry) (k : Nat) :
    l.filter (·.serial != k) = l.filter fun e => decide (e.serial ≠ k) :=
  List.filter_congr fun e _ => by by_cases h : e.serial = k <;> simp [h]

theorem removeEntry_eq (s : State) (e : Entry) :
    s.removeEntry e =
      let u := (s.onQueue fun q => q.without e.serial).onFonts e.body.fonts fun r => { r with entryPart := r.entryPart - 1 }
      if e.expo = .done then u else u.onStations e.body.stations fun st => { st with pins := st.pins - 1 } := by
  simp only [State.removeEntry, dropEntryRefs_eq e.body.fonts_nodup, dropPins_eq e.body.stations_nodup, filter_serial_bne]
  cases h : e.expo <;> rfl

theorem releaseIfDone_of_none {s : State} {k : Nat} (h : s.queue.find k = none) : s.releaseIfDone k = s := by
  simp [State.releaseIfDone, h]

theorem releaseIfDone_of_kept {s : State} {k : Nat} {e : Entry} (h : s.queue.find k = some e) (hr : e.releasable = false) :
    s.releaseIfDone k = s := by
  simp [State.releaseIfDone, h, hr]

theorem releasable_iff (e : Entry) :
    e.releasable = true ↔ e.expo = .done ∧ ((e.attributed = false ∨ e.required = false) ∨ e.proof = .done) := by
  simp [Entry.releasable, or_assoc]

/-- A released entry leaves with its references, and is counted in the gap count where its BEST EFFORT job had no proof of it. -/
theorem releaseIfDone_of_releasable {s : State} {k : Nat} {e : Entry} (h : s.queue.find k = some e)
    (hr : e.releasable = true) :
    s.releaseIfDone k =
      { s.onFonts e.body.fonts (fun r => { r with entryPart := r.entryPart - 1 }) with
        queue := { s.queue.without k with highWater := s.queue.highWater && !(s.queue.without k).atLow }
        proof := if s.policyOf e = .bestEffort ∧ e.proof = .notTaken then { s.proof with gapCount := bump s.proof.gapCount }
          else s.proof } := by
  obtain ⟨-, rfl⟩ := mem_of_queue_find h
  have hd : e.expo = .done := ((releasable_iff e).1 hr).1
  have hb : (s.policyOf e == .bestEffort && e.proof == .notTaken) = decide (s.policyOf e = .bestEffort ∧ e.proof = .notTaken) := by
    cases s.policyOf e <;> cases e.proof <;> rfl
  simp only [State.releaseIfDone, h, hr, if_true, removeEntry_eq, hd, hb, decide_eq_true_eq]
  split <;> rfl

/-- The policy of the job an entry is attributed to. -/
theorem policyOf_eq (s : State) (e : Entry) :
    s.policyOf e = if e.attributed = true ∧ (s.job e.slot).id = e.jobId then (s.job e.slot).params.policy else .none := by
  have hid : (e.jobId == (s.job e.slot).id) = decide ((s.job e.slot).id = e.jobId) := by simp [Bool.beq_eq_decide_eq, eq_comm]
  simp [State.policyOf, State.ownedBy, hid]

/-- What a report of exposure done sets in the entry (R128, R129, R136). -/
def Entry.exposed (spoiled clamped : Bool) (e : Entry) : Entry :=
  { e with expo := .done, body := if spoiled then e.body.spoil else e.body.clamp clamped }

/-- A spoil report builds, or loses, a spoil line for an entry (R187). -/
def State.noted (s : State) (e : Entry) (spoiled : Bool) : Bool :=
  spoiled && (e.proof != .notTaken || (s.policyOf e == .bestEffort && (!e.attributed || !e.required)))

/-- The state in which an entry whose exposure is reported done is judged for release (R136, R187). -/
def State.exposureReported (s : State) (e : Entry) (spoiled clamped : Bool) : State :=
  { s.onStations e.body.stations (fun st => { st with pins := st.pins - 1 }) with
    queue := s.queue.modify e.serial (Entry.exposed spoiled clamped)
    proof := match e.body with
      | .line b => if s.noted e spoiled then s.proof.spoilNote b.lineNumber e.jobId else s.proof
      | _ => s.proof }

theorem exposureDone_of_none {s : State} {k : Nat} (h : s.queue.find k = none) (spoiled clamped : Bool) :
    s.exposureDone k spoiled clamped = s := by
  simp [State.exposureDone, h]

theorem exposureDone_of_some {s : State} {k : Nat} {e : Entry} (h : s.queue.find k = some e) (spoiled clamped : Bool) :
    s.exposureDone k spoiled clamped = (s.exposureReported e spoiled clamped).releaseIfDone k := by
  obtain ⟨-, rfl⟩ := mem_of_queue_find h
  have hnote : (spoiled && (e.proof != .notTaken || (s.policyOf e == .bestEffort &&
      { e with expo := ExpoProgress.done : Entry }.releasable))) = s.noted e spoiled := by
    have h1 : (ProofProgress.notTaken == .done) = false := rfl
    have h2 : (ProofProgress.inPrint != .notTaken) = true := rfl
    have h3 : (ProofProgress.done != .notTaken) = true := rfl
    cases hp : e.proof <;> simp [State.noted, Entry.releasable, hp, h1, h2, h3]
  simp only [State.exposureDone, h, dropPins_eq e.body.stations_nodup, State.exposureReported, ← hnote]
  congr 1
  cases hb : e.body
  case line =>
    have hif : ∀ (c : Bool) (u : State) (f : Proof → Proof),
        (if c then u.onProof f else u) = { u with proof := if c then f u.proof else u.proof } := by
      intro c u f; cases c <;> rfl
    exact hif _ _ _
  all_goals rfl

theorem proofDone_of_none {s : State} {k : Nat} (h : s.queue.find k = none) : s.proofDone k = s := by
  simp [State.proofDone, h]

theorem proofDone_of_some {s : State} {k : Nat} {e : Entry} (h : s.queue.find k = some e) :
    s.proofDone k =
      if e.proof = .inPrint then (s.onQueue fun q => q.modify k fun e => { e with proof := .done }).releaseIfDone k else s := by
  simp only [State.proofDone, h]
  cases e.proof <;> rfl

end Sys2Proof.Machine
end

section
namespace Sys2Proof.Machine

open Sys2Proof

/-- An item is admitted exactly when the room of its class is free (R130). -/
theorem admits_iff (s : State) (slot : Nat) (b : Body) :
    s.admits slot b = true ↔
      if b.kind = .mark ∧ s.proofHead = some slot then s.queue.inUse + 1 ≤ 64
      else if s.exposureHead = some slot then
        s.queue.inUse + 2 ≤ 64 ∧ (b.kind = .line → s.queue.glyphsInUse + b.glyphCount + 0 ≤ 6144)
      else s.queue.inUse + 3 ≤ 64 ∧ (b.kind = .line → s.queue.glyphsInUse + b.glyphCount + 240 ≤ 6144) := by
  have hmark : ((b.kind == .mark && s.proofHead == some slot) = true) = (b.kind = .mark ∧ s.proofHead = some slot) := by simp
  have hhead : ((s.exposureHead == some slot) = true) = (s.exposureHead = some slot) := by simp
  have hline : ∀ n : Nat, ((b.kind != .line || decide (s.queue.glyphsInUse + n ≤ Config.glyphSlots)) = true) ↔
      (b.kind = .line → s.queue.glyphsInUse + n ≤ 6144) := fun n => by
    rw [Bool.or_eq_true, bne_iff_ne, decide_eq_true_eq, ← imp_iff_not_or]; rfl
  simp only [State.admits, State.roomNeeded, hmark, hhead]
  split
  · next h => 
    simp only [Bool.and_eq_true, decide_eq_true_eq, hline]
    simp only [h.1, reduceCtorEq, false_imp_iff, and_true]; rfl
  · split
    · simp only [Bool.and_eq_true, decide_eq_true_eq, hline, Nat.add_zero]; rfl
    · simp only [Bool.and_eq_true, decide_eq_true_eq, hline]
      by_cases hk : b.kind = .line
      · simp only [hk, beq_self_eq_true, if_true, Nat.add_assoc]; rfl
      · simp only [hk, false_imp_iff, and_true]; rfl

theorem glyphsInUse_eq (q : Queue) :
    q.glyphsInUse = (q.entries.map fun e => match e.body with | .line l => l.glyphs.length | _ => 0).sum := by
  rw [Queue.glyphsInUse]
  congr 1

theorem hasHyphen_iff (flags : List LineFlag) :
    hasHyphen flags = true ↔ LineFlag.hyphD ∈ flags ∨ .hyphX ∈ flags ∨ .hyphA ∈ flags := by
  simp [hasHyphen, or_assoc]

theorem nextLineNumber_eq (n : Nat) : nextLineNumber n = if 65535 ≤ n then 1 else n + 1 := rfl
theorem bump_eq (n : Nat) : bump n = if n < 65535 then n + 1 else n := rfl

/-! ### An append, field by field (R127, R131, R133) -/

theorem appended_atHigh (s : State) (slot : Nat) (b : Body) :
    (s.appended slot b).queue.atHigh =
      decide (s.queue.entryHigh ≤ s.queue.inUse + 1 ∨ s.queue.glyphHigh ≤ s.queue.glyphsInUse + b.glyphCount) := by
  rw [Bool.eq_iff_iff, atHigh_iff, decide_eq_true_eq]
  simp [State.appended, State.onJob, State.onStations, State.onFonts, Queue.inUse, Queue.glyphsInUse, State.newEntry]

theorem appendEntry_queue (s : State) (slot : Nat) (b : Body) :
    (s.appendEntry slot b).queue = { s.queue with
      entries := s.queue.entries ++ [s.newEntry slot b]
      nextSerial := (s.queue.nextFree + 1) % 65536
      highWater := s.queue.highWater ||
        decide (s.queue.entryHigh ≤ s.queue.inUse + 1 ∨ s.queue.glyphHigh ≤ s.queue.glyphsInUse + b.glyphCount) } := by
  rw [appendEntry_eq, testHigh_queue, appended_atHigh]; rfl

theorem appendEntry_link (s : State) (slot : Nat) (b : Body) :
    (s.appendEntry slot b).link =
      if (s.queue.entryHigh ≤ s.queue.inUse + 1 ∨ s.queue.glyphHigh ≤ s.queue.glyphsInUse + b.glyphCount) ∧
        s.queue.highWater = false then (s.raise .queueHigh).link else s.link := by
  simp only [appendEntry_eq, testHigh_link, appended_atHigh, decide_eq_true_eq]; rfl

theorem appendEntry_fonts (s : State) (slot : Nat) (b : Body) :
    (s.appendEntry slot b).fonts = s.fonts.map fun r =>
      if r.number ∈ b.fonts then { r with linePart := r.linePart - 1, entryPart := r.entryPart + 1 } else r := by
  simp only [appendEntry_eq, testHigh_keeps]; rfl

theorem appendEntry_stations (s : State) (slot : Nat) (b : Body) :
    (s.appendEntry slot b).turret.stations = s.turret.stations.mapIdx fun n st =>
      if n ∈ b.stations then { st with claims := st.claims - 1, pins := st.pins + 1 } else st := by
  simp only [appendEntry_eq, testHigh_keeps]; rfl

theorem appendEntry_station (s : State) (slot : Nat) (b : Body) {n : Nat} (h : n < s.turret.stations.length) :
    (s.appendEntry slot b).station n =
      if n ∈ b.stations then { s.station n with claims := (s.station n).claims - 1, pins := (s.station n).pins + 1 }
      else s.station n := by
  simp [State.station, appendEntry_stations, List.getD_eq_getElem?_getD, h]

theorem appendEntry_job (s : State) {slot : Nat} (b : Body) (h : slot < s.jobs.length) :
    (s.appendEntry slot b).job slot = Job.appended b (s.job slot) := by
  simp [State.job, appendEntry_jobs, List.getD_eq_getElem?_getD, h]

theorem appendEntry_job_ne (s : State) {slot n : Nat} (b : Body) (h : n ≠ slot) : (s.appendEntry slot b).job n = s.job n := by
  simp [State.job, appendEntry_jobs, List.getD_eq_getElem?_getD, h.symm]

/-! ### A release and the reports, field by field (R136, R137, R138) -/

theorem spoilNote_built {p : Proof} (n id : Nat) (h1 : p.state ≠ .disabled) (h2 : p.disablePending = false)
    (h3 : p.list.countP PrintLine.isSpoil < 8) :
    p.spoilNote n id = { p with state := .printing, list := p.list ++ [spoilLine n id] } := by
  have ht : p.taking = true := by
    rw [Proof.taking, h2]; revert h1; cases p.state <;> decide
  simp [Proof.spoilNote, ht, h3, Proof.follow]

theorem spoilNote_lost {p : Proof} (n id : Nat)
    (h : p.state = .disabled ∨ p.disablePending = true ∨ 8 ≤ p.list.countP PrintLine.isSpoil) :
    p.spoilNote n id = { p with notesLost := bump p.notesLost } := by
  have ht : (p.taking && decide (p.list.countP PrintLine.isSpoil < 8)) = false := by
    rcases h with h | h | h
    · rw [Proof.taking, h]; rfl
    · simp [Proof.taking, h]
    · simp [Nat.not_lt.2 h]
  simp [Proof.spoilNote, ht]

theorem Queue.modify_entries (q : Queue) (k : Nat) (f : Entry → Entry) :
    (q.modify k f).entries = q.entries.map fun e => if e.serial = k then f e else e := by
  simp [Queue.modify]

theorem exposed_eq (spoiled clamped : Bool) (e : Entry) :
    e.exposed spoiled clamped = { e with
      expo := .done
      body := match e.body with
        | .line l => .line { l with flags := if spoiled = true then l.flags ++ [.spoiled] else l.flags }
        | .move d c => .move d (if spoiled = true then c else clamped)
        | b => b } := by
  cases spoiled <;> cases hb : e.body <;> simp [Entry.exposed, Body.spoil, Body.clamp, hb]

theorem policyOf_iff (s : State) (e : Entry) :
    s.policyOf e = .bestEffort ↔
      (e.attributed = true ∧ (s.job e.slot).id = e.jobId) ∧ (s.job e.slot).params.policy = .bestEffort := by
  rw [policyOf_eq]; split <;> simp_all

theorem noted_iff (s : State) (e : Entry) (spoiled : Bool) :
    s.noted e spoiled = true ↔ spoiled = true ∧ (e.proof ≠ .notTaken ∨
      (((e.attributed = true ∧ (s.job e.slot).id = e.jobId) ∧ (s.job e.slot).params.policy = .bestEffort) ∧
        (e.attributed = false ∨ e.required = false))) := by
  simp [State.noted, policyOf_iff]

/-- Settles O38: the room of each class, the serial of an append, and each report are the field-by-field lemmas above. -/
theorem admissionAndAppend : Obligations.AdmissionAndAppend := by
  unfold Obligations.AdmissionAndAppend
  refine ⟨fun s slot b => ⟨admits_iff s slot b, rfl, glyphsInUse_eq _⟩, fun q => ⟨Queue.nextFree_eq, Queue.nextFree_spec⟩,
    fun s slot b hslot => ?_, fun s serial => ⟨fun h => ⟨releaseIfDone_of_none h, proofDone_of_none h, exposureDone_of_none h⟩,
      fun e he => ?_⟩, fun p n id => ⟨spoilNote_built n id, spoilNote_lost n id⟩⟩
  · intro j t flags hyphened up high
    have hjob : t.job slot = Job.appended b j := appendEntry_job s b hslot
    refine ⟨?_, appendEntry_link s slot b, fun hk => ?_, fun hk => ?_, fun hk => ?_, fun n hn => appendEntry_job_ne s b hn,
      ?_, fun n hn => ?_, by simp [t], by simp [t], by simp [t], by simp [t], by simp [t], by simp [t]⟩
    · simp only [t, appendEntry_queue, State.newEntry]
      cases b <;> rfl
    · cases b <;> simp only [Body.kind, reduceCtorEq] at hk
      simp only [hjob, Job.appended, Job.countLine, hasHyphen_iff, nextLineNumber_eq, bump_eq, List.contains_eq_mem,
        Bool.or_eq_true, decide_eq_true_eq]
      rfl
    · cases b <;> simp only [Body.kind, reduceCtorEq] at hk
      exact hjob
    · cases b <;> simp [Body.kind] at hk <;> exact hjob
    · simp only [t, appendEntry_fonts, Body.mem_fonts]
    · simp only [t, appendEntry_station s slot b hn, Body.mem_stations]
  · intro mine bestEffort free t left low
    have hk := (mem_of_queue_find he).2
    have hrel : e.releasable = true ↔ e.expo = .done ∧ (free ∨ e.proof = .done) := releasable_iff e
    refine ⟨fun hn => releaseIfDone_of_kept he (by simpa using mt hrel.1 hn), fun hd hp => ?_, fun spoiled clamped => ?_,
      fun hp => ?_, fun hp => ?_⟩
    · have hlow : (s.queue.without serial).atLow = decide low := by
        rw [Bool.eq_iff_iff, atLow_iff, decide_eq_true_eq]; rfl
      have ht : t = _ := releaseIfDone_of_releasable he (hrel.2 ⟨hd, hp⟩)
      rw [ht]
      refine ⟨by rw [← hlow]; rfl, ?_, by simp only [State.onFonts, Body.mem_fonts], rfl⟩
      simp only [policyOf_iff, bump_eq]
      by_cases hc : bestEffort ∧ e.proof = .notTaken
      · by_cases hg : s.proof.gapCount < 65535
        · rw [if_pos hc, if_pos hg, if_pos ⟨hc.1, hc.2, hg⟩]
        · rw [if_pos hc, if_neg hg, if_neg fun h => hg h.2.2]
      · rw [if_neg hc, if_neg fun h => hc ⟨h.1, h.2.1⟩]
    · intro note
      refine ⟨_, exposureDone_of_some he spoiled clamped, ?_, fun n hn => ?_, fun l hl hnote => ?_, fun hnote => ?_,
        rfl, rfl, rfl, rfl⟩
      · simp only [State.exposureReported, hk, Queue.modify, exposed_eq, beq_iff_eq] <;> rfl
      · refine (s.station_onStations e.body.stations _ hn).trans ?_
        simp only [Body.mem_stations]
      · simp only [State.exposureReported, hl, if_pos ((noted_iff s e spoiled).2 hnote)]
      · simp only [State.exposureReported]
        cases hb : e.body
        case line =>
          exact if_neg fun h => hnote.elim (absurd ((noted_iff s e spoiled).1 h)) (absurd (by rw [hb]; rfl))
        all_goals rfl
    · rw [proofDone_of_some he, if_neg hp]
    · rw [proofDone_of_some he, if_pos hp]
      simp only [State.onQueue, Queue.modify, beq_iff_eq]

end Sys2Proof.Machine
end

section
/-! The laws of references, bindings, claims and pins (R8, R11, R24, R25) as a ledger over the records, the stations, the jobs and the
entries, apart from the turret's motion and the entry in flight; and what keeps the ledger. -/

namespace Sys2Proof.Machine

open Sys2Proof

/-- What LinesOk says of one job. -/
def Job.lineOk (j : Job) : Prop :=
  (j.line.held.isSome = true → j.line.glyphs = []) ∧
  (j.line.params.isSome = true ↔ j.line.glyphs ≠ []) ∧
  (∀ g ∈ j.line.glyphs, ∀ h ∈ j.line.glyphs, g.font = h.font → g.station = h.station) ∧
  (j.state = .free ∨ j.state = .aborting → j.line.glyphs = [] ∧ j.line.held = none) ∧
  (j.finished = true → j.state = .closing ∧ j.text = [] ∧ j.line.isEmpty = true)

/-- The laws of HoldersOk but for the turret's motion, the engine and the entry in flight. -/
structure LedgerOk (fonts : List FontRecord) (stations : List Station) (jobs : List Job) (entries : List Entry) : Prop where
  few : fonts.length ≤ 32
  numbers : (fonts.map (·.number)).Pairwise (· < ·)
  masters : (fonts.map (·.master)).Nodup
  jobs4 : jobs.length = 4
  stations8 : stations.length = 8
  stationRefs : ∀ r ∈ fonts, r.stationPart = stations.countP (·.holds r.number)
  entryRefs : ∀ r ∈ fonts, r.entryPart = entries.countP fun e => e.body.fonts.contains r.number
  lineRefs : ∀ r ∈ fonts, r.linePart = jobs.countP fun j => j.line.fonts.contains r.number
  entryFonts : ∀ e ∈ entries, ∀ n ∈ e.body.fonts, ∃ r ∈ fonts, r.number = n
  lineFonts : ∀ j ∈ jobs, ∀ n ∈ j.line.fonts, ∃ r ∈ fonts, r.number = n
  bound : ∀ st ∈ stations, st.font.isSome = st.bound
  binding : ∀ st ∈ stations, ∀ n, st.font = some n → ∃ r ∈ fonts, r.number = n ∧ r.master = st.code
  claims : ∀ n, n < 8 → (stations.getD n Station.powerOn).claims = jobs.countP fun j => j.line.stations.contains n
  pins : ∀ n, n < 8 →
    (stations.getD n Station.powerOn).pins = entries.countP fun e => e.expo != .done && e.body.stations.contains n
  used : ∀ n, n < 8 → 0 < (stations.getD n Station.powerOn).claims ∨ 0 < (stations.getD n Station.powerOn).pins →
    (stations.getD n Station.powerOn).bound = true
  lines : ∀ j ∈ jobs, j.lineOk
  room : entries.length ≤ 64
  serials : (entries.map (·.serial)).Nodup

/-- The ledger of a state. -/
abbrev State.LedgerOk (s : State) : Prop := Machine.LedgerOk s.fonts s.turret.stations s.jobs s.queue.entries

/-- The entry in flight is present and IN FLIGHT, in the states of the second group alone (R143, R154). -/
def InFlightOk (s : State) : Prop :=
  ExpoOk s ∧ ∀ fl, s.expo.flight = some fl → ∃ e ∈ s.queue.entries, e.serial = fl.serial ∧ e.expo = .inFlight

/-! ### Records by number -/

theorem font_isSome_iff (s : State) (n : Nat) : (s.font n).isSome = true ↔ ∃ r ∈ s.fonts, r.number = n := by
  simp [State.font, List.find?_isSome]

theorem mem_of_font {s : State} {n : Nat} {r : FontRecord} (h : s.font n = some r) : r ∈ s.fonts ∧ r.number = n :=
  ⟨List.mem_of_find?_eq_some h, by simpa using List.find?_some h⟩

theorem mem_of_fontOfMaster {s : State} {c : Nat} {r : FontRecord} (h : s.fontOfMaster c = some r) :
    r ∈ s.fonts ∧ r.master = c :=
  ⟨List.mem_of_find?_eq_some h, by simpa using List.find?_some h⟩

/-- Two records of one number are one (R1). -/
theorem eq_of_number_eq {fonts : List FontRecord} (h : (fonts.map (·.number)).Pairwise (· < ·)) {a b : FontRecord}
    (ha : a ∈ fonts) (hb : b ∈ fonts) (hn : a.number = b.number) : a = b :=
  List.inj_on_of_nodup_map (h.imp (fun hlt => Nat.ne_of_lt hlt)) ha hb hn

/-- The record of a number is the one of that number in the catalogue (R1, R2). -/
theorem font_eq_some {s : State} (h : (s.fonts.map (·.number)).Pairwise (· < ·)) {r : FontRecord} (hr : r ∈ s.fonts) :
    s.font r.number = some r := by
  cases hf : s.font r.number with
  | none => exact absurd ((font_isSome_iff s r.number).2 ⟨r, hr, rfl⟩) (by simp [hf])
  | some x => rw [eq_of_number_eq h hr (mem_of_font hf).1 (mem_of_font hf).2.symm]

/-! ### HoldersOk in three parts -/

theorem station_mem (s : State) {n : Nat} (h : n < s.turret.stations.length) : s.station n ∈ s.turret.stations := by
  simp [State.station, List.getD_eq_getElem?_getD, h]

theorem holdersOk_iff (s : State) :
    HoldersOk s ↔ s.LedgerOk ∧ (∀ n ∈ s.engine.serving, n < 4) ∧ TurretOk s ∧ InFlightOk s := by
  constructor
  · rintro ⟨⟨few, numbers, masters⟩, hx, hj, hs, hserve, ⟨hrefs, hef, hlf⟩, hbind, hclaims, hturret, hlines, hroom, hser, hfl⟩
    refine ⟨?_, hserve, hturret, hx, hfl⟩
    exact
      { few, numbers, masters, jobs4 := hj, stations8 := hs, lines := hlines, room := hroom, serials := hser
        stationRefs := fun r hr => (hrefs r hr).1
        entryRefs := fun r hr => (hrefs r hr).2.1
        lineRefs := fun r hr => (hrefs r hr).2.2
        entryFonts := fun e he n hn => (font_isSome_iff s n).1 (hef e he n hn)
        lineFonts := fun j hj n hn => (font_isSome_iff s n).1 (hlf j hj n hn)
        bound := fun st hst => (hbind st hst).1
        binding := fun st hst n hn =>
          let ⟨r, hr, hm⟩ := (hbind st hst).2 n hn
          ⟨r, (mem_of_font hr).1, (mem_of_font hr).2, hm⟩
        claims := fun n hn => (hclaims n hn).1
        pins := fun n hn => (hclaims n hn).2.1
        used := fun n hn => (hclaims n hn).2.2 }
  · rintro ⟨h, hserve, hturret, hx, hfl⟩
    refine ⟨⟨h.few, h.numbers, h.masters⟩, hx, h.jobs4, h.stations8, hserve,
      ⟨fun r hr => ⟨h.stationRefs r hr, h.entryRefs r hr, h.lineRefs r hr⟩,
        fun e he n hn => (font_isSome_iff s n).2 (h.entryFonts e he n hn),
        fun j hj n hn => (font_isSome_iff s n).2 (h.lineFonts j hj n hn)⟩,
      fun st hst => ⟨h.bound st hst, fun n hn => ?_⟩,
      fun n hn => ⟨h.claims n hn, h.pins n hn, h.used n hn⟩, hturret, h.lines, h.room, h.serials, hfl⟩
    obtain ⟨r, hr, rfl, hm⟩ := h.binding st hst n hn
    exact ⟨r, font_eq_some h.numbers hr, hm⟩

/-! ### What keeps the ledger -/

section
variable {fonts : List FontRecord} {stations : List Station} {jobs : List Job} {entries : List Entry}

theorem getD_mapIdx {α : Type} (f : Nat → α → α) (l : List α) {n : Nat} (h : n < l.length) (d : α) :
    (l.mapIdx f).getD n d = f n (l.getD n d) := by
  simp [List.getD_eq_getElem?_getD, h]

theorem getD_modify_self {α : Type} (f : α → α) {l : List α} {n : Nat} (h : n < l.length) (d : α) :
    (l.modify n f).getD n d = f (l.getD n d) := by
  simp [List.getD_eq_getElem?_getD, h]

theorem getD_modify_ne {α : Type} (f : α → α) (l : List α) {n m : Nat} (h : n ≠ m) (d : α) :
    (l.modify n f).getD m d = l.getD m d := by
  simp [List.getD_eq_getElem?_getD, h]

theorem getD_mem {α : Type} {l : List α} {n : Nat} (h : n < l.length) (d : α) : l.getD n d ∈ l := by
  simp [List.getD_eq_getElem?_getD, h]

theorem forall_mem_mapIdx {α : Type} {p : α → Prop} {f : Nat → α → α} {l : List α} (h : ∀ n x, x ∈ l → p (f n x)) :
    ∀ y ∈ l.mapIdx f, p y := by
  intro y hy
  obtain ⟨i, hi, rfl⟩ := List.mem_mapIdx.1 hy
  exact h i _ (List.getElem_mem hi)

theorem forall_mem_modify {α : Type} {p : α → Prop} {f : α → α} {l : List α} {n : Nat} (d : α)
    (h : ∀ x ∈ l, p x) (hn : n < l.length → p (f (l.getD n d))) : ∀ y ∈ l.modify n f, p y := by
  intro y hy
  obtain ⟨i, hi⟩ := List.mem_iff_getElem?.1 hy
  rw [List.getElem?_modify] at hi
  by_cases hni : n = i
  · subst hni
    cases hx : l[n]? with
    | none => simp [hx] at hi
    | some x =>
      obtain ⟨hlt, -⟩ := List.getElem?_eq_some_iff.1 hx
      have := hn hlt
      simp only [List.getD_eq_getElem?_getD, hx, Option.getD_some] at this
      simp [hx] at hi
      rwa [← hi]
  · simp [hni] at hi
    exact h y (List.mem_of_getElem? hi)

theorem map_map_of_eq {α β : Type} {p : α → β} {g : α → α} {l : List α} (hg : ∀ x ∈ l, p (g x) = p x) :
    (l.map g).map p = l.map p := by
  rw [List.map_map]; exact List.map_congr_left hg

/-- Records keep their numbers under a change of their parts. -/
theorem exists_number_map {g : FontRecord → FontRecord} (hg : ∀ r ∈ fonts, (g r).number = r.number) {n : Nat} :
    (∃ r ∈ fonts.map g, r.number = n) ↔ ∃ r ∈ fonts, r.number = n := by
  constructor
  · rintro ⟨x, hx, rfl⟩
    obtain ⟨r, hr, hrx⟩ := List.mem_map.1 hx
    exact ⟨r, hr, by rw [← hrx, hg r hr]⟩
  · rintro ⟨r, hr, rfl⟩
    exact ⟨g r, List.mem_map_of_mem hr, hg r hr⟩

/-- References, claims and pins move with the lines and the entries that hold them; no station changes its binding. -/
theorem LedgerOk.move (h : LedgerOk fonts stations jobs entries) {g : FontRecord → FontRecord} {f : Nat → Station → Station}
    {jobs' : List Job} {entries' : List Entry}
    (hg : ∀ r ∈ fonts, (g r).number = r.number ∧ (g r).master = r.master ∧ (g r).stationPart = r.stationPart)
    (hf : ∀ n st, (f n st).state = st.state ∧ (f n st).code = st.code ∧ (f n st).font = st.font ∧ (f n st).prior = st.prior)
    (hjobs : jobs'.length = 4) (hlines : ∀ j ∈ jobs', j.lineOk)
    (hroom : entries'.length ≤ 64) (hserials : (entries'.map (·.serial)).Nodup)
    (hentry : ∀ r ∈ fonts, (g r).entryPart = entries'.countP fun e => e.body.fonts.contains r.number)
    (hline : ∀ r ∈ fonts, (g r).linePart = jobs'.countP fun j => j.line.fonts.contains r.number)
    (hentryFonts : ∀ e ∈ entries', ∀ n ∈ e.body.fonts, ∃ r ∈ fonts, r.number = n)
    (hlineFonts : ∀ j ∈ jobs', ∀ n ∈ j.line.fonts, ∃ r ∈ fonts, r.number = n)
    (hclaims : ∀ n, n < 8 → (f n (stations.getD n Station.powerOn)).claims = jobs'.countP fun j => j.line.stations.contains n)
    (hpins : ∀ n, n < 8 → (f n (stations.getD n Station.powerOn)).pins =
      entries'.countP fun e => e.expo != .done && e.body.stations.contains n)
    (hused : ∀ n, n < 8 → 0 < (f n (stations.getD n Station.powerOn)).claims ∨ 0 < (f n (stations.getD n Station.powerOn)).pins →
      (stations.getD n Station.powerOn).bound = true) :
    LedgerOk (fonts.map g) (stations.mapIdx f) jobs' entries' := by
  have hstate : ∀ n st, (f n st).state = st.state := fun n st => (hf n st).1
  have hcode : ∀ n st, (f n st).code = st.code := fun n st => (hf n st).2.1
  have hfont : ∀ n st, (f n st).font = st.font := fun n st => (hf n st).2.2.1
  have hprior : ∀ n st, (f n st).prior = st.prior := fun n st => (hf n st).2.2.2
  have hbound : ∀ n st, (f n st).bound = st.bound := fun n st => by simp only [Station.bound, hstate, hprior]
  have hholds : ∀ n st k, (f n st).holds k = st.holds k := fun n st k => by simp only [Station.holds, hstate, hfont]
  have hget : ∀ n, n < 8 → (stations.mapIdx f).getD n Station.powerOn = f n (stations.getD n Station.powerOn) := fun n hn =>
    getD_mapIdx f stations (h.stations8 ▸ hn) _
  have hcount : ∀ k, (stations.mapIdx f).countP (·.holds k) = stations.countP (·.holds k) := by
    intro k
    have : ∀ (l : List Station) (f : Nat → Station → Station), (∀ n st, (f n st).holds k = st.holds k) →
        (l.mapIdx f).countP (·.holds k) = l.countP (·.holds k) := by
      intro l
      induction l with
      | nil => simp
      | cons st l ih =>
        intro f hf
        rw [List.mapIdx_cons, List.countP_cons, List.countP_cons, ih _ (fun n st => hf (n + 1) st), hf]
    exact this stations f fun n st => hholds n st k
  have hex : ∀ {n : Nat}, (∃ r ∈ fonts, r.number = n) → ∃ r ∈ fonts.map g, r.number = n :=
    (exists_number_map fun r hr => (hg r hr).1).2
  exact
    { few := by simpa using h.few
      numbers := by rw [map_map_of_eq fun r hr => (hg r hr).1]; exact h.numbers
      masters := by rw [map_map_of_eq fun r hr => (hg r hr).2.1]; exact h.masters
      jobs4 := hjobs
      stations8 := by simpa using h.stations8
      stationRefs := List.forall_mem_map.2 fun r hr => by rw [(hg r hr).2.2, (hg r hr).1, hcount]; exact h.stationRefs r hr
      entryRefs := List.forall_mem_map.2 fun r hr => by rw [(hg r hr).1]; exact hentry r hr
      lineRefs := List.forall_mem_map.2 fun r hr => by rw [(hg r hr).1]; exact hline r hr
      entryFonts := fun e he n hn => hex (hentryFonts e he n hn)
      lineFonts := fun j hj n hn => hex (hlineFonts j hj n hn)
      bound := forall_mem_mapIdx fun n st hst => by rw [hfont, hbound]; exact h.bound st hst
      binding := forall_mem_mapIdx fun n st hst k hk => by
        obtain ⟨r, hr, hnum, hmas⟩ := h.binding st hst k (by rwa [← hfont n st])
        exact ⟨g r, List.mem_map_of_mem hr, (hg r hr).1.trans hnum, by rw [(hg r hr).2.1, hcode, hmas]⟩
      claims := fun n hn => by rw [hget n hn]; exact hclaims n hn
      pins := fun n hn => by rw [hget n hn]; exact hpins n hn
      used := fun n hn => by rw [hget n hn, hbound]; exact hused n hn
      lines := hlines
      room := hroom
      serials := hserials }

/-- A station changes its binding, and a record's station part follows it (R8, R11). -/
theorem LedgerOk.rebind (h : LedgerOk fonts stations jobs entries) {n : Nat} (hn : n < 8) {g : FontRecord → FontRecord}
    {f : Station → Station} (st : Station) (hst : stations.getD n Station.powerOn = st)
    (hg : ∀ r ∈ fonts, (g r).number = r.number ∧ (g r).master = r.master ∧ (g r).entryPart = r.entryPart ∧
      (g r).linePart = r.linePart)
    (hrefs : ∀ r ∈ fonts, (g r).stationPart + (st.holds r.number).toNat = r.stationPart + ((f st).holds r.number).toNat)
    (hclaims : (f st).claims = st.claims) (hpins : (f st).pins = st.pins)
    (hbound : (f st).font.isSome = (f st).bound)
    (hbinding : ∀ k, (f st).font = some k → ∃ r ∈ fonts, r.number = k ∧ r.master = (f st).code)
    (hused : st.bound = true → 0 < st.claims ∨ 0 < st.pins → (f st).bound = true) :
    LedgerOk (fonts.map g) (stations.modify n f) jobs entries := by
  have hlen : n < stations.length := h.stations8 ▸ hn
  have hex : ∀ {n : Nat}, (∃ r ∈ fonts, r.number = n) → ∃ r ∈ fonts.map g, r.number = n :=
    (exists_number_map fun r hr => (hg r hr).1).2
  have hbind : ∀ {k c : Nat}, (∃ r ∈ fonts, r.number = k ∧ r.master = c) → ∃ r ∈ fonts.map g, r.number = k ∧ r.master = c := by
    rintro k c ⟨r, hr, h1, h2⟩
    exact ⟨g r, List.mem_map_of_mem hr, (hg r hr).1.trans h1, (hg r hr).2.1.trans h2⟩
  have hget : ∀ {P : Station → Prop} {m : Nat}, (m = n → P (f st)) → (m ≠ n → P (stations.getD m Station.powerOn)) →
      P ((stations.modify n f).getD m Station.powerOn) := by
    intro P m h1 h2
    by_cases hm : m = n
    · subst hm; rw [getD_modify_self f hlen, hst]; exact h1 rfl
    · rw [getD_modify_ne f stations (Ne.symm hm)]; exact h2 hm
  exact
    { few := by simpa using h.few
      numbers := by rw [map_map_of_eq fun r hr => (hg r hr).1]; exact h.numbers
      masters := by rw [map_map_of_eq fun r hr => (hg r hr).2.1]; exact h.masters
      jobs4 := h.jobs4
      stations8 := by simpa using h.stations8
      stationRefs := List.forall_mem_map.2 fun r hr => by
        have := countP_modify_add (·.holds r.number) f Station.powerOn hlen
        rw [hst] at this
        have h1 := hrefs r hr
        have h2 := h.stationRefs r hr
        rw [(hg r hr).1]
        omega
      entryRefs := List.forall_mem_map.2 fun r hr => by rw [(hg r hr).1, (hg r hr).2.2.1]; exact h.entryRefs r hr
      lineRefs := List.forall_mem_map.2 fun r hr => by rw [(hg r hr).1, (hg r hr).2.2.2]; exact h.lineRefs r hr
      entryFonts := fun e he n hn => hex (h.entryFonts e he n hn)
      lineFonts := fun j hj n hn => hex (h.lineFonts j hj n hn)
      bound := forall_mem_modify Station.powerOn h.bound fun _ => by rw [hst]; exact hbound
      binding := forall_mem_modify Station.powerOn (fun st hst k hk => hbind (h.binding st hst k hk))
        fun _ => by rw [hst]; exact fun k hk => hbind (hbinding k hk)
      claims := fun m hm => hget (P := fun st => st.claims = _) (fun e => by rw [hclaims, ← hst, ← e]; exact h.claims m hm)
        fun _ => h.claims m hm
      pins := fun m hm => hget (P := fun st => st.pins = _) (fun e => by rw [hpins, ← hst, ← e]; exact h.pins m hm)
        fun _ => h.pins m hm
      used := fun m hm => hget (P := fun st => 0 < st.claims ∨ 0 < st.pins → st.bound = true)
        (fun e => by
          rw [hclaims, hpins]
          exact fun hu => hused (hst ▸ e ▸ h.used m hm (by rw [e, hst]; exact hu)) hu)
        fun _ => h.used m hm
      lines := h.lines
      room := h.room
      serials := h.serials }

/-- A job changes in nothing that its line holds. -/
theorem LedgerOk.onJob (h : LedgerOk fonts stations jobs entries) (n : Nat) (f : Job → Job)
    (hfonts : n < 4 → (f (jobs.getD n Job.free)).line.fonts = (jobs.getD n Job.free).line.fonts)
    (hstations : n < 4 → (f (jobs.getD n Job.free)).line.stations = (jobs.getD n Job.free).line.stations)
    (hline : n < 4 → (jobs.getD n Job.free).lineOk → (f (jobs.getD n Job.free)).lineOk) :
    LedgerOk fonts stations (jobs.modify n f) entries := by
  by_cases hn : n < 4
  · have hlen : n < jobs.length := h.jobs4 ▸ hn
    have hcount : ∀ p : Job → Bool, p (f (jobs.getD n Job.free)) = p (jobs.getD n Job.free) →
        (jobs.modify n f).countP p = jobs.countP p := by
      intro p hp
      have := countP_modify_add p f Job.free hlen
      rw [hp] at this
      omega
    exact
      { h with
        jobs4 := by simpa using h.jobs4
        lineRefs := fun r hr => by rw [hcount _ (by rw [hfonts hn])]; exact h.lineRefs r hr
        lineFonts := forall_mem_modify Job.free h.lineFonts fun _ => by
          rw [hfonts hn]; exact h.lineFonts _ (getD_mem hlen _)
        claims := fun m hm => by rw [hcount _ (by rw [hstations hn])]; exact h.claims m hm
        lines := forall_mem_modify Job.free h.lines fun _ => hline hn (h.lines _ (getD_mem hlen _)) }
  · have : jobs.modify n f = jobs := List.modify_eq_self (by have := h.jobs4; omega)
    rwa [this]

end

end Sys2Proof.Machine
end

section
/-! HoldersOk under the operations that leave the ledger alone, and under those that change a job but not what its line holds. -/

namespace Sys2Proof.Machine

open Sys2Proof

/-! ### Frames -/

/-- TurretOk speaks of the turret alone, and of the pins and claims of a DRAINING station alone. -/
theorem TurretOk.of_counts {s t : State} (h : TurretOk s)
    (hpos : t.turret.position = s.turret.position) (hmot : t.turret.motion = s.turret.motion)
    (hpass : t.turret.pass = s.turret.pass) (hex : t.turret.exchange = s.turret.exchange)
    (hread : t.turret.read = s.turret.read)
    (hstate : ∀ n, n < 8 → (t.station n).state = (s.station n).state)
    (hprior : ∀ n, n < 8 → (t.station n).prior = (s.station n).prior)
    (hfree : ∀ n, n < 8 → (s.station n).state = .draining → (s.station n).pins = 0 → (s.station n).claims = 0 →
      (t.station n).pins = 0 ∧ (t.station n).claims = 0) : TurretOk t := by
  obtain ⟨hexch, hopen, hprio, hrd, hrot, hpassok⟩ := h
  have hatch : t.turret.hatchStation = s.turret.hatchStation := by simp only [Turret.hatchStation, hpos]
  have h8 : s.turret.hatchStation < 8 := by simp only [Turret.hatchStation]; omega
  refine ⟨fun n hn => ?_, fun n hn => ?_, fun n hn => ?_, fun hr => ?_, fun target hm => ?_, ?_⟩
  · rw [hex] at hn
    have hlt := (hexch n hn).1
    rw [hstate n hlt, hmot, hpos]
    exact hexch n hn
  · rw [hstate n hn, hex]; exact hopen n hn
  · rw [hstate n hn, hprior n hn]; exact hprio n hn
  · rw [hatch, hstate _ h8]; exact hrd (hread ▸ hr)
  · obtain ⟨n, hn, hd, htar, hp, hc⟩ := hrot target (hmot ▸ hm)
    have hlt := (hexch n hn).1
    obtain ⟨hp', hc'⟩ := hfree n hlt hd hp hc
    exact ⟨n, hex.trans hn, (hstate n hlt).trans hd, htar, hp', hc'⟩
  · have hst : ∀ {p : StationState → Nat → Prop}, (∀ n, n < 8 → p (s.station n).state n) → ∀ n, n < 8 → p (t.station n).state n :=
      fun hp n hn => by rw [hstate n hn]; exact hp n hn
    simp only [PassOk, hpass, hex, hmot, hpos, hread] at hpassok ⊢
    split at hpassok
    · exact ⟨hst (p := fun st n => st = .verifying → s.turret.exchange = some n) hpassok.1, hpassok.2⟩
    · exact ⟨hpassok.1, hpassok.2.1, hpassok.2.2.1, hst (p := fun st _ => st = .verifying) hpassok.2.2.2⟩
    · exact ⟨hpassok.1, hpassok.2.1, hpassok.2.2.1, hst (p := fun st _ => st = .verifying) hpassok.2.2.2⟩
    · exact ⟨hpassok.1, hpassok.2.1, hpassok.2.2.1, hpassok.2.2.2.1,
        hst (p := fun st n => st = .verifying ↔ aheadOf _ n) hpassok.2.2.2.2⟩
    · exact ⟨hpassok.1, hpassok.2.1, hpassok.2.2.1, hpassok.2.2.2.1,
        hst (p := fun st n => st = .verifying ↔ aheadOf _ n) hpassok.2.2.2.2⟩

theorem TurretOk.of_turret {s t : State} (h : TurretOk s) (ht : t.turret = s.turret) : TurretOk t := by
  have hst : ∀ n, t.station n = s.station n := fun n => by rw [State.station, ht]; rfl
  exact h.of_counts (by rw [ht]) (by rw [ht]) (by rw [ht]) (by rw [ht]) (by rw [ht]) (fun n _ => by rw [hst])
    (fun n _ => by rw [hst]) fun n _ _ hp hc => by rw [hst]; exact ⟨hp, hc⟩

/-- HoldersOk speaks of six parts of the state. -/
theorem HoldersOk.of_frame {s t : State} (h : HoldersOk s) (hf : t.fonts = s.fonts) (ht : t.turret = s.turret)
    (hj : t.jobs = s.jobs) (he : t.engine = s.engine) (hq : t.queue.entries = s.queue.entries) (hx : t.expo = s.expo) :
    HoldersOk t := by
  obtain ⟨hl, hserve, hturret, hexpo, hfl⟩ := (holdersOk_iff s).1 h
  refine (holdersOk_iff t).2 ⟨?_, ?_, hturret.of_turret ht, ?_, ?_⟩
  · rw [State.LedgerOk, hf, ht, hj, hq]; exact hl
  · rw [he]; exact hserve
  · rw [ExpoOk, hx]; exact hexpo
  · rw [hx, hq]; exact hfl

section
variable {s : State}

theorem HoldersOk.raiseIf (h : HoldersOk s) (b : Bool) (n : Notice) : HoldersOk (s.raiseIf b n) := by
  cases b <;> exact h

theorem HoldersOk.onEngine (h : HoldersOk s) (f : Engine → Engine) (hf : ∀ n ∈ (f s.engine).serving, n < 4) :
    HoldersOk (s.onEngine f) := by
  obtain ⟨hl, -, hturret, hfl⟩ := (holdersOk_iff s).1 h
  exact (holdersOk_iff _).2 ⟨hl, hf, hturret, hfl⟩

/-! ### Jobs -/

/-- A job changes in nothing that its line holds. -/
theorem HoldersOk.onJob (h : HoldersOk s) (n : Nat) (f : Job → Job)
    (hfonts : n < 4 → (f (s.job n)).line.fonts = (s.job n).line.fonts)
    (hstations : n < 4 → (f (s.job n)).line.stations = (s.job n).line.stations)
    (hline : n < 4 → (s.job n).lineOk → (f (s.job n)).lineOk) : HoldersOk (s.onJob n f) := by
  obtain ⟨hl, hserve, hturret, hfl⟩ := (holdersOk_iff s).1 h
  exact (holdersOk_iff _).2 ⟨hl.onJob n f hfonts hstations hline, hserve, hturret, hfl⟩

theorem HoldersOk.lineOk (h : HoldersOk s) (n : Nat) : (s.job n).lineOk := by
  obtain ⟨hl, -⟩ := (holdersOk_iff s).1 h
  by_cases hn : n < s.jobs.length
  · exact hl.lines _ (getD_mem hn _)
  · rw [State.job, List.getD_eq_default _ _ (by omega)]
    simp [Job.lineOk, Job.free, LineInProgress.empty]

theorem HoldersOk.setStatus (h : HoldersOk s) (n : Nat) (c : CompStatus) : HoldersOk (s.setStatus n c) := by
  have hj : HoldersOk (s.onJob n fun j => { j with status := c }) := h.onJob n _ (fun _ => rfl) (fun _ => rfl) fun _ h => h
  unfold State.setStatus
  cases c
  case stalled => exact hj.raiseIf _ _
  all_goals exact hj

theorem HoldersOk.reask (h : HoldersOk s) (n : Nat) : HoldersOk (s.reask n) := by
  simp only [State.reask]
  split
  · split <;> exact h.setStatus _ _
  · exact h

theorem foldl_invariant {α β : Type} {P : α → Prop} {f : α → β → α} (h : ∀ s b, P s → P (f s b)) {s : α} (hs : P s)
    (l : List β) : P (l.foldl f s) := by
  induction l generalizing s with
  | nil => exact hs
  | cons b l ih => exact ih (h s b hs)

theorem HoldersOk.reaskAll (h : HoldersOk s) : HoldersOk s.reaskAll := foldl_invariant (fun _ n h => h.reask n) h _

theorem HoldersOk.restatus (h : HoldersOk s) (n : Nat) : HoldersOk (s.restatus n) := by
  simp only [State.restatus]
  (repeat' split) <;> first | exact h | exact h.setStatus _ _

theorem HoldersOk.finishComposition (h : HoldersOk s) (n : Nat) : HoldersOk (s.finishComposition n) := by
  simp only [State.finishComposition]
  split
  · next hc =>
    simp only [Bool.and_eq_true, beq_iff_eq, List.isEmpty_iff] at hc
    refine h.onJob n _ (fun _ => rfl) (fun _ => rfl) fun _ ⟨hheld, hpar, hst, hfree, _⟩ => ?_
    exact ⟨hheld, hpar, hst, hfree, fun _ => ⟨hc.1.1.1, hc.1.2, hc.2⟩⟩
  · exact h

theorem HoldersOk.endTurn (h : HoldersOk s) (n : Nat) : HoldersOk (s.endTurn n) :=
  (h.onEngine (fun _ => { serving := none, pointer := (n + 1) % 4 }) (by simp)).restatus n

theorem HoldersOk.afterStep (h : HoldersOk s) (n : Nat) : HoldersOk (s.afterStep n) := by
  simp only [State.afterStep]
  split
  · exact (h.finishComposition n).endTurn n
  · exact h.finishComposition n

/-- What a step of a turn leaves of a job: its glyphs, its held item and its state. -/
def Job.sameHold (j k : Job) : Prop :=
  k.line.glyphs = j.line.glyphs ∧ k.line.params = j.line.params ∧ k.line.held = j.line.held ∧ k.state = j.state ∧
  k.finished = j.finished

theorem Job.sameHold.trans {a b c : Job} (h : a.sameHold b) (h' : b.sameHold c) : a.sameHold c := by
  obtain ⟨h1, h2, h3, h4, h5⟩ := h
  obtain ⟨k1, k2, k3, k4, k5⟩ := h'
  exact ⟨k1.trans h1, k2.trans h2, k3.trans h3, k4.trans h4, k5.trans h5⟩

theorem Job.sameHold.lineOk {j k : Job} (h : j.sameHold k) (hf : j.finished = false) (hj : j.lineOk) : k.lineOk := by
  obtain ⟨hg, hp, hh, hs, hfin⟩ := h
  obtain ⟨hheld, hpar, hst, hfree, -⟩ := hj
  simp only [Job.lineOk, hg, hp, hh, hs, hfin, hf]
  exact ⟨hheld, hpar, hst, hfree, by simp⟩

/-- A change of a job not finished that leaves its glyphs and its held item. -/
theorem HoldersOk.onJob_sameHold (h : HoldersOk s) (n : Nat) (f : Job → Job) (hf : (s.job n).finished = false)
    (hs : (s.job n).sameHold (f (s.job n))) : HoldersOk (s.onJob n f) := by
  refine h.onJob n f (fun _ => ?_) (fun _ => ?_) fun _ => hs.lineOk hf
  · simp only [LineInProgress.fonts, hs.1, hs.2.2.1]
  · simp only [LineInProgress.stations, hs.1, hs.2.2.1]

end

end Sys2Proof.Machine
end

section
/-! The ledger under the operations that move references, claims and pins: a line that gains or loses glyphs, an append, a release and
a report of exposure done. -/

namespace Sys2Proof.Machine

open Sys2Proof

theorem toNat_contains_pos {l : List Nat} {n : Nat} : 0 < (l.contains n).toNat ↔ n ∈ l := by
  by_cases h : n ∈ l <;> simp [h]

theorem toNat_contains_eq_zero {l : List Nat} {n : Nat} : (l.contains n).toNat = 0 ↔ n ∉ l := by
  by_cases h : n ∈ l <;> simp [h]

theorem toNat_contains_of_mem {l : List Nat} {n : Nat} (h : n ∈ l) : (l.contains n).toNat = 1 := by
  simp [h]

/-! ### Counts over the entries -/

theorem countP_without {l : List Entry} (hnd : (l.map (·.serial)).Nodup) {e : Entry} (he : e ∈ l) (p : Entry → Bool) :
    (l.filter fun x => decide (x.serial ≠ e.serial)).countP p + (p e).toNat = l.countP p := by
  induction l with
  | nil => simp at he
  | cons x l ih =>
    obtain ⟨hx, hnd⟩ := List.nodup_cons.1 hnd
    rcases List.mem_cons.1 he with rfl | he'
    · have : l.filter (fun x => decide (x.serial ≠ e.serial)) = l :=
        List.filter_eq_self.2 fun y hy => by
          have : y.serial ≠ e.serial := fun h => hx (List.mem_map.2 ⟨_, hy, h⟩)
          simpa using this
      rw [List.filter_cons_of_neg (by simp), this, List.countP_cons]
      cases p e <;> simp
    · have hne : x.serial ≠ e.serial := fun h => hx (List.mem_map.2 ⟨_, he', h.symm⟩)
      rw [List.filter_cons_of_pos (by simpa using hne), List.countP_cons, List.countP_cons, ← ih hnd he']
      omega

theorem countP_modifyEntry {l : List Entry} (hnd : (l.map (·.serial)).Nodup) {e : Entry} (he : e ∈ l) (f : Entry → Entry)
    (p : Entry → Bool) :
    (l.map fun x => if x.serial = e.serial then f x else x).countP p + (p e).toNat = l.countP p + (p (f e)).toNat := by
  induction l with
  | nil => simp at he
  | cons x l ih =>
    obtain ⟨hx, hnd⟩ := List.nodup_cons.1 hnd
    rcases List.mem_cons.1 he with rfl | he'
    · have : l.map (fun x => if x.serial = e.serial then f x else x) = l := by
        conv_rhs => rw [← List.map_id l]
        refine List.map_congr_left fun y hy => ?_
        have : y.serial ≠ e.serial := fun h => hx (List.mem_map.2 ⟨_, hy, h⟩)
        simp [this]
      rw [List.map_cons, if_pos rfl, this, List.countP_cons, List.countP_cons]
      cases p e <;> cases p (f e) <;> simp
    · have hne : x.serial ≠ e.serial := fun h => hx (List.mem_map.2 ⟨_, he', h.symm⟩)
      have := ih hnd he'
      rw [List.map_cons, if_neg hne, List.countP_cons, List.countP_cons]
      omega

section
variable {fonts : List FontRecord} {stations : List Station} {jobs : List Job} {entries : List Entry}

/-- A line gains or loses glyphs: its references and claims follow. -/
theorem LedgerOk.relines (h : LedgerOk fonts stations jobs entries) {slot : Nat} (hslot : slot < 4) {k : Job → Job}
    {g : FontRecord → FontRecord} {f : Nat → Station → Station} {j : Job} (hj : jobs.getD slot Job.free = j)
    (hg : ∀ r ∈ fonts, (g r).number = r.number ∧ (g r).master = r.master ∧ (g r).stationPart = r.stationPart ∧
      (g r).entryPart = r.entryPart)
    (hf : ∀ n st, (f n st).state = st.state ∧ (f n st).code = st.code ∧ (f n st).font = st.font ∧ (f n st).prior = st.prior ∧
      (f n st).pins = st.pins)
    (href : ∀ r ∈ fonts, (g r).linePart + (j.line.fonts.contains r.number).toNat =
      r.linePart + ((k j).line.fonts.contains r.number).toNat)
    (hclaim : ∀ n, n < 8 → (f n (stations.getD n Station.powerOn)).claims + (j.line.stations.contains n).toNat =
      (stations.getD n Station.powerOn).claims + ((k j).line.stations.contains n).toNat)
    (hnew : ∀ n ∈ (k j).line.fonts, ∃ r ∈ fonts, r.number = n)
    (hused : ∀ n, n < 8 → n ∈ (k j).line.stations → n ∈ j.line.stations ∨ (stations.getD n Station.powerOn).bound = true)
    (hline : (k j).lineOk) :
    LedgerOk (fonts.map g) (stations.mapIdx f) (jobs.modify slot k) entries := by
  have hlen : slot < jobs.length := h.jobs4 ▸ hslot
  have hmem : j ∈ jobs := hj ▸ getD_mem hlen _
  have hcount : ∀ p : Job → Bool, (jobs.modify slot k).countP p + (p j).toNat = jobs.countP p + (p (k j)).toNat := by
    intro p; rw [← hj]; exact countP_modify_add p k Job.free hlen
  refine h.move (fun r hr => ?_) (fun n st => ?_) (by simpa using h.jobs4)
    (forall_mem_modify Job.free h.lines fun _ => by rw [hj]; exact hline) h.room h.serials (fun r hr => ?_) (fun r hr => ?_)
    h.entryFonts (forall_mem_modify Job.free h.lineFonts fun _ => by rw [hj]; exact hnew) (fun n hn => ?_) (fun n hn => ?_)
    fun n hn hpos => ?_
  · obtain ⟨h1, h2, h3, -⟩ := hg r hr; exact ⟨h1, h2, h3⟩
  · obtain ⟨h1, h2, h3, h4, -⟩ := hf n st; exact ⟨h1, h2, h3, h4⟩
  · rw [(hg r hr).2.2.2]; exact h.entryRefs r hr
  · have h1 := href r hr
    have h2 := h.lineRefs r hr
    have h3 := hcount fun j => j.line.fonts.contains r.number
    omega
  · have h1 := hclaim n hn
    have h2 := h.claims n hn
    have h3 := hcount fun j => j.line.stations.contains n
    omega
  · rw [(hf n _).2.2.2.2]; exact h.pins n hn
  · rw [(hf n _).2.2.2.2] at hpos
    have hclaims : n ∈ j.line.stations → (stations.getD n Station.powerOn).bound = true := fun hm =>
      h.used n hn (Or.inl (by
        rw [h.claims n hn]
        have := countP_toNat_le (p := fun j : Job => j.line.stations.contains n) hmem
        rw [toNat_contains_of_mem hm] at this
        exact this))
    rcases hpos with hpos | hpos
    · by_cases hm : n ∈ (k j).line.stations
      · exact (hused n hn hm).elim hclaims id
      · have h1 := hclaim n hn
        rw [toNat_contains_eq_zero.2 hm] at h1
        exact h.used n hn (Or.inl (by omega))
    · exact h.used n hn (Or.inr hpos)

/-- An entry joins the tail with the references and claims that a line gives up (R10, R24, R25). -/
theorem LedgerOk.append (h : LedgerOk fonts stations jobs entries) {slot : Nat} (hslot : slot < 4) {k : Job → Job} {j : Job}
    (hj : jobs.getD slot Job.free = j) {e : Entry}
    (hfonts : ∀ n, (j.line.fonts.contains n).toNat = (e.body.fonts.contains n).toNat + ((k j).line.fonts.contains n).toNat)
    (hstations : ∀ n, (j.line.stations.contains n).toNat =
      (e.body.stations.contains n).toNat + ((k j).line.stations.contains n).toNat)
    (hexpo : e.expo = .done → e.body.stations = []) (hline : (k j).lineOk) (hroom : entries.length + 1 ≤ 64)
    (hserial : ∀ x ∈ entries, x.serial ≠ e.serial) :
    LedgerOk
      (fonts.map fun r =>
        if r.number ∈ e.body.fonts then { r with linePart := r.linePart - 1, entryPart := r.entryPart + 1 } else r)
      (stations.mapIdx fun n st =>
        if n ∈ e.body.stations then { st with claims := st.claims - 1, pins := st.pins + 1 } else st)
      (jobs.modify slot k) (entries ++ [e]) := by
  have hlen : slot < jobs.length := h.jobs4 ▸ hslot
  have hmem : j ∈ jobs := hj ▸ getD_mem hlen _
  have hcount : ∀ p : Job → Bool, (jobs.modify slot k).countP p + (p j).toNat = jobs.countP p + (p (k j)).toNat := by
    intro p; rw [← hj]; exact countP_modify_add p k Job.free hlen
  have happ : ∀ p : Entry → Bool, (entries ++ [e]).countP p = entries.countP p + (p e).toNat := by
    intro p; cases hp : p e <;> simp [hp]
  have hpin : ∀ n, (e.expo != .done && e.body.stations.contains n).toNat = (e.body.stations.contains n).toNat := by
    intro n
    by_cases hd : e.expo = .done
    · simp [hexpo hd]
    · rw [bne_iff_ne.2 hd, Bool.true_and]
  have hsub : ∀ n, n ∈ e.body.fonts ∨ n ∈ (k j).line.fonts → n ∈ j.line.fonts := by
    intro n hn
    refine toNat_contains_pos.1 ?_
    rw [hfonts n]
    rcases hn with hn | hn <;> rw [toNat_contains_of_mem hn] <;> omega
  refine h.move (fun r hr => ?_) (fun n st => ?_) (by simpa using h.jobs4)
    (forall_mem_modify Job.free h.lines fun _ => by rw [hj]; exact hline) (by simpa using hroom) ?_ (fun r hr => ?_)
    (fun r hr => ?_) (fun x hx n hn => ?_)
    (forall_mem_modify Job.free h.lineFonts fun _ => by
      rw [hj]; exact fun n hn => h.lineFonts j hmem n (hsub n (Or.inr hn)))
    (fun n hn => ?_) (fun n hn => ?_) fun n hn hpos => ?_
  · split <;> exact ⟨rfl, rfl, rfl⟩
  · split <;> exact ⟨rfl, rfl, rfl, rfl⟩
  · rw [List.map_append, List.nodup_append]
    refine ⟨h.serials, by simp, fun a ha b hb => ?_⟩
    obtain ⟨x, hx, rfl⟩ := List.mem_map.1 ha
    obtain rfl : b = e.serial := by simpa using hb
    exact hserial x hx
  · rw [happ]
    have h1 := h.entryRefs r hr
    split
    · next hm => rw [toNat_contains_of_mem hm]; simpa using h1
    · next hm => rw [toNat_contains_eq_zero.2 hm]; simpa using h1
  · have h1 := h.lineRefs r hr
    have h2 := hcount fun j => j.line.fonts.contains r.number
    have h3 := hfonts r.number
    split
    · next hm => rw [toNat_contains_of_mem hm] at h3; simp only; omega
    · next hm => rw [toNat_contains_eq_zero.2 hm] at h3; omega
  · rcases List.mem_append.1 hx with hx | hx
    · exact h.entryFonts x hx n hn
    · obtain rfl : x = e := by simpa using hx
      exact h.lineFonts j hmem n (hsub n (Or.inl hn))
  · have h1 := h.claims n hn
    have h2 := hcount fun j => j.line.stations.contains n
    have h3 := hstations n
    split
    · next hm => rw [toNat_contains_of_mem hm] at h3; simp only; omega
    · next hm => rw [toNat_contains_eq_zero.2 hm] at h3; omega
  · rw [happ, hpin]
    have h1 := h.pins n hn
    split
    · next hm => rw [toNat_contains_of_mem hm]; simpa using h1
    · next hm => rw [toNat_contains_eq_zero.2 hm]; simpa using h1
  · by_cases hm : n ∈ e.body.stations
    · refine h.used n hn (Or.inl ?_)
      rw [h.claims n hn]
      have h1 := countP_toNat_le (p := fun j : Job => j.line.stations.contains n) hmem
      have h2 := hstations n
      rw [toNat_contains_of_mem hm] at h2
      omega
    · rw [if_neg hm] at hpos
      exact h.used n hn hpos

/-- An entry leaves with its references, and with its pins where its exposure is not done (R10, R25). -/
theorem LedgerOk.without (h : LedgerOk fonts stations jobs entries) {e : Entry} (he : e ∈ entries) {l : List Nat}
    (hl : ∀ n, n ∈ l ↔ e.expo ≠ .done ∧ n ∈ e.body.stations) :
    LedgerOk (fonts.map fun r => if r.number ∈ e.body.fonts then { r with entryPart := r.entryPart - 1 } else r)
      (stations.mapIdx fun n st => if n ∈ l then { st with pins := st.pins - 1 } else st) jobs
      (entries.filter fun x => decide (x.serial ≠ e.serial)) := by
  have hcount := fun p => countP_without h.serials he p
  refine h.move (fun r hr => ?_) (fun n st => ?_) h.jobs4 h.lines ((List.length_filter_le _ _).trans h.room)
    (h.serials.sublist (List.filter_sublist.map _)) (fun r hr => ?_) (fun r hr => ?_)
    (fun x hx => h.entryFonts x (List.mem_of_mem_filter hx)) h.lineFonts (fun n hn => ?_) (fun n hn => ?_) fun n hn hpos => ?_
  · split <;> exact ⟨rfl, rfl, rfl⟩
  · split <;> exact ⟨rfl, rfl, rfl, rfl⟩
  · have h1 := h.entryRefs r hr
    have h2 := hcount fun e => e.body.fonts.contains r.number
    split
    · next hm => rw [toNat_contains_of_mem hm] at h2; simp only; omega
    · next hm => rw [toNat_contains_eq_zero.2 hm] at h2; omega
  · rw [← h.lineRefs r hr]; split <;> rfl
  · rw [← h.claims n hn]; split <;> rfl
  · have h1 := h.pins n hn
    have h2 := hcount fun e => e.expo != .done && e.body.stations.contains n
    have h3 : (e.expo != .done && e.body.stations.contains n) = decide (n ∈ l) := by
      rw [Bool.eq_iff_iff, decide_eq_true_eq, hl, Bool.and_eq_true, bne_iff_ne, List.contains_iff_mem]
    rw [h3] at h2
    split
    · next hm => rw [decide_eq_true hm] at h2; simp only [Bool.toNat_true] at h2 ⊢; omega
    · next hm => rw [decide_eq_false hm] at h2; simp only [Bool.toNat_false] at h2; omega
  · split at hpos
    · exact h.used n hn (hpos.imp id fun h => Nat.lt_of_lt_of_le h (Nat.sub_le _ _))
    · exact h.used n hn hpos

/-- An entry's exposure progress changes, and with DONE its pins are removed (R25, R136). -/
theorem LedgerOk.modifyEntry (h : LedgerOk fonts stations jobs entries) {e : Entry} (he : e ∈ entries) {m : Entry → Entry}
    (hserial : ∀ x, (m x).serial = x.serial) (hfonts : ∀ x, (m x).body.fonts = x.body.fonts)
    (hstations : ∀ x, (m x).body.stations = x.body.stations) {l : List Nat}
    (hl : ∀ n, (decide (n ∈ l)).toNat + ((m e).expo != .done && e.body.stations.contains n).toNat =
      (e.expo != .done && e.body.stations.contains n).toNat) :
    LedgerOk fonts (stations.mapIdx fun n st => if n ∈ l then { st with pins := st.pins - 1 } else st) jobs
      (entries.map fun x => if x.serial = e.serial then m x else x) := by
  have hcount := fun p => countP_modifyEntry h.serials he m p
  have hser : (entries.map fun x => if x.serial = e.serial then m x else x).map (·.serial) = entries.map (·.serial) :=
    map_map_of_eq fun x _ => by split <;> simp [hserial]
  have hmove := h.move (g := id) (f := fun n st => if n ∈ l then { st with pins := st.pins - 1 } else st)
    (jobs' := jobs) (entries' := entries.map fun x => if x.serial = e.serial then m x else x)
    (fun r hr => ⟨rfl, rfl, rfl⟩) (fun n st => by split <;> exact ⟨rfl, rfl, rfl, rfl⟩) h.jobs4 h.lines (by simpa using h.room)
    (by rw [hser]; exact h.serials)
    (fun r hr => ?_) h.lineRefs (List.forall_mem_map.2 fun x hx => ?_) h.lineFonts (fun n hn => ?_) (fun n hn => ?_)
    fun n hn hpos => ?_
  · rwa [List.map_id] at hmove
  · have h1 := h.entryRefs r hr
    have h2 := hcount fun e => e.body.fonts.contains r.number
    rw [hfonts] at h2
    simp only [id]; omega
  · split
    · rw [hfonts]; exact h.entryFonts x hx
    · exact h.entryFonts x hx
  · rw [← h.claims n hn]; split <;> rfl
  · have h1 := h.pins n hn
    have h2 := hcount fun e => e.expo != .done && e.body.stations.contains n
    rw [hstations] at h2
    have h3 := hl n
    split
    · next hm => rw [decide_eq_true hm] at h3; simp only [Bool.toNat_true] at h3 ⊢; omega
    · next hm => rw [decide_eq_false hm] at h3; simp only [Bool.toNat_false] at h3; omega
  · split at hpos
    · exact h.used n hn (hpos.imp id fun h => Nat.lt_of_lt_of_le h (Nat.sub_le _ _))
    · exact h.used n hn hpos

end

end Sys2Proof.Machine
end

section
/-! HoldersOk under the operations on a line in progress: a glyph placed, glyphs that leave, the line discarded, held or appended. -/

namespace Sys2Proof.Machine

open Sys2Proof

section
variable {s : State}

/-- HoldersOk but for the entry in flight. -/
def StandingOk (s : State) : Prop := s.LedgerOk ∧ (∀ n ∈ s.engine.serving, n < 4) ∧ TurretOk s

theorem holdersOk_iff_standing (s : State) : HoldersOk s ↔ StandingOk s ∧ InFlightOk s := by
  rw [holdersOk_iff, StandingOk, and_assoc, and_assoc]

/-- Counts move, and no station changes its state. -/
theorem StandingOk.of_ledger (h : StandingOk s) {t : State} (hl : t.LedgerOk) (heng : t.engine = s.engine)
    {f : Nat → Station → Station} (hturret : t.turret = { s.turret with stations := s.turret.stations.mapIdx f })
    (hf : ∀ n st, (f n st).state = st.state ∧ (f n st).prior = st.prior)
    (hfree : ∀ n, n < 8 → (s.station n).pins = 0 → (s.station n).claims = 0 → (s.station n).state = .draining →
      (f n (s.station n)).pins = 0 ∧ (f n (s.station n)).claims = 0) : StandingOk t := by
  obtain ⟨hs, hserve, hturretOk⟩ := h
  have hst : ∀ n, n < 8 → t.station n = f n (s.station n) := fun n hn => by
    rw [State.station, hturret]; exact getD_mapIdx f _ (hs.stations8 ▸ hn) _
  refine ⟨hl, by rwa [heng], ?_⟩
  refine hturretOk.of_counts (by rw [hturret]) (by rw [hturret]) (by rw [hturret]) (by rw [hturret]) (by rw [hturret])
    (fun n hn => by rw [hst n hn, (hf n _).1]) (fun n hn => by rw [hst n hn, (hf n _).2]) fun n hn hd hp hc => ?_
  rw [hst n hn]; exact hfree n hn hp hc hd

/-- Counts move, no station changes its state, and the entry in flight stays. -/
theorem HoldersOk.of_ledger (h : HoldersOk s) {t : State} (hl : t.LedgerOk) (heng : t.engine = s.engine)
    {f : Nat → Station → Station} (hturret : t.turret = { s.turret with stations := s.turret.stations.mapIdx f })
    (hf : ∀ n st, (f n st).state = st.state ∧ (f n st).prior = st.prior)
    (hfree : ∀ n, n < 8 → (s.station n).pins = 0 → (s.station n).claims = 0 → (s.station n).state = .draining →
      (f n (s.station n)).pins = 0 ∧ (f n (s.station n)).claims = 0)
    (hexpo : t.expo = s.expo)
    (hflight : ∀ e ∈ s.queue.entries, e.expo = .inFlight → ∃ e' ∈ t.queue.entries, e'.serial = e.serial ∧ e'.expo = .inFlight) :
    HoldersOk t := by
  obtain ⟨hs, hx, hfl⟩ := (holdersOk_iff_standing s).1 h
  refine (holdersOk_iff_standing t).2 ⟨hs.of_ledger hl heng hturret hf hfree, by rwa [ExpoOk, hexpo], fun fl hfl' => ?_⟩
  obtain ⟨e, he, hser, hin⟩ := hfl fl (hexpo ▸ hfl')
  obtain ⟨e', he', hser', hin'⟩ := hflight e he hin
  exact ⟨e', he', hser'.trans hser, hin'⟩

/-- A line's claim is counted at its station (R24). -/
theorem HoldersOk.claimed (h : HoldersOk s) (slot : Nat) {n : Nat} (hn : n < 8) (hm : n ∈ (s.job slot).line.stations) :
    0 < (s.station n).claims := by
  obtain ⟨hl, -⟩ := (holdersOk_iff s).1 h
  by_cases hs : slot < s.jobs.length
  · have := countP_toNat_le (p := fun j : Job => j.line.stations.contains n) (getD_mem hs Job.free)
    have hc := hl.claims n hn
    rw [State.station, hc]
    rw [← State.job, toNat_contains_of_mem hm] at this
    exact this
  · rw [State.job, List.getD_eq_default _ _ (by omega)] at hm
    simp [Job.free, LineInProgress.empty, LineInProgress.stations, distinct] at hm

/-- The references and claims of a line follow its glyphs (R10, R24). -/
theorem HoldersOk.relines (h : HoldersOk s) {slot : Nat} (hslot : slot < 4) {k : Job → Job}
    {g : FontRecord → FontRecord} {f : Nat → Station → Station}
    (hg : ∀ r ∈ s.fonts, (g r).number = r.number ∧ (g r).master = r.master ∧ (g r).stationPart = r.stationPart ∧
      (g r).entryPart = r.entryPart)
    (hf : ∀ n st, (f n st).state = st.state ∧ (f n st).code = st.code ∧ (f n st).font = st.font ∧ (f n st).prior = st.prior ∧
      (f n st).pins = st.pins)
    (href : ∀ r ∈ s.fonts, (g r).linePart + ((s.job slot).line.fonts.contains r.number).toNat =
      r.linePart + ((k (s.job slot)).line.fonts.contains r.number).toNat)
    (hclaim : ∀ n, n < 8 → (f n (s.station n)).claims + ((s.job slot).line.stations.contains n).toNat =
      (s.station n).claims + ((k (s.job slot)).line.stations.contains n).toNat)
    (hnew : ∀ n ∈ (k (s.job slot)).line.fonts, ∃ r ∈ s.fonts, r.number = n)
    (hused : ∀ n, n < 8 → n ∈ (k (s.job slot)).line.stations →
      n ∈ (s.job slot).line.stations ∨ (s.station n).state = .mounted)
    (hline : (k (s.job slot)).lineOk) {t : State}
    (ht : t = { s with fonts := s.fonts.map g, jobs := s.jobs.modify slot k
                       turret := { s.turret with stations := s.turret.stations.mapIdx f } }) : HoldersOk t := by
  obtain ⟨hl, -⟩ := (holdersOk_iff s).1 h
  have hledger := hl.relines hslot (k := k) (g := g) (f := f) rfl hg hf href hclaim hnew
    (fun n hn hm => (hused n hn hm).imp id fun hst => by rw [← State.station, Station.bound, hst]; rfl) hline
  subst ht
  refine h.of_ledger hledger rfl rfl (fun n st => ⟨(hf n st).1, (hf n st).2.2.2.1⟩) (fun n hn hp hc hd => ?_) rfl
    fun e he hin => ⟨e, he, rfl, hin⟩
  refine ⟨by rw [(hf n _).2.2.2.2]; exact hp, ?_⟩
  have hold : n ∉ (s.job slot).line.stations := fun hm => absurd (h.claimed slot hn hm) (by omega)
  have hnot : n ∉ (k (s.job slot)).line.stations := fun hm => by
    rcases hused n hn hm with h1 | h1
    · exact hold h1
    · rw [hd] at h1; exact absurd h1 (by decide)
  have := hclaim n hn
  rw [toNat_contains_eq_zero.2 hold, toNat_contains_eq_zero.2 hnot] at this
  omega

/-! ### Glyphs that leave, and a line discarded or held -/

/-- A line gives up fonts and stations, with their references and claims (R10, R24). -/
theorem HoldersOk.dropLine (h : HoldersOk s) {slot : Nat} (hslot : slot < 4) (k : Job → Job) {fonts stations : List Nat}
    (hfonts : fonts.Nodup) (hstations : stations.Nodup)
    (hkeptFonts : ∀ n, n ∈ (s.job slot).line.fonts ↔ n ∈ fonts ∨ n ∈ (k (s.job slot)).line.fonts)
    (hkeptStations : ∀ n, n ∈ (s.job slot).line.stations ↔ n ∈ stations ∨ n ∈ (k (s.job slot)).line.stations)
    (hleftFonts : ∀ n ∈ fonts, n ∉ (k (s.job slot)).line.fonts)
    (hleftStations : ∀ n ∈ stations, n ∉ (k (s.job slot)).line.stations)
    (hline : (k (s.job slot)).lineOk) : HoldersOk (((s.dropLineRefs fonts).dropClaims stations).onJob slot k) := by
  obtain ⟨hl, -⟩ := (holdersOk_iff s).1 h
  have hlen : slot < s.jobs.length := hl.jobs4 ▸ hslot
  rw [dropLineRefs_eq hfonts, dropClaims_eq hstations]
  refine h.relines hslot (k := k) (fun r _ => ?_) (fun n st => ?_) (fun r hr => ?_) (fun n hn => ?_) (fun n hn => ?_)
    (fun n hn hm => Or.inl ((hkeptStations n).2 (Or.inr hm))) hline rfl
  · split <;> exact ⟨rfl, rfl, rfl, rfl⟩
  · split <;> exact ⟨rfl, rfl, rfl, rfl, rfl⟩
  · split
    · next hm =>
      have hold := (hkeptFonts r.number).2 (Or.inl hm)
      have hpos := countP_toNat_le (p := fun j : Job => j.line.fonts.contains r.number) (getD_mem hlen Job.free)
      have hr' := hl.lineRefs r hr
      rw [← State.job, toNat_contains_of_mem hold] at hpos
      rw [toNat_contains_of_mem hold, toNat_contains_eq_zero.2 (hleftFonts _ hm)]
      show r.linePart - 1 + 1 = _
      omega
    · next hm =>
      have : r.number ∈ (s.job slot).line.fonts ↔ r.number ∈ (k (s.job slot)).line.fonts := by simp [hkeptFonts, hm]
      rw [List.contains_eq_mem, List.contains_eq_mem, decide_eq_decide.2 this]
  · split
    · next hm =>
      have hold := (hkeptStations n).2 (Or.inl hm)
      have hpos := h.claimed slot hn hold
      rw [toNat_contains_of_mem hold, toNat_contains_eq_zero.2 (hleftStations _ hm)]
      show (s.station n).claims - 1 + 1 = _
      omega
    · next hm =>
      have : n ∈ (s.job slot).line.stations ↔ n ∈ (k (s.job slot)).line.stations := by simp [hkeptStations, hm]
      rw [List.contains_eq_mem, List.contains_eq_mem, decide_eq_decide.2 this]
  · exact hl.lineFonts _ (getD_mem hlen Job.free) n ((hkeptFonts n).2 (Or.inr hn))

@[simp] theorem LineInProgress.fonts_empty : LineInProgress.empty.fonts = [] := rfl
@[simp] theorem LineInProgress.stations_empty : LineInProgress.empty.stations = [] := rfl

/-- A line in progress is discarded whole (R88). -/
theorem HoldersOk.discardLine (h : HoldersOk s) {slot : Nat} (hslot : slot < 4) : HoldersOk (s.discardLine slot) := by
  obtain ⟨-, -, -, -, hfin⟩ := h.lineOk slot
  refine h.dropLine hslot (fun j => { j with line := LineInProgress.empty }) (s.job slot).line.fonts_nodup
    (s.job slot).line.stations_nodup (by simp) (by simp) (by simp) (by simp) ?_
  refine ⟨by simp [LineInProgress.empty], by simp [LineInProgress.empty], by simp [LineInProgress.empty],
    by simp [LineInProgress.empty], fun hf => ?_⟩
  obtain ⟨h1, h2, -⟩ := hfin hf
  exact ⟨h1, h2, rfl⟩

/-! ### Runs and glyphs -/

/-- What the glyphs of a line say of fonts and stations, and its runs say, is one (R71). -/
theorem mem_runsOf {gs : List Glyph} (hone : ∀ g ∈ gs, ∀ h ∈ gs, g.font = h.font → g.station = h.station) (x : Nat × Nat × Nat) :
    (∃ r ∈ runsOf gs, (r.station, r.font, r.size) = x) ↔ ∃ g ∈ gs, (g.station, g.font, g.size) = x := by
  obtain ⟨hpos, -, -, hflat⟩ := runsOf_spec gs
  have hmem : ∀ q ∈ gs.zip (gs.drop 1), q.1 ∈ gs ∧ q.2 ∈ gs := fun q hq =>
    ⟨(List.of_mem_zip hq).1, List.mem_of_mem_drop (List.of_mem_zip hq).2⟩
  have heq := hflat fun q hq hf _ => hone _ (hmem q hq).1 _ (hmem q hq).2 hf
  have : x ∈ ((runsOf gs).flatMap fun r => List.replicate r.count (r.station, r.font, r.size)) ↔
      x ∈ gs.map fun g => (g.station, g.font, g.size) := by rw [heq]
  simp only [List.mem_flatMap, List.mem_map, List.mem_replicate] at this
  rw [← this]
  constructor
  · rintro ⟨r, hr, rfl⟩; exact ⟨r, hr, (hpos r hr).ne', rfl⟩
  · rintro ⟨r, hr, -, rfl⟩; exact ⟨r, hr, rfl⟩

/-- The fonts and the stations of a line set are those of its glyphs (R85). -/
theorem Body.mem_fonts_line {gs : List Glyph} (hone : ∀ g ∈ gs, ∀ h ∈ gs, g.font = h.font → g.station = h.station)
    {l : LineBody} (hl : l.runs = runsOf gs) (n : Nat) :
    (n ∈ (Body.line l).fonts ↔ ∃ g ∈ gs, g.font = n) ∧ (n ∈ (Body.line l).stations ↔ ∃ g ∈ gs, g.station = n) := by
  have hmem := mem_runsOf hone
  simp only [Body.mem_fonts, Body.mem_stations, Body.runs, hl, List.mem_map]
  refine ⟨⟨?_, ?_⟩, ⟨?_, ?_⟩⟩
  · rintro ⟨r, hr, rfl⟩
    obtain ⟨g, hg, heq⟩ := (hmem _).1 ⟨r, hr, rfl⟩
    simp only [Prod.mk.injEq] at heq
    exact ⟨g, hg, heq.2.1⟩
  · rintro ⟨g, hg, rfl⟩
    obtain ⟨r, hr, heq⟩ := (hmem _).2 ⟨g, hg, rfl⟩
    simp only [Prod.mk.injEq] at heq
    exact ⟨r, hr, heq.2.1⟩
  · rintro ⟨r, hr, rfl⟩
    obtain ⟨g, hg, heq⟩ := (hmem _).1 ⟨r, hr, rfl⟩
    simp only [Prod.mk.injEq] at heq
    exact ⟨g, hg, heq.1⟩
  · rintro ⟨g, hg, rfl⟩
    obtain ⟨r, hr, heq⟩ := (hmem _).2 ⟨g, hg, rfl⟩
    simp only [Prod.mk.injEq] at heq
    exact ⟨r, hr, heq.1⟩

theorem LineInProgress.mem_fonts {l : LineInProgress} (h : l.held = none) (n : Nat) :
    n ∈ l.fonts ↔ ∃ g ∈ l.glyphs, g.font = n := by
  simp [LineInProgress.fonts, h]

theorem LineInProgress.mem_stations {l : LineInProgress} (h : l.held = none) (n : Nat) :
    n ∈ l.stations ↔ ∃ g ∈ l.glyphs, g.station = n := by
  simp [LineInProgress.stations, h]

/-! ### A glyph placed -/

/-- What a glyph placed makes of its job: the first opens the line (R71, R75). -/
def Job.place (code : Byte) (font size station : Nat) (j : Job) : Job :=
  { j with
    line :=
      { j.line with
        glyphs := j.line.glyphs ++
          [{ code := code, font := font, size := size, station := station, gap := j.line.gapDue && !j.line.glyphs.isEmpty }]
        gapDue := false
        params := if j.line.glyphs.isEmpty then some j.openLine else j.line.params }
    paragraphMark := if j.line.glyphs.isEmpty then false else j.paragraphMark }

/-- A glyph placed: the first of a font takes a reference, the first on a station a claim (R10, R24). -/
theorem placeGlyph_eq (s : State) {slot : Nat} (hslot : slot < s.jobs.length) (c : Byte) (f z n : Nat) :
    s.placeGlyph slot c f z n =
      ((s.onFonts (if (s.job slot).line.glyphs.any (·.font == f) then [] else [f])
          fun r => { r with linePart := r.linePart + 1 }).onStations
        (if (s.job slot).line.glyphs.any (·.station == n) then [] else [n])
          fun st => { st with claims := st.claims + 1 }).onJob slot (Job.place c f z n) := by
  have hfonts : (if (s.job slot).line.glyphs.any (·.font == f) then s
      else s.onFont f fun r => { r with linePart := r.linePart + 1 }) =
      s.onFonts (if (s.job slot).line.glyphs.any (·.font == f) then [] else [f])
        fun r => { r with linePart := r.linePart + 1 } := by
    rw [← foldl_onFont _ (by intro r; rfl) (by split <;> simp)]
    split <;> rfl
  have hstations : ∀ u : State, (if (s.job slot).line.glyphs.any (·.station == n) then u
      else u.onStation n fun st => { st with claims := st.claims + 1 }) =
      u.onStations (if (s.job slot).line.glyphs.any (·.station == n) then [] else [n])
        fun st => { st with claims := st.claims + 1 } := by
    intro u
    rw [← foldl_onStation _ (by split <;> simp)]
    split <;> rfl
  have hjob : ∀ u : State, u.jobs = s.jobs → u.job slot = s.job slot := fun u hu => by rw [State.job, hu]; rfl
  simp only [State.placeGlyph, hfonts, hstations]
  set u := (s.onFonts _ _).onStations _ _ with hu
  have huj : u.jobs = s.jobs := rfl
  have hmod : ∀ (a b : Job → Job), a (s.job slot) = b (s.job slot) → u.onJob slot a = u.onJob slot b := by
    intro a b hab
    simp only [State.onJob]
    congr 1
    refine List.ext_getElem? fun m => ?_
    simp only [List.getElem?_modify]
    by_cases hm : slot = m
    · subst hm
      have : u.jobs[slot]? = some (s.job slot) := by
        rw [huj, State.job, List.getD_eq_getElem?_getD, List.getElem?_eq_getElem hslot]; rfl
      simp [this, hab]
    · simp [hm]
  split
  · next he =>
    rw [State.onLine, State.onJob, State.onJob, List.modify_modify_eq]
    exact hmod _ _ (by simp [Job.place, he])
  · next he => exact hmod _ _ (by simp [Job.place, he])

end

end Sys2Proof.Machine
end

section
/-! The turret's answer for a font, and HoldersOk through the placing of a word. -/

namespace Sys2Proof.Machine

open Sys2Proof

/-! ### Stations by a test -/

theorem mem_stationsWhere {p : Station → Bool} {l : List Station} {n : Nat} :
    n ∈ stationsWhere p l ↔ ∃ h : n < l.length, p l[n] = true := by
  simp only [stationsWhere, List.mem_map, List.mem_filter, Prod.exists, List.mem_zipIdx_iff_getElem?, exists_eq_right]
  constructor
  · rintro ⟨st, hst, hp⟩
    obtain ⟨h, rfl⟩ := List.getElem?_eq_some_iff.1 hst
    exact ⟨h, hp⟩
  · rintro ⟨h, hp⟩
    exact ⟨l[n], List.getElem?_eq_getElem h, hp⟩

theorem stationsWhere_pairwise (p : Station → Bool) (l : List Station) : (stationsWhere p l).Pairwise (· < ·) := by
  have hsub : (stationsWhere p l).Sublist (l.zipIdx.map (·.2)) := List.filter_sublist.map _
  refine List.Pairwise.sublist hsub ?_
  rw [List.zipIdx_map_snd]
  exact List.pairwise_lt_range'

theorem stationsWhere_eq_nil {p : Station → Bool} {l : List Station} :
    stationsWhere p l = [] ↔ ∀ st ∈ l, p st = false := by
  rw [List.eq_nil_iff_forall_not_mem]
  simp only [mem_stationsWhere, not_exists, Bool.not_eq_true]
  exact (List.forall_mem_iff_forall_getElem (P := fun st => p st = false)).symm

theorem mem_stations_station {s : State} {n : Nat} {p : Station → Bool} :
    n ∈ stationsWhere p s.turret.stations ↔ n < s.turret.stations.length ∧ p (s.station n) = true := by
  rw [mem_stationsWhere]
  refine ⟨fun ⟨h, hp⟩ => ⟨h, ?_⟩, fun ⟨h, hp⟩ => ⟨h, ?_⟩⟩
  · rwa [State.station, List.getD_eq_getElem _ _ h]
  · rwa [State.station, List.getD_eq_getElem _ _ h] at hp

/-- The lowest-numbered MOUNTED station bound to the record answers (R23). -/
theorem askTurret_station {s : State} {r : FontRecord} {n : Nat} :
    s.askTurret r = .station n ↔ n < s.turret.stations.length ∧ ((s.station n).state = .mounted ∧ (s.station n).font = some r.number) ∧
      ∀ m, m < n → ¬((s.station m).state = .mounted ∧ (s.station m).font = some r.number) := by
  have hmem : ∀ m, m ∈ stationsWhere (fun st => st.state == .mounted && st.font == some r.number) s.turret.stations ↔
      m < s.turret.stations.length ∧ (s.station m).state = .mounted ∧ (s.station m).font = some r.number := by
    intro m; rw [mem_stations_station]; simp
  have hsort := stationsWhere_pairwise (fun st => st.state == .mounted && st.font == some r.number) s.turret.stations
  simp only [State.askTurret]
  cases hl : stationsWhere (fun st => st.state == .mounted && st.font == some r.number) s.turret.stations with
  | nil =>
    rw [hl] at hmem
    refine iff_of_false (by dsimp only; split <;> exact FontAnswer.noConfusion) fun h => ?_
    exact absurd ((hmem n).2 ⟨h.1, h.2.1⟩) (by simp)
  | cons a l =>
    rw [hl] at hmem hsort
    obtain ⟨hlt, hsort⟩ := List.pairwise_cons.1 hsort
    obtain ⟨ha1, ha2⟩ := (hmem a).1 (by simp)
    simp only [FontAnswer.station.injEq]
    constructor
    · rintro rfl
      refine ⟨ha1, ha2, fun m hm hb => ?_⟩
      rcases List.mem_cons.1 ((hmem m).2 ⟨by omega, hb⟩) with rfl | h
      · omega
      · have := hlt m h; omega
    · rintro ⟨hn, hb, hmin⟩
      rcases List.mem_cons.1 ((hmem n).2 ⟨hn, hb⟩) with rfl | h
      · rfl
      · exact absurd ha2 (hmin a (hlt n h))

/-- The station a character takes stands MOUNTED, or carries the font in the line already (R71). -/
theorem stationFor_station {s : State} {slot : Nat} {r : FontRecord} {n : Nat} (h : s.stationFor slot r = .station n) :
    (∃ g ∈ (s.job slot).line.glyphs, g.font = r.number ∧ g.station = n) ∨
      (∀ g ∈ (s.job slot).line.glyphs, g.font ≠ r.number) ∧ n < s.turret.stations.length ∧ (s.station n).state = .mounted := by
  simp only [State.stationFor] at h
  split at h
  · next g hg =>
    have hn : g.station = n := by simpa using h
    exact Or.inl ⟨g, List.mem_of_find?_eq_some hg, by simpa using List.find?_some hg, hn⟩
  · next hnone =>
    obtain ⟨hlt, hb, -⟩ := askTurret_station.1 h
    exact Or.inr ⟨by simpa using hnone, hlt, hb.1⟩

/-! ### A turn -/

/-- A job that is composing, holds no item and is not finished: what a turn serves (R65, R67). -/
def Job.turning (j : Job) : Prop := j.composing = true ∧ j.line.held = none ∧ j.finished = false

theorem Job.turning.lineOk {j : Job} (ht : j.turning) {line : LineInProgress} (hheld : line.held = none)
    (hparams : line.params.isSome = true ↔ line.glyphs ≠ [])
    (hone : ∀ g ∈ line.glyphs, ∀ h ∈ line.glyphs, g.font = h.font → g.station = h.station) {k : Job}
    (hk : k.line = line) (hs : k.state = j.state) (hf : k.finished = j.finished) : k.lineOk := by
  obtain ⟨hcomp, -, hfin⟩ := ht
  subst hk
  refine ⟨by simp [hheld], hparams, hone, fun hstate => ?_, fun hfin' => ?_⟩
  · rw [hs] at hstate
    rcases hstate with hstate | hstate <;> simp [Job.composing, hstate] at hcomp
  · rw [hf, hfin] at hfin'; exact absurd hfin' (by decide)

section
variable {s : State}

/-- A glyph is placed on its font's station in the line, or on a MOUNTED one (R71). -/
theorem HoldersOk.placeGlyph (h : HoldersOk s) {slot : Nat} (hslot : slot < 4) (ht : (s.job slot).turning) (c : Byte)
    {f : Nat} (z : Nat) {n : Nat} (hfont : ∃ r ∈ s.fonts, r.number = f)
    (hsame : ∀ g ∈ (s.job slot).line.glyphs, g.font = f → g.station = n)
    (hst : (∃ g ∈ (s.job slot).line.glyphs, g.station = n) ∨ (s.station n).state = .mounted) :
    HoldersOk (s.placeGlyph slot c f z n) := by
  obtain ⟨hl, -⟩ := (holdersOk_iff s).1 h
  have hline := h.lineOk slot
  obtain ⟨-, -, hone, -, -⟩ := id hline
  rw [placeGlyph_eq s (hl.jobs4 ▸ hslot)]
  have hfonts : ∀ m, m ∈ (s.job slot).line.fonts ↔ ∃ g ∈ (s.job slot).line.glyphs, g.font = m :=
    LineInProgress.mem_fonts ht.2.1
  have hstations : ∀ m, m ∈ (s.job slot).line.stations ↔ ∃ g ∈ (s.job slot).line.glyphs, g.station = m :=
    LineInProgress.mem_stations ht.2.1
  have hheld : (Job.place c f z n (s.job slot)).line.held = none := ht.2.1
  have hfonts' : ∀ m, m ∈ (Job.place c f z n (s.job slot)).line.fonts ↔ m = f ∨ m ∈ (s.job slot).line.fonts := by
    intro m
    rw [LineInProgress.mem_fonts hheld, hfonts]
    simp only [Job.place, List.mem_append, List.mem_singleton]
    constructor
    · rintro ⟨g, hg | rfl, hm⟩
      · exact Or.inr ⟨g, hg, hm⟩
      · exact Or.inl hm.symm
    · rintro (rfl | ⟨g, hg, hm⟩)
      · exact ⟨_, Or.inr rfl, rfl⟩
      · exact ⟨g, Or.inl hg, hm⟩
  have hstations' : ∀ m, m ∈ (Job.place c f z n (s.job slot)).line.stations ↔ m = n ∨ m ∈ (s.job slot).line.stations := by
    intro m
    rw [LineInProgress.mem_stations hheld, hstations]
    simp only [Job.place, List.mem_append, List.mem_singleton]
    constructor
    · rintro ⟨g, hg | rfl, hm⟩
      · exact Or.inr ⟨g, hg, hm⟩
      · exact Or.inl hm.symm
    · rintro (rfl | ⟨g, hg, hm⟩)
      · exact ⟨_, Or.inr rfl, rfl⟩
      · exact ⟨g, Or.inl hg, hm⟩
  have hnf : (s.job slot).line.glyphs.any (·.font == f) = decide (f ∈ (s.job slot).line.fonts) := by
    rw [Bool.eq_iff_iff]; simp [hfonts]
  have hns : (s.job slot).line.glyphs.any (·.station == n) = decide (n ∈ (s.job slot).line.stations) := by
    rw [Bool.eq_iff_iff]; simp [hstations]
  simp only [hnf, hns, decide_eq_true_eq]
  refine h.relines hslot (k := Job.place c f z n) (fun r _ => ?_) (fun m st => ?_) (fun r hr => ?_) (fun m hm => ?_)
    (fun m hm => ?_) (fun m hm hmem => ?_) ?_ rfl
  · dsimp only; split_ifs <;> exact ⟨rfl, rfl, rfl, rfl⟩
  · dsimp only; split_ifs <;> exact ⟨rfl, rfl, rfl, rfl, rfl⟩
  · have h1 := hfonts' r.number
    by_cases hin : f ∈ (s.job slot).line.fonts <;> by_cases hrf : r.number = f <;>
      by_cases hr : r.number ∈ (s.job slot).line.fonts <;> simp_all
  · have h1 := hstations' m
    by_cases hin : n ∈ (s.job slot).line.stations <;> by_cases hrf : m = n <;>
      by_cases hr : m ∈ (s.job slot).line.stations <;> simp_all
  · rcases (hfonts' m).1 hm with rfl | hm
    · exact hfont
    · exact hl.lineFonts _ (getD_mem (hl.jobs4 ▸ hslot) _) m hm
  · rcases (hstations' m).1 hmem with rfl | hmem
    · exact hst.imp (hstations m).2 id
    · exact Or.inl hmem
  · refine ht.lineOk hheld ?_ ?_ rfl rfl rfl
    · obtain ⟨-, hpar, -⟩ := hline
      cases hg : (s.job slot).line.glyphs <;> simp [Job.place, hg, hpar]
    · simp only [Job.place, List.mem_append, List.mem_singleton]
      rintro a (ha | rfl) b (hb | rfl) hab
      · exact hone a ha b hb hab
      · exact hsame a ha hab
      · exact (hsame b hb hab.symm).symm
      · rfl

theorem placeGlyph_job (s : State) {slot : Nat} (hslot : slot < s.jobs.length) (c : Byte) (f z n : Nat) :
    (s.placeGlyph slot c f z n).job slot = Job.place c f z n (s.job slot) := by
  rw [placeGlyph_eq s hslot, State.job_onJob_self _ _ (by exact hslot)]
  rfl

/-- What placing a word keeps: the laws, and the turn. -/
def PlacingOk (slot : Nat) (s : State) : Prop := HoldersOk s ∧ (s.job slot).turning

theorem HoldersOk.jobs4 (h : HoldersOk s) : s.jobs.length = 4 := h.2.2.1
theorem HoldersOk.stations8 (h : HoldersOk s) : s.turret.stations.length = 8 := h.2.2.2.1

theorem PlacingOk.onJob {slot : Nat} (h : PlacingOk slot s) (hslot : slot < 4) (f : Job → Job)
    (hs : (s.job slot).sameHold (f (s.job slot))) : PlacingOk slot (s.onJob slot f) := by
  obtain ⟨hh, hcomp, hheld, hfin⟩ := h
  refine ⟨hh.onJob_sameHold slot f hfin hs, ?_⟩
  obtain ⟨-, -, h1, h2, h3⟩ := hs
  rw [State.job_onJob_self _ _ (hh.jobs4 ▸ hslot)]
  exact ⟨by rw [Job.composing, h2]; exact hcomp, h1.trans hheld, h3.trans hfin⟩

theorem PlacingOk.placeItems {slot : Nat} (hslot : slot < 4) (items kept : List WordItem) (h : PlacingOk slot s) :
    PlacingOk slot (placeItems slot items kept s).1 := by
  induction items generalizing kept s with
  | nil => exact h
  | cons x items ih =>
    cases x with
    | mark => exact ih _ h
    | char c f z =>
      simp only [Machine.placeItems]
      split
      · exact h
      · next r hr =>
        obtain ⟨hmem, hnum⟩ := mem_of_font hr
        (repeat' split) <;> try exact h
        · exact ih _ (h.onJob hslot _ ⟨rfl, rfl, rfl, rfl, rfl⟩)
        · next n hn =>
          obtain ⟨hh, ht⟩ := h
          have hlen : slot < s.jobs.length := hh.jobs4 ▸ hslot
          obtain ⟨-, -, hone, -, -⟩ := hh.lineOk slot
          refine ih _ ⟨hh.placeGlyph hslot ht c z ⟨r, hmem, hnum⟩ ?_ ?_, ?_⟩
          · intro g hg hgf
            rcases stationFor_station hn with ⟨g', hg', hf', hs'⟩ | ⟨hno, -⟩
            · rw [← hs']; exact hone g hg g' hg' (by rw [hgf, hf', hnum])
            · exact absurd (hgf.trans hnum.symm) (hno g hg)
          · rcases stationFor_station hn with ⟨g', hg', -, hs'⟩ | ⟨-, -, hm⟩
            · exact Or.inl ⟨g', hg', hs'⟩
            · exact Or.inr hm
          · rw [placeGlyph_job s hlen]; exact ht

theorem beginPlacing_hold (l : LineInProgress) : l.beginPlacing.glyphs = l.glyphs ∧ l.beginPlacing.params = l.params ∧
    l.beginPlacing.held = l.held := by
  simp only [LineInProgress.beginPlacing]
  (repeat' split) <;> exact ⟨rfl, rfl, rfl⟩

theorem PlacingOk.placeNext {slot : Nat} (hslot : slot < 4) (h : PlacingOk slot s) :
    PlacingOk slot (s.placeNext slot).1 := by
  have h1 : PlacingOk slot (s.onLine slot LineInProgress.beginPlacing) :=
    h.onJob hslot _ (by obtain ⟨a, b, c⟩ := beginPlacing_hold (s.job slot).line; exact ⟨a, b, c, rfl, rfl⟩)
  simp only [State.placeNext]
  split
  · exact h1
  · exact (h1.placeItems hslot _ _).onJob hslot _ ⟨rfl, rfl, rfl, rfl, rfl⟩

end

end Sys2Proof.Machine
end

section
/-! HoldersOk through the append of a line or an entry, and the setting of a line. -/

namespace Sys2Proof.Machine

open Sys2Proof

section
variable {s : State}

/-! ### Append -/

theorem State.onLine_onLine (s : State) (slot : Nat) (f g : LineInProgress → LineInProgress) :
    (s.onLine slot f).onLine slot g = s.onLine slot fun l => g (f l) := by
  simp only [State.onLine, State.onJob, List.modify_modify_eq]; rfl

theorem Job.appended_line (b : Body) (j : Job) : (Job.appended b j).line = j.line := by cases b <;> rfl
theorem Job.appended_state (b : Body) (j : Job) : (Job.appended b j).state = j.state := by cases b <;> rfl
theorem Job.appended_finished (b : Body) (j : Job) : (Job.appended b j).finished = j.finished := by cases b <;> rfl
theorem Job.appended_text (b : Body) (j : Job) : (Job.appended b j).text = j.text := by cases b <;> rfl

theorem testHigh_onLine (s : State) (slot : Nat) (f : LineInProgress → LineInProgress) :
    (s.onLine slot f).testHigh = s.testHigh.onLine slot f := by
  simp only [State.testHigh]
  show (if (!s.queue.highWater && s.queue.atHigh) = true then _ else _) = _
  split <;> rfl

theorem HoldersOk.testHigh (h : HoldersOk s) : HoldersOk s.testHigh := by
  simp only [State.testHigh]; split <;> exact h

/-- What an append reads of a job is not its line. -/
theorem appendEntry_onLine (s : State) (slot : Nat) (b : Body) (f : LineInProgress → LineInProgress) :
    (s.onLine slot f).appendEntry slot b = (s.appendEntry slot b).onLine slot f := by
  have hnew : (s.onLine slot f).newEntry slot b = s.newEntry slot b := by
    by_cases h : slot < s.jobs.length
    · simp only [State.newEntry, State.onLine, State.job_onJob_self _ _ h]; rfl
    · have : s.jobs.modify slot (fun j => { j with line := f j.line }) = s.jobs := List.modify_eq_self (by omega)
      simp only [State.newEntry, State.onLine, State.onJob, State.job, this]
      rfl
  have hjobs : (s.jobs.modify slot fun j => { j with line := f j.line }).modify slot (Job.appended b) =
      (s.jobs.modify slot (Job.appended b)).modify slot fun j => { j with line := f j.line } := by
    rw [List.modify_modify_eq, List.modify_modify_eq]
    congr 1
    cases b <;> rfl
  have happ : (s.onLine slot f).appended slot b = (s.appended slot b).onLine slot f := by
    rw [State.appended, hnew]
    simp only [State.onLine, State.appended, State.onJob, State.onStations, State.onFonts, State.onQueue, State.onTurret, hjobs]
  rw [appendEntry_eq, appendEntry_eq, happ]
  exact testHigh_onLine _ _ _

theorem admits_room {slot : Nat} {b : Body} (h : s.admits slot b = true) : s.queue.entries.length + 1 ≤ 64 := by
  have hpos : 1 ≤ (s.roomNeeded slot b).1 := by
    simp only [State.roomNeeded]; split
    · simp
    · split <;> simp
  simp only [State.admits, Bool.and_eq_true, decide_eq_true_eq] at h
  have := h.1
  simp only [Queue.inUse, Config.queueSlots] at this
  omega

/-- A line's references and claims pass to the entry made of it, with a change of its job that makes it give them up
(R10, R24, R25). -/
theorem HoldersOk.append (h : HoldersOk s) {slot : Nat} (hslot : slot < 4) (b : Body) {k : LineInProgress → LineInProgress}
    (hfonts : ∀ n, ((s.job slot).line.fonts.contains n).toNat =
      (b.fonts.contains n).toNat + ((k (s.job slot).line).fonts.contains n).toNat)
    (hstations : ∀ n, ((s.job slot).line.stations.contains n).toNat =
      (b.stations.contains n).toNat + ((k (s.job slot).line).stations.contains n).toNat)
    (hline : ({ Job.appended b (s.job slot) with line := k (s.job slot).line } : Job).lineOk) (hadmit : s.admits slot b = true) :
    HoldersOk ((s.appendEntry slot b).onLine slot k) := by
  obtain ⟨hl, -⟩ := (holdersOk_iff s).1 h
  have hroom := admits_room hadmit
  obtain ⟨-, hserial⟩ := Queue.nextFree_spec (q := s.queue) hl.room
  have hmark : (s.newEntry slot b).expo = .done → (s.newEntry slot b).body.stations = [] := by
    cases b <;> simp [State.newEntry, Body.kind, Body.numbered, Body.stations, Body.runs, distinct]
  have hledger := hl.append hslot (k := (fun j => { j with line := k j.line }) ∘ Job.appended b) (j := s.job slot) rfl
    (e := s.newEntry slot b)
    (by simpa only [State.newEntry, Body.numbered_fonts, Function.comp, Job.appended_line] using hfonts)
    (by simpa only [State.newEntry, Body.numbered_stations, Function.comp, Job.appended_line] using hstations) hmark
    (by simpa only [Function.comp, Job.appended_line] using hline) hroom hserial
  have hu : HoldersOk ((s.appended slot b).onLine slot k) := by
    refine h.of_ledger (f := fun n st => if n ∈ b.stations then { st with claims := st.claims - 1, pins := st.pins + 1 } else st)
      ?_ rfl rfl (fun n st => by split <;> exact ⟨rfl, rfl⟩) (fun n hn hp hc _ => ?_) rfl
      fun e he hin => ⟨e, List.mem_append_left _ he, rfl, hin⟩
    · simpa only [State.LedgerOk, State.appended, State.onLine, State.onJob, State.onStations, State.onFonts, State.onQueue,
        State.onTurret, State.newEntry, Body.numbered_fonts, Body.numbered_stations, List.modify_modify_eq] using hledger
    · have : n ∉ b.stations := fun hm => by
        have h1 := hstations n
        rw [toNat_contains_of_mem hm] at h1
        have := h.claimed slot hn (toNat_contains_pos.1 (by omega))
        omega
      simp only [if_neg this]; exact ⟨hp, hc⟩
  rw [appendEntry_eq, ← testHigh_onLine]
  exact hu.testHigh

/-- An item that holds no run is appended (R129). -/
theorem HoldersOk.append_of_runs_nil (h : HoldersOk s) {slot : Nat} (hslot : slot < 4) {b : Body} (hb : b.runs = [])
    (hadmit : s.admits slot b = true) : HoldersOk (s.appendEntry slot b) := by
  have hf : b.fonts = [] := by simp [Body.fonts, hb, distinct]
  have hs : b.stations = [] := by simp [Body.stations, hb, distinct]
  have hid : ∀ u : State, u.onLine slot (fun l => l) = u := fun u => by
    rw [State.onLine, State.onJob, show (fun j : Job => { j with line := j.line }) = id from rfl, List.modify_id]
  have := h.append hslot b (k := fun l => l) (by simp [hf]) (by simp [hs])
    (by simpa only [Job.lineOk, Job.appended_line, Job.appended_state, Job.appended_finished, Job.appended_text] using h.lineOk slot)
    hadmit
  rwa [hid] at this

/-- The held item is appended (R131, R132). -/
theorem HoldersOk.append_held (h : HoldersOk s) {slot : Nat} (hslot : slot < 4) {b : Body} (hb : (s.job slot).line.held = some b)
    (hadmit : s.admits slot b = true) : HoldersOk ((s.appendEntry slot b).onLine slot fun l => { l with held := none }) := by
  obtain ⟨hheld, hpar, hone, hfree, hfin⟩ := h.lineOk slot
  have hg := hheld (by simp [hb])
  refine h.append hslot b (fun n => ?_) (fun n => ?_) ?_ hadmit
  · simp [LineInProgress.fonts, hb, hg, distinct]
  · simp [LineInProgress.stations, hb, hg, distinct]
  · refine ⟨by simp, by simpa using hpar, hone, fun _ => ⟨hg, rfl⟩, fun hf => ?_⟩
    rw [Job.appended_finished] at hf
    have := (hfin hf).2.2
    simp [LineInProgress.isEmpty, hb] at this

end

end Sys2Proof.Machine
end

section
/-! HoldersOk through the offer of an item, the setting of a line, and the three steps of a turn. -/

namespace Sys2Proof.Machine

open Sys2Proof

section
variable {s : State}

/-! ### Admission, and the offer of an item -/

/-- A job whose ending due is carried out, with nothing else of its line changed. -/
theorem HoldersOk.onJob_endEnding (h : HoldersOk s) (slot : Nat) (f : Job → Job)
    (hline : ∀ j : Job, (f j).line = { j.line with ending := none }) (hstate : ∀ j : Job, (f j).state = j.state)
    (hfin : ∀ j : Job, (f j).finished = j.finished) (htext : ∀ j : Job, (f j).text = j.text) : HoldersOk (s.onJob slot f) := by
  refine h.onJob slot f (fun _ => by rw [hline]; rfl) (fun _ => by rw [hline]; rfl) fun _ hok => ?_
  obtain ⟨hheld, hpar, hone, hfree, hdone⟩ := hok
  simp only [Job.lineOk, hline, hstate, hfin, htext]
  refine ⟨hheld, hpar, hone, hfree, fun hf => ?_⟩
  obtain ⟨h1, h2, h3⟩ := hdone hf
  simp only [LineInProgress.isEmpty, Bool.and_eq_true] at h3 ⊢
  exact ⟨h1, h2, ⟨h3.1.1, rfl⟩, h3.2⟩

theorem HoldersOk.resumeEnding (h : HoldersOk s) (slot : Nat) : HoldersOk (s.resumeEnding slot) := by
  simp only [State.resumeEnding]
  split
  · split
    · exact h.onJob_endEnding slot _ (fun _ => rfl) (fun _ => rfl) (fun _ => rfl) fun _ => rfl
    · exact h
  · exact h

/-- An item admitted: what follows, once the line has given it up. -/
theorem HoldersOk.admitted {slot : Nat} (h : HoldersOk (s.onLine slot fun l => { l with held := none })) (b : Body) :
    HoldersOk (s.admitted slot b) := by
  have htail : ∀ {t : State}, HoldersOk t →
      HoldersOk (if ((t.finishComposition slot).job slot).status == .stalled .queueFull then
        ((t.finishComposition slot).setStatus slot .ready).restatus slot else t.finishComposition slot) := by
    intro t ht
    split
    · exact ((ht.finishComposition slot).setStatus slot _).restatus slot
    · exact ht.finishComposition slot
  cases b
  case line => exact htail (h.resumeEnding slot)
  all_goals exact htail (h.onJob_endEnding slot _ (fun _ => rfl) (fun _ => rfl) (fun _ => rfl) fun _ => rfl)

/-- An item is offered by a job whose line holds the references and claims of that item alone (R85). -/
theorem HoldersOk.offer {slot : Nat} (hslot : slot < 4) {b : Body}
    (h : HoldersOk (s.onLine slot fun l => { l with held := some b })) : HoldersOk (s.offer slot b) := by
  have hlen : slot < s.jobs.length := by
    have := h.jobs4
    simp only [State.onLine, State.onJob, List.length_modify] at this
    omega
  simp only [State.offer]
  split
  · next hadmit =>
    have hheld : ((s.onLine slot fun l => { l with held := some b }).job slot).line.held = some b := by
      rw [State.onLine, State.job_onJob_self _ _ hlen]
    have happ := h.append_held hslot hheld hadmit
    rw [appendEntry_onLine, State.onLine_onLine] at happ
    exact (HoldersOk.admitted happ b).endTurn slot
  · exact h.endTurn slot

/-! ### The line is set -/

/-- Glyphs that stand on fonts and stations of a line. -/
def glyphsWithin (kept old : List Glyph) : Prop := ∀ g ∈ kept, ∃ g' ∈ old, g'.font = g.font ∧ g'.station = g.station

theorem HoldersOk.setLineWith (h : HoldersOk s) {slot : Nat} (hslot : slot < 4) (ht : (s.job slot).turning) (p : LineParams)
    {kept : List Glyph} (hkept : glyphsWithin kept (s.job slot).line.glyphs) (flags : List LineFlag) (last : Bool)
    (carry : Option Word) :
    HoldersOk ((s.leaveLine (s.job slot).line.glyphs kept).setLineWith slot p kept flags last carry) := by
  obtain ⟨-, -, hone, -, -⟩ := h.lineOk slot
  obtain ⟨hcomp, hheld, hfin⟩ := ht
  have hone' : ∀ g ∈ kept, ∀ h ∈ kept, g.font = h.font → g.station = h.station := by
    intro g hg k hk hf
    obtain ⟨g', hg', hgf, hgs⟩ := hkept g hg
    obtain ⟨k', hk', hkf, hks⟩ := hkept k hk
    rw [← hgs, ← hks]
    exact hone g' hg' k' hk' (by rw [hgf, hkf, hf])
  simp only [State.setLineWith]
  refine HoldersOk.offer hslot ?_
  rw [State.onLine_onLine]
  set body : LineBody := State.lineBody _ _ _ _ _ with hbody
  have hruns : body.runs = runsOf kept := rfl
  clear_value body
  simp only [State.leaveLine]
  refine h.dropLine hslot
    (k := fun j => { j with
      line := { j.line with
        glyphs := [], params := none, placing := none, missing := false, gapDue := false, carry := carry
        ending := j.line.ending.map fun e => { e with lineSet := e.lineSet || last }, held := some (.line body) } })
    ((distinct_nodup _).filter _) ((distinct_nodup _).filter _) (fun n => ?_) (fun n => ?_) (fun n hn => ?_) (fun n hn => ?_) ?_
  · rw [LineInProgress.mem_fonts hheld, show LineInProgress.fonts _ = (Body.line body).fonts from rfl,
      (Body.mem_fonts_line hone' hruns n).1]
    simp only [List.mem_filter, mem_distinct, List.mem_map, Bool.not_eq_true', List.any_eq_false, beq_iff_eq]
    constructor
    · rintro ⟨g, hg, rfl⟩
      by_cases hk : ∃ g' ∈ kept, g'.font = g.font
      · exact Or.inr hk
      · exact Or.inl ⟨⟨g, hg, rfl⟩, by simpa using hk⟩
    · rintro (⟨hg, -⟩ | ⟨g, hg, rfl⟩)
      · exact hg
      · obtain ⟨g', hg', hf, -⟩ := hkept g hg
        exact ⟨g', hg', hf⟩
  · rw [LineInProgress.mem_stations hheld, show LineInProgress.stations _ = (Body.line body).stations from rfl,
      (Body.mem_fonts_line hone' hruns n).2]
    simp only [List.mem_filter, mem_distinct, List.mem_map, Bool.not_eq_true', List.any_eq_false, beq_iff_eq]
    constructor
    · rintro ⟨g, hg, rfl⟩
      by_cases hk : ∃ g' ∈ kept, g'.station = g.station
      · exact Or.inr hk
      · exact Or.inl ⟨⟨g, hg, rfl⟩, by simpa using hk⟩
    · rintro (⟨hg, -⟩ | ⟨g, hg, rfl⟩)
      · exact hg
      · obtain ⟨g', hg', -, hs⟩ := hkept g hg
        exact ⟨g', hg', hs⟩
  · rw [show LineInProgress.fonts _ = (Body.line body).fonts from rfl, (Body.mem_fonts_line hone' hruns n).1]
    simpa using (List.mem_filter.1 hn).2
  · rw [show LineInProgress.stations _ = (Body.line body).stations from rfl, (Body.mem_fonts_line hone' hruns n).2]
    simpa using (List.mem_filter.1 hn).2
  · refine ⟨by simp, by simp, by simp, fun hst => ?_, fun hf => ?_⟩
    · rcases hst with hst | hst <;> simp [Job.composing, show (s.job slot).state = _ from hst] at hcomp
    · rw [show (s.job slot).finished = true from hf] at hfin; exact absurd hfin (by decide)

theorem glyphsWithin_of_subset {kept old : List Glyph} (h : kept ⊆ old) : glyphsWithin kept old :=
  fun g hg => ⟨g, h hg, rfl, rfl⟩

theorem glyphsWithin_withHyphen (s : State) (base word : List Glyph) (k : Nat) (e : Bool) :
    glyphsWithin (s.withHyphen base word k e) (base ++ word) := by
  have hsub : base ++ word.take k ⊆ base ++ word := List.append_subset.2
    ⟨List.subset_append_left _ _, fun x hx => List.mem_append_right _ (List.take_subset _ _ hx)⟩
  simp only [State.withHyphen]
  split
  · exact glyphsWithin_of_subset hsub
  · split
    · exact glyphsWithin_of_subset hsub
    · next g hg =>
      intro x hx
      rcases List.mem_append.1 hx with hx | hx
      · exact ⟨x, hsub hx, rfl, rfl⟩
      · obtain rfl := List.mem_singleton.1 hx
        exact ⟨g, hsub (List.mem_of_getLast? hg), rfl, rfl⟩

theorem chooseBreak_within {p : LineParams} {a : Analysis} {limit : Nat} {chars : List CoreChar} {base word : List Glyph}
    {kept : List Glyph} {k : Nat} (h : s.chooseBreak p a limit chars base word = some (kept, k)) :
    glyphsWithin kept (base ++ word) := by
  obtain ⟨c, -, hc⟩ := List.exists_of_findSome?_eq_some h
  simp only [Option.ite_none_right_eq_some, Option.some.injEq, Prod.mk.injEq] at hc
  rw [← hc.2.1]
  exact glyphsWithin_withHyphen _ _ _ _ _

theorem breakLine_within (s : State) (slot : Nat) (p : LineParams) (pl : Placing) (glyphs : List Glyph) :
    glyphsWithin (s.breakLine slot p pl glyphs).2.kept glyphs := by
  simp only [State.breakLine]
  split
  · next kept k hk =>
    split at hk
    · have := chooseBreak_within hk
      rwa [List.take_append_drop] at this
    · exact absurd hk (by simp)
  · split
    · exact glyphsWithin_of_subset (List.take_subset _ _)
    · exact glyphsWithin_of_subset fun x hx => List.drop_subset _ _ (List.take_subset _ _ hx)

/-- A break touches the dictionary alone (R98). -/
theorem breakLine_state (s : State) (slot : Nat) (p : LineParams) (pl : Placing) (glyphs : List Glyph) :
    ∃ d, (s.breakLine slot p pl glyphs).1 = { s with dict := d } := by
  simp only [State.breakLine]
  (repeat' split) <;> exact ⟨_, rfl⟩

theorem HoldersOk.breakAndSet (h : HoldersOk s) {slot : Nat} (hslot : slot < 4) (ht : (s.job slot).turning) :
    HoldersOk (s.breakAndSet slot) := by
  simp only [State.breakAndSet]
  split
  · next pl p _ _ =>
    obtain ⟨d, hd⟩ := breakLine_state s slot p pl (s.job slot).line.glyphs
    rw [hd]
    have hu : HoldersOk { s with dict := d } := h
    exact hu.setLineWith hslot ht p (breakLine_within _ _ _ _ _) _ _ _
  · exact h

theorem leaveLine_self (s : State) (gs : List Glyph) : s.leaveLine gs gs = s := by
  have h1 : ((distinct (gs.map (·.font))).filter fun n => !gs.any (·.font == n)) = [] := by
    simp [List.filter_eq_nil_iff]
  have h2 : ((distinct (gs.map (·.station))).filter fun n => !gs.any (·.station == n)) = [] := by
    simp [List.filter_eq_nil_iff]
  rw [State.leaveLine, h1, h2]; rfl

/-! ### An ending carried on -/

/-- An item without runs is held by a line without glyphs. -/
theorem HoldersOk.hold_of_runs_nil (h : HoldersOk s) (slot : Nat) (ht : (s.job slot).turning)
    (hg : (s.job slot).line.glyphs = []) {b : Body} (hb : b.runs = []) :
    HoldersOk (s.onLine slot fun l => { l with held := some b }) := by
  obtain ⟨hcomp, hheld, hfin⟩ := ht
  refine h.onJob slot _ (fun _ => ?_) (fun _ => ?_) fun _ hok => ?_
  · simp [LineInProgress.fonts, hheld, hg, Body.fonts, hb, distinct]
  · simp [LineInProgress.stations, hheld, hg, Body.stations, hb, distinct]
  · obtain ⟨-, hpar, hone, -, -⟩ := hok
    refine ⟨fun _ => hg, hpar, hone, fun hst => ?_, fun hf => ?_⟩
    · rcases hst with hst | hst <;> simp [Job.composing, show (s.job slot).state = _ from hst] at hcomp
    · rw [show (s.job slot).finished = true from hf] at hfin; exact absurd hfin (by decide)

theorem CodeAction.entry_runs {a : CodeAction} {b : Body} (h : a.entry = some b) : b.runs = [] := by
  cases a <;> simp [CodeAction.entry] at h <;> subst h <;> rfl

theorem HoldersOk.carryEnding (h : HoldersOk s) {slot : Nat} (hslot : slot < 4) (ht : (s.job slot).turning) :
    HoldersOk (s.carryEnding slot) := by
  have hp : PlacingOk slot s := ⟨h, ht⟩
  simp only [State.carryEnding]
  split
  · (repeat' split) <;> try exact h
    next p e _ _ _ _ =>
      have := h.setLineWith hslot ht p (glyphsWithin_of_subset (List.Subset.refl _)) [.last] true none
      rwa [leaveLine_self] at this
  · next e hpar he =>
    have hg : (s.job slot).line.glyphs = [] := by
      obtain ⟨-, hiff, -⟩ := h.lineOk slot
      rw [hpar] at hiff
      simpa using hiff
    have h1 : PlacingOk slot (s.onLine slot fun l => { l with missing := l.missing && e.lineSet }) :=
      hp.onJob hslot _ ⟨rfl, rfl, rfl, rfl, rfl⟩
    have hg1 : ((s.onLine slot fun l => { l with missing := l.missing && e.lineSet }).job slot).line.glyphs = [] := by
      rw [State.onLine, State.job_onJob_self _ _ (h.jobs4 ▸ hslot)]; exact hg
    split
    · exact HoldersOk.afterStep (h1.onJob hslot _ ⟨rfl, rfl, rfl, rfl, rfl⟩).1 slot
    · next b hb =>
      have h2 := h1.onJob hslot (fun j => { j with
        paragraphMark := if e.lineSet then e.paragraph else j.paragraphMark || e.paragraph }) ⟨rfl, rfl, rfl, rfl, rfl⟩
      refine HoldersOk.offer hslot (h2.1.hold_of_runs_nil slot h2.2 ?_ (CodeAction.entry_runs hb))
      rw [State.job_onJob_self _ _ (h1.1.jobs4 ▸ hslot)]; exact hg1
  · exact h

/-! ### The steps of a turn -/

/-- A turn serves a composing job that holds no item and is not finished (R67). -/
theorem HoldersOk.serves (h : HoldersOk s) {w : Work} (hw : w ≠ .none) {slot : Nat} (hs : s.serves w = some slot) :
    slot < 4 ∧ (s.job slot).turning ∧ (s.job slot).work = w := by
  obtain ⟨-, hserve, -⟩ := (holdersOk_iff s).1 h
  obtain ⟨-, -, -, -, hfin⟩ := h.lineOk slot
  simp only [State.serves, Option.filter_eq_some_iff, Bool.and_eq_true, beq_iff_eq] at hs
  obtain ⟨hsv, hcomp, hwork⟩ := hs
  have hheld : (s.job slot).line.held = none := by
    by_contra hne
    rw [Job.work, if_pos (by cases hx : (s.job slot).line.held <;> simp_all)] at hwork
    exact hw hwork.symm
  refine ⟨hserve slot hsv, ⟨hcomp, hheld, ?_⟩, hwork⟩
  by_contra hf
  obtain ⟨hst, htext, hempty⟩ := hfin (by simpa using hf)
  simp only [LineInProgress.isEmpty, Bool.and_eq_true, List.isEmpty_iff, Option.isNone_iff_eq_none] at hempty
  obtain ⟨⟨⟨⟨⟨⟨⟨-, -⟩, hended⟩, hplacing⟩, hcarry⟩, -⟩, hending⟩, -⟩ := hempty
  simp [Job.work, hheld, hplacing, hcarry, hended, hending, htext, canTake] at hwork
  exact hw hwork.symm

theorem HoldersOk.placeWord (h : HoldersOk s) : HoldersOk (placeWordEffect s) := by
  simp only [placeWordEffect]
  split
  · exact h
  · next slot hs =>
    obtain ⟨hslot, ht, -⟩ := h.serves (by decide) hs
    have hp := PlacingOk.placeNext hslot ⟨h, ht⟩
    split
    · exact HoldersOk.afterStep (hp.onJob hslot _ ⟨rfl, rfl, rfl, rfl, rfl⟩).1 slot
    · exact hp.1.breakAndSet hslot hp.2
    · exact ((hp.onJob hslot _ ⟨rfl, rfl, rfl, rfl, rfl⟩).1.setStatus slot _).endTurn slot
    · exact hp.1.endTurn slot

theorem HoldersOk.setLine (h : HoldersOk s) : HoldersOk (setLineEffect s) := by
  simp only [setLineEffect]
  split
  · next slot _ hs =>
    obtain ⟨hslot, ht, -⟩ := h.serves (by decide) hs
    have hp := PlacingOk.placeNext hslot ⟨h, ht⟩
    split
    · exact hp.1.breakAndSet hslot hp.2
    · exact h
  · next slot _ hs =>
    obtain ⟨hslot, ht, -⟩ := h.serves (by decide) hs
    exact h.carryEnding hslot ht
  · exact h

end

end Sys2Proof.Machine
end

section
/-! HoldersOk through the bytes taken, the requests on jobs, and the entries that leave. -/

namespace Sys2Proof.Machine

open Sys2Proof

/-! ### A byte taken -/

theorem LineInProgress.endWord_hold (l : LineInProgress) : l.endWord.glyphs = l.glyphs ∧ l.endWord.params = l.params ∧
    l.endWord.held = l.held := by
  simp only [LineInProgress.endWord]; split <;> exact ⟨rfl, rfl, rfl⟩

theorem Job.sameHold_refl (j : Job) : j.sameHold j := ⟨rfl, rfl, rfl, rfl, rfl⟩

theorem Job.sameHold_makeEnding (j : Job) (paragraph : Bool) (a : CodeAction) :
    j.sameHold { j with line := j.line.makeEnding paragraph a } := by
  obtain ⟨h1, h2, h3⟩ := j.line.endWord_hold
  exact ⟨h1, h2, h3, rfl, rfl⟩

theorem Job.sameHold_clampedIf (b : Bool) (j : Job) : j.sameHold (j.clampedIf b) := by
  cases b <;> exact ⟨rfl, rfl, rfl, rfl, rfl⟩

theorem Job.sameHold_lineCode (changed : Bool) (a : CodeAction) (set : Params → Params) (j : Job) :
    j.sameHold (j.lineCode changed a set) := by
  cases changed
  · exact ⟨rfl, rfl, rfl, rfl, rfl⟩
  · exact j.sameHold_makeEnding false a

theorem Job.sameHold_takeCode (h : HouseStyle) (letter : Byte) (ps : List Byte) (j : Job) :
    j.sameHold (j.takeCode h letter ps) := by
  have hset : ∀ p : Params, j.sameHold { j with params := p } := fun _ => ⟨rfl, rfl, rfl, rfl, rfl⟩
  have hskip : ∀ n, j.sameHold (j.ignore n) := fun _ => ⟨rfl, rfl, rfl, rfl, rfl⟩
  have hclamp : ∀ {k : Job} (b : Bool), j.sameHold k → j.sameHold (k.clampedIf b) := fun b hk =>
    hk.trans (Job.sameHold_clampedIf b _)
  simp only [Job.takeCode]
  split
  · split
    · exact hset _
    · exact hskip _
  · exact hclamp _ (hset _)
  · exact hclamp _ (hset _)
  · exact hclamp _ (hset _)
  · split
    · exact hset _
    · exact hskip _
  · split
    · exact hset _
    · exact hskip _
  · exact hclamp _ (j.sameHold_lineCode _ _ _)
  · exact hclamp _ (j.sameHold_lineCode _ _ _)
  · split
    · exact hskip _
    · exact j.sameHold_lineCode _ _ _
  · exact hclamp _ (j.sameHold_makeEnding _ _)
  · exact hclamp _ (j.sameHold_makeEnding _ _)
  · exact j.sameHold_makeEnding _ _
  · exact hskip _

theorem Job.sameHold_applyByte (h : HouseStyle) (j : Job) : j.sameHold (j.applyByte h) := by
  have htext : ∀ (t : List Byte) (n : Nat), j.sameHold ({ j with text := t }.ignore n) := fun _ _ => ⟨rfl, rfl, rfl, rfl, rfl⟩
  have hline : ∀ (t : List Byte) (f : LineInProgress → LineInProgress),
      (f j.line).glyphs = j.line.glyphs ∧ (f j.line).params = j.line.params ∧ (f j.line).held = j.line.held →
      j.sameHold { j with text := t, line := f j.line } := fun _ _ ⟨h1, h2, h3⟩ => ⟨h1, h2, h3, rfl, rfl⟩
  simp only [Job.applyByte]
  split
  · exact j.sameHold_refl
  · split_ifs
    · refine hline _ (fun l => l.takeChar _) ?_
      simp only [LineInProgress.takeChar]; split <;> exact ⟨rfl, rfl, rfl⟩
    · exact hline _ _ j.line.endWord_hold
    · exact hline _ (fun l => { l with pending := l.pending ++ [.mark] }) ⟨rfl, rfl, rfl⟩
    · exact hline _ _ j.line.endWord_hold
    · exact hline _ _ j.line.endWord_hold
    · split
      · exact htext _ _
      · split
        · exact htext _ _
        · split
          · exact Job.sameHold.trans ⟨rfl, rfl, rfl, rfl, rfl⟩ (Job.sameHold_takeCode h _ _ _)
          · exact htext _ _
    · exact htext _ _

theorem Job.sameHold_exhaust (j : Job) : j.sameHold j.exhaust := by
  simp only [Job.exhaust, LineInProgress.exhaust]
  split
  · split
    · exact ⟨rfl, rfl, rfl, rfl, rfl⟩
    · exact j.sameHold_makeEnding _ _
  · exact j.sameHold_refl

section
variable {s : State}

theorem HoldersOk.takeByte (h : HoldersOk s) : HoldersOk (takeByteEffect s) := by
  simp only [takeByteEffect]
  split
  · exact h
  · next slot hs =>
    obtain ⟨-, ⟨-, -, hfin⟩, -⟩ := h.serves (by decide) hs
    exact (h.onJob_sameHold slot _ hfin
      ((Job.sameHold_applyByte _ _).trans (Job.sameHold_exhaust _))).afterStep slot

/-! ### The waiting list -/

theorem HoldersOk.job_of_le (h : HoldersOk s) {slot : Nat} (hslot : 4 ≤ slot) : s.job slot = Job.free :=
  List.getD_eq_default _ _ (h.jobs4 ▸ hslot)

theorem HoldersOk.offerWaiting (h : HoldersOk s) {t : State} (ht : s.offerWaiting = some t) : HoldersOk t := by
  obtain ⟨slot, -, hs⟩ := List.exists_of_findSome?_eq_some ht
  by_cases hslot : slot < 4
  · cases hw : (s.job slot).waiting with
    | none => simp [hw] at hs
    | some b =>
      simp only [hw, Option.ite_none_right_eq_some, Option.some.injEq] at hs
      obtain ⟨hadmit, rfl⟩ := hs
      simp only [Job.waiting] at hw
      split
      · next hm =>
        obtain rfl : Body.mark = b := by simpa [hm] using hw
        exact h.append_of_runs_nil hslot rfl hadmit
      · next hm =>
        rw [if_neg hm] at hw
        exact HoldersOk.admitted (h.append_held hslot hw hadmit) b
  · rw [h.job_of_le (by omega)] at hs
    exact absurd hs (by simp [Job.free, Job.waiting, LineInProgress.empty])

theorem HoldersOk.chooseTurn (h : HoldersOk s) {t : State} (ht : s.chooseTurn = some t) : HoldersOk t := by
  simp only [State.chooseTurn] at ht
  split at ht
  · exact absurd ht (by simp)
  · obtain ⟨n, hn, rfl⟩ := Option.map_eq_some_iff.1 ht
    refine h.onEngine _ fun m hm => ?_
    obtain rfl : n = m := by simpa using hm
    have := List.mem_of_find?_eq_some hn
    simp only [List.mem_map] at this
    obtain ⟨k, -, rfl⟩ := this
    omega

/-! ### Requests on jobs -/

/-- A slot takes a context whose line is empty, where the line held nothing. -/
theorem HoldersOk.onJob_emptied (h : HoldersOk s) {slot : Nat} (hempty : (s.job slot).line.fonts = [])
    (hemptyStations : (s.job slot).line.stations = []) (f : Job → Job) (hline : (f (s.job slot)).line = LineInProgress.empty)
    (hfin : (f (s.job slot)).finished = false) : HoldersOk (s.onJob slot f) := by
  refine h.onJob slot f (fun _ => by rw [hline, hempty]; rfl) (fun _ => by rw [hline, hemptyStations]; rfl) fun _ _ => ?_
  simp [Job.lineOk, hline, hfin, LineInProgress.empty]

/-- A job that is not composing holds no line (R49, R51). -/
theorem HoldersOk.line_of_idle (h : HoldersOk s) {slot : Nat} (hs : (s.job slot).state = .free ∨ (s.job slot).state = .aborting) :
    (s.job slot).line.fonts = [] ∧ (s.job slot).line.stations = [] := by
  obtain ⟨-, -, -, hfree, -⟩ := h.lineOk slot
  obtain ⟨hg, hh⟩ := hfree hs
  simp [LineInProgress.fonts, LineInProgress.stations, hg, hh, distinct]

theorem HoldersOk.galleyOrder (h : HoldersOk s) (l : List Nat) : HoldersOk { s with galleyOrder := l } := h

theorem HoldersOk.openJob (h : HoldersOk s) (slot id : Nat) (p : OpenParams) : HoldersOk (openJobEffect slot id p s).1 := by
  simp only [openJobEffect]
  split
  · exact h
  · split
    · exact h
    · split
      · exact h
      · next hst =>
        obtain ⟨h1, h2⟩ := h.line_of_idle (slot := slot) (Or.inl (by simpa using hst))
        exact HoldersOk.galleyOrder (h.onJob_emptied h1 h2 (fun _ => _) rfl rfl) _

theorem HoldersOk.sendText (h : HoldersOk s) (slot : Nat) (text : List Byte) : HoldersOk (sendTextEffect slot text s).1 := by
  simp only [sendTextEffect]
  split
  · exact h
  · split
    · exact h
    · next hst =>
      have hact : (s.job slot).state = .active := by simpa using hst
      have hfin : (s.job slot).finished = false := by
        obtain ⟨-, -, -, -, hfin⟩ := h.lineOk slot
        by_contra hf
        rw [(hfin (by simpa using hf)).1] at hact
        exact absurd hact (by decide)
      have h1 := h.onJob_sameHold slot (fun j => { j with text := j.text ++ text }) hfin ⟨rfl, rfl, rfl, rfl, rfl⟩
      split
      · exact h
      · split
        · exact h1.setStatus slot _
        · exact h1

theorem HoldersOk.closeJob (h : HoldersOk s) (slot id : Nat) : HoldersOk (closeJobEffect slot id s).1 := by
  simp only [closeJobEffect]
  split
  · exact h
  · split
    · exact h
    · next hst =>
      simp only [Bool.or_eq_true, bne_iff_ne, not_or, not_not] at hst
      obtain ⟨hheld, hpar, hone, -, hfin⟩ := h.lineOk slot
      have hnot : (s.job slot).finished = false := by
        by_contra hf
        have h1 := (hfin (by simpa using hf)).1
        rw [hst.1] at h1
        exact absurd h1 (by decide)
      have hclosed : HoldersOk (s.onJob slot fun j => ({ j with state := .closing } : Job).exhaust) := by
        obtain ⟨e1, e2, e3, e4, e5⟩ := Job.sameHold_exhaust { s.job slot with state := .closing }
        refine h.onJob slot _ (fun _ => ?_) (fun _ => ?_) fun _ _ => ?_
        · simp only [LineInProgress.fonts, e1, e3]
        · simp only [LineInProgress.stations, e1, e3]
        · refine ⟨by rw [e1, e3]; exact hheld, by rw [e1, e2]; exact hpar, by rw [e1]; exact hone, ?_, ?_⟩
          · rw [e4]; rintro (hc | hc) <;> exact JobState.noConfusion hc
          · rw [e5]; exact fun hf => Bool.noConfusion (hf.symm.trans hnot)
      exact (hclosed.finishComposition slot).restatus slot

/-! ### Entries that leave -/

/-- An entry not in flight leaves the queue (R10, R25). -/
theorem HoldersOk.removeEntry (h : HoldersOk s) {e : Entry} (he : e ∈ s.queue.entries) (hne : e.expo ≠ .inFlight) :
    HoldersOk (s.removeEntry e) := by
  obtain ⟨hl, -⟩ := (holdersOk_iff s).1 h
  have hst : ∀ n, n ∈ (if e.expo = .done then [] else e.body.stations) ↔ e.expo ≠ .done ∧ n ∈ e.body.stations := by
    intro n; split <;> simp [*]
  have hledger := hl.without he hst
  have heq : s.removeEntry e =
      ((s.onQueue fun q => { q with entries := q.entries.filter fun x => decide (x.serial ≠ e.serial) }).onFonts e.body.fonts
        fun r => { r with entryPart := r.entryPart - 1 }).onStations (if e.expo = .done then [] else e.body.stations)
        fun st => { st with pins := st.pins - 1 } := by
    rw [removeEntry_eq]
    split
    · rw [← foldl_onStation _ List.nodup_nil]; rfl
    · rfl
  rw [heq]
  generalize (if e.expo = .done then [] else e.body.stations) = l at hledger ⊢
  refine h.of_ledger hledger rfl rfl (fun n st => by split <;> exact ⟨rfl, rfl⟩) (fun n hn hp hc _ => ?_) rfl
    fun x hx hin => ⟨x, List.mem_filter.2 ⟨hx, ?_⟩, rfl, hin⟩
  · split
    · exact ⟨by show (s.station n).pins - 1 = 0; omega, hc⟩
    · exact ⟨hp, hc⟩
  · refine decide_eq_true fun hser => hne ?_
    rw [← List.inj_on_of_nodup_map hl.serials hx he hser]; exact hin

theorem removeEntry_entries (s : State) (e : Entry) :
    (s.removeEntry e).queue.entries = s.queue.entries.filter (·.serial != e.serial) := by
  have hrefs : ∀ (u : State) (l : List Nat), (u.dropEntryRefs l).queue = u.queue := fun u l => by simp
  have hpins : ∀ (u : State) (l : List Nat), (u.dropPins l).queue = u.queue := fun u l => by simp
  simp only [State.removeEntry]
  split
  · rw [hrefs]; rfl
  · rw [hpins, hrefs]; rfl

/-- Entries with distinct serials, none in flight, leave one after another. -/
theorem HoldersOk.removeAll (h : HoldersOk s) {f : State → Entry → State}
    (hf : ∀ (u : State) (e : Entry), HoldersOk (u.removeEntry e) → HoldersOk (f u e))
    (hq : ∀ (u : State) (e : Entry), (f u e).queue.entries = (u.removeEntry e).queue.entries)
    {l : List Entry} (hl : ∀ e ∈ l, e ∈ s.queue.entries ∧ e.expo ≠ .inFlight) (hnd : (l.map (·.serial)).Nodup) :
    HoldersOk (l.foldl f s) := by
  induction l generalizing s with
  | nil => exact h
  | cons e l ih =>
    obtain ⟨hnot, hnd⟩ := List.nodup_cons.1 hnd
    obtain ⟨he, hne⟩ := hl e (by simp)
    refine ih (hf s e (h.removeEntry he hne)) (fun x hx => ⟨?_, (hl x (by simp [hx])).2⟩) hnd
    rw [hq, removeEntry_entries]
    refine List.mem_filter.2 ⟨(hl x (by simp [hx])).1, bne_iff_ne.2 fun hser => hnot ?_⟩
    exact List.mem_map.2 ⟨x, hx, hser⟩

theorem HoldersOk.serials_filter (h : HoldersOk s) (p : Entry → Bool) : ((s.queue.entries.filter p).map (·.serial)).Nodup := by
  obtain ⟨hl, -⟩ := (holdersOk_iff s).1 h
  exact hl.serials.sublist (List.filter_sublist.map _)

theorem HoldersOk.recomputeHeads (h : HoldersOk s) : HoldersOk s.recomputeHeads := by
  obtain ⟨hl, hserve, hturret, hx, hfl⟩ := (holdersOk_iff s).1 h
  exact (holdersOk_iff _).2 ⟨hl, hserve, hturret.of_turret rfl, hx, hfl⟩

theorem HoldersOk.abortJob (h : HoldersOk s) (slot id : Nat) : HoldersOk (abortJobEffect slot id s).1 := by
  simp only [abortJobEffect]
  split
  · exact h
  · next hslot =>
    have hslot : slot < 4 := by omega
    split
    · exact h
    · have hcancel : HoldersOk ((s.cancellable slot).foldl State.cancelEntry (s.discardLine slot)) := by
        refine (h.discardLine hslot).removeAll (fun u e hu => ?_) (fun u e => ?_) (fun e he => ?_) (h.serials_filter _)
        · simp only [State.cancelEntry]; split <;> exact hu
        · simp only [State.cancelEntry]; split <;> rfl
        · have hm := List.mem_filter.1 he
          simp only [Bool.and_eq_true, beq_iff_eq] at hm
          have hqueue : (s.discardLine slot).queue = s.queue := by simp
          rw [hqueue, hm.2.2]
          exact ⟨hm.1, by decide⟩
      generalize hu : (s.cancellable slot).foldl State.cancelEntry (s.discardLine slot) = u at hcancel
      have hline : (u.job slot).line = LineInProgress.empty := by
        have hjobs : u.jobs = (s.discardLine slot).jobs := by
          rw [← hu]; exact foldl_keeps (P := State.jobs) (by simp) _ _
        rw [State.job, hjobs, ← State.job, State.discardLine, State.onLine, State.job_onJob_self _ _ (by simpa [h.jobs4] using hslot)]
      have hjob : ∀ m : Bool, HoldersOk (u.onJob slot fun j =>
          { j with state := .aborting, status := .waitingText, finished := false, text := [], paragraphMark := false,
                   markPending := m }) := fun m =>
        hcancel.onJob_emptied (by simp [hline]) (by simp [hline]) _ hline rfl
      have hend : ∀ {v : State}, HoldersOk v → HoldersOk (v.testLow.recomputeHeads.offerMark slot) := by
        intro v hv
        have hv' : HoldersOk v.testLow.recomputeHeads := HoldersOk.recomputeHeads hv
        simp only [State.offerMark]
        split
        · next hm => exact hv'.append_of_runs_nil hslot rfl (by simp only [Bool.and_eq_true] at hm; exact hm.2)
        · exact hv'
      refine hend ?_
      split
      · exact HoldersOk.onEngine (hjob _) (fun _ => { serving := none, pointer := (slot + 1) % 4 }) (by simp)
      · exact hjob _

theorem HoldersOk.reactFree (h : HoldersOk s) {t : State} (ht : s.reactFree = some t) : HoldersOk t := by
  obtain ⟨slot, hslot, rfl⟩ := Option.map_eq_some_iff.1 ht
  have hfree := List.find?_some hslot
  simp only [State.freeable, Bool.and_eq_true, Bool.or_eq_true, beq_iff_eq] at hfree
  have hempty : (s.job slot).line.fonts = [] ∧ (s.job slot).line.stations = [] := by
    rcases hfree.1 with ⟨-, hfin⟩ | ⟨hst, -⟩
    · obtain ⟨-, -, -, -, hdone⟩ := h.lineOk slot
      have hisEmpty := (hdone hfin).2.2
      simp only [LineInProgress.isEmpty, Bool.and_eq_true, List.isEmpty_iff, Option.isNone_iff_eq_none] at hisEmpty
      obtain ⟨⟨⟨⟨⟨⟨⟨hg, -⟩, -⟩, -⟩, -⟩, -⟩, -⟩, hh⟩ := hisEmpty
      simp [LineInProgress.fonts, LineInProgress.stations, hg, hh, distinct]
    · exact h.line_of_idle (Or.inr hst)
  have hslot : ∀ {u : State}, HoldersOk u → u.job slot = s.job slot → HoldersOk (u.onJob slot fun j => { Job.free with
      id := j.id, lineNumber := j.lineNumber, consecutive := j.consecutive, linesSet := j.linesSet,
      hyphenated := j.hyphenated, looseLines := j.looseLines, missingChars := j.missingChars,
      ignoredBytes := j.ignoredBytes, clampedCodes := j.clampedCodes }) := fun hu hj =>
    hu.onJob_emptied (by rw [hj]; exact hempty.1) (by rw [hj]; exact hempty.2) _ rfl rfl
  simp only [State.freeJob]
  split
  · exact hslot (u := { retireWhere (isJobWord slot (s.job slot).id) s with galleyOrder := _ }) h rfl
  · exact hslot (h.galleyOrder _) rfl

end

end Sys2Proof.Machine
end

section
/-! HoldersOk through the reports of exposure and proof done, and the exposure of an entry. -/

namespace Sys2Proof.Machine

open Sys2Proof

theorem mapIdx_nil_mem (l : List Station) (f : Station → Station) : (l.mapIdx fun n st => if n ∈ ([] : List Nat) then f st else st) = l :=
  List.ext_getElem? fun m => by simp

section
variable {s : State}

/-! ### Reports -/

theorem StandingOk.releaseIfDone (h : StandingOk s) (k : Nat) : StandingOk (s.releaseIfDone k) := by
  cases hf : s.queue.find k with
  | none => rwa [releaseIfDone_of_none hf]
  | some e =>
    cases hr : e.releasable with
    | false => rwa [releaseIfDone_of_kept hf hr]
    | true =>
      rw [releaseIfDone_of_releasable hf hr]
      obtain ⟨he, rfl⟩ := mem_of_queue_find hf
      obtain ⟨hdone, -⟩ := (releasable_iff e).1 hr
      have hledger := h.1.without he (l := []) (by simp [hdone])
      rw [mapIdx_nil_mem] at hledger
      exact ⟨hledger, h.2.1, h.2.2.of_turret rfl⟩

theorem Body.exposed_runs (spoiled clamped : Bool) (b : Body) : (if spoiled then b.spoil else b.clamp clamped).runs = b.runs := by
  cases spoiled <;> cases b <;> rfl

/-- The exposure of an entry is reported done, once (R25, R136). -/
theorem StandingOk.exposureDone (h : StandingOk s) {k : Nat} {e : Entry} (he : e ∈ s.queue.entries) (hk : e.serial = k)
    (hne : e.expo ≠ .done) (spoiled clamped : Bool) : StandingOk (s.exposureDone k spoiled clamped) := by
  have hfind : s.queue.find k = some e := by
    cases hf : s.queue.find k with
    | none => exact absurd hk (by simpa using List.find?_eq_none.1 hf e he)
    | some x =>
      obtain ⟨hx, hxk⟩ := mem_of_queue_find hf
      rw [List.inj_on_of_nodup_map h.1.serials hx he (hxk.trans hk.symm)]
  rw [exposureDone_of_some hfind]
  refine StandingOk.releaseIfDone ?_ k
  have hfonts : ∀ x : Entry, (x.exposed spoiled clamped).body.fonts = x.body.fonts := fun x => by
    simp only [Body.fonts, Entry.exposed, Body.exposed_runs]
  have hstations : ∀ x : Entry, (x.exposed spoiled clamped).body.stations = x.body.stations := fun x => by
    simp only [Body.stations, Entry.exposed, Body.exposed_runs]
  have hledger := h.1.modifyEntry he (m := Entry.exposed spoiled clamped) (fun _ => rfl) hfonts hstations (l := e.body.stations)
    (fun n => by
      rw [show (e.exposed spoiled clamped).expo = .done from rfl, bne_iff_ne.2 hne, Bool.true_and, List.contains_eq_mem]
      rfl)
  refine h.of_ledger (f := fun n st => if n ∈ e.body.stations then { st with pins := st.pins - 1 } else st) ?_ rfl rfl
    (fun n st => by split <;> exact ⟨rfl, rfl⟩) fun n hn hp hc _ => ?_
  · rw [State.LedgerOk, State.exposureReported, Queue.modify_entries]
    exact hledger
  · split
    · exact ⟨by show (s.station n).pins - 1 = 0; omega, hc⟩
    · exact ⟨hp, hc⟩

/-- The proof progress of entries moves (R137, R181). -/
theorem HoldersOk.modifyProof (h : HoldersOk s) (k : Nat) (p : ProofProgress) :
    HoldersOk (s.onQueue fun q => q.modify k fun e => { e with proof := p }) := by
  obtain ⟨hs, hx, hfl⟩ := (holdersOk_iff_standing s).1 h
  by_cases he : ∃ e ∈ s.queue.entries, e.serial = k
  · obtain ⟨e, he, rfl⟩ := he
    have hledger := hs.1.modifyEntry he (m := fun e => { e with proof := p }) (fun _ => rfl) (fun _ => rfl) (fun _ => rfl)
      (l := []) (by simp)
    rw [mapIdx_nil_mem] at hledger
    have hent : (s.onQueue fun q => q.modify e.serial fun e => { e with proof := p }).queue.entries =
        s.queue.entries.map fun x => if x.serial = e.serial then { x with proof := p } else x := Queue.modify_entries _ _ _
    refine (holdersOk_iff_standing _).2 ⟨⟨by rw [State.LedgerOk, hent]; exact hledger, hs.2.1, hs.2.2.of_turret rfl⟩, hx,
      fun fl hflight => ?_⟩
    obtain ⟨x, hx, hser, hin⟩ := hfl fl hflight
    rw [hent]
    refine ⟨_, List.mem_map_of_mem hx, ?_, ?_⟩ <;> split <;> assumption
  · have : (s.queue.modify k fun e => { e with proof := p }) = s.queue := by
      rw [Queue.modify]
      have : (s.queue.entries.map fun e => if e.serial == k then { e with proof := p } else e) = s.queue.entries := by
        conv_rhs => rw [← List.map_id s.queue.entries]
        refine List.map_congr_left fun x hx => ?_
        have : x.serial ≠ k := fun hxk => he ⟨x, hx, hxk⟩
        simp [this]
      rw [this]
    rw [State.onQueue, this]
    exact h

theorem releaseIfDone_expo (s : State) (k : Nat) : (s.releaseIfDone k).expo = s.expo := by simp

/-- The release of one entry leaves every entry whose exposure is not done. -/
theorem mem_releaseIfDone {k : Nat} {e : Entry} (h : HoldersOk s) (he : e ∈ s.queue.entries) (hne : e.expo ≠ .done) :
    e ∈ (s.releaseIfDone k).queue.entries := by
  obtain ⟨hl, -⟩ := (holdersOk_iff s).1 h
  cases hf : s.queue.find k with
  | none => rwa [releaseIfDone_of_none hf]
  | some x =>
    cases hr : x.releasable with
    | false => rwa [releaseIfDone_of_kept hf hr]
    | true =>
      rw [releaseIfDone_of_releasable hf hr]
      obtain ⟨hx, rfl⟩ := mem_of_queue_find hf
      refine List.mem_filter.2 ⟨he, decide_eq_true fun hser => hne ?_⟩
      rw [List.inj_on_of_nodup_map hl.serials he hx hser]
      exact ((releasable_iff x).1 hr).1

theorem HoldersOk.releaseIfDone (h : HoldersOk s) (k : Nat) : HoldersOk (s.releaseIfDone k) := by
  obtain ⟨hs, hx, hfl⟩ := (holdersOk_iff_standing s).1 h
  refine (holdersOk_iff_standing _).2 ⟨hs.releaseIfDone k, by rwa [ExpoOk, releaseIfDone_expo], fun fl hflight => ?_⟩
  rw [releaseIfDone_expo] at hflight
  obtain ⟨e, he, hser, hin⟩ := hfl fl hflight
  exact ⟨e, mem_releaseIfDone h he (by rw [hin]; decide), hser, hin⟩

theorem HoldersOk.proofDone (h : HoldersOk s) (k : Nat) : HoldersOk (s.proofDone k) := by
  simp only [State.proofDone]
  split
  · exact h
  · split
    · exact (h.modifyProof k _).releaseIfDone k
    · exact h

theorem HoldersOk.lineSent (h : HoldersOk s) : HoldersOk s.lineSent := by
  simp only [State.lineSent]
  split
  · exact h
  · split
    · exact HoldersOk.proofDone (s := State.onProof (s.onProof Proof.dropHead) _) h _
    · exact h
    · exact h

theorem HoldersOk.proofByteSent (h : HoldersOk s) : HoldersOk (proofByteSentEffect s) := by
  simp only [proofByteSentEffect]
  split
  · exact h
  · exact h
  · split
    · exact h
    · split
      · exact HoldersOk.lineSent (s := State.onProof (s.onProof _) _) h
      · exact h

theorem HoldersOk.takeEntry (h : HoldersOk s) (e : Entry) : HoldersOk (s.takeEntry e) :=
  HoldersOk.modifyProof (s := s.onProof _) h e.serial _

/-! ### The exposure's end -/

/-- The entry of a flight is present and IN FLIGHT. -/
def State.carries (s : State) (fl : Flight) : Prop := ∃ e ∈ s.queue.entries, e.serial = fl.serial ∧ e.expo = .inFlight

theorem StandingOk.onTurret_lineOpen (h : StandingOk s) (f : Turret → Turret)
    (hf : ∀ t : Turret, (f t).stations = t.stations ∧ (f t).position = t.position ∧ (f t).motion = t.motion ∧ (f t).pass = t.pass ∧
      (f t).exchange = t.exchange ∧ (f t).read = t.read) : StandingOk (s.onTurret f) := by
  obtain ⟨h1, h2, h3, h4, h5, h6⟩ := hf s.turret
  have hst : ∀ n, (s.onTurret f).station n = s.station n := fun n => by
    rw [State.station, State.onTurret]; dsimp only; rw [h1]; rfl
  refine ⟨by rw [State.LedgerOk, State.onTurret]; dsimp only; rw [h1]; exact h.1, h.2.1, h.2.2.of_counts h2 h3 h4 h5 h6
    (fun n _ => by rw [hst]) (fun n _ => by rw [hst]) fun n _ _ hp hc => by rw [hst]; exact ⟨hp, hc⟩⟩

theorem StandingOk.lineEnd (h : StandingOk s) : StandingOk (s.onTurret Turret.lineEnd) :=
  h.onTurret_lineOpen _ fun t => by
    simp only [Turret.lineEnd]; split <;> exact ⟨rfl, rfl, rfl, rfl, rfl, rfl⟩

/-- An entry's exposure ends with no entry in flight. -/
theorem HoldersOk.of_standing (h : StandingOk s) (hfl : s.expo.flight = none) (hst : s.expo.state.inFlight = false)
    (hstops : s.expo.state ≠ .stopped → s.expo.stops = Stops.none) : HoldersOk s :=
  (holdersOk_iff_standing s).2 ⟨h, ⟨by simp [hfl, hst], hstops⟩, by simp [hfl]⟩

theorem StandingOk.cleanEnd (h : StandingOk s) (hstops : s.expo.stops = Stops.none) : HoldersOk s.cleanEnd := by
  simp only [State.cleanEnd]
  split
  · exact HoldersOk.of_standing (s := State.raise (State.onExpo (s.onExpo _) _) _) h rfl rfl fun _ => hstops
  · exact HoldersOk.of_standing (s := State.onExpo (s.onExpo _) _) h rfl rfl fun _ => hstops

theorem StandingOk.stoppedEnd (h : StandingOk s) (fl : Flight) (cover lamp jam : Bool) : HoldersOk (s.stoppedEnd fl cover lamp jam) :=
  HoldersOk.of_standing (s := State.onExpo s _) h rfl rfl fun hne => absurd rfl hne

/-- While an entry is in flight there are no stop reasons (R154). -/
theorem HoldersOk.flight (h : HoldersOk s) {fl : Flight} (hfl : s.expo.flight = some fl) :
    StandingOk s ∧ s.carries fl ∧ s.expo.state.inFlight = true ∧ s.expo.stops = Stops.none := by
  obtain ⟨hs, ⟨hiff, hstops⟩, hin⟩ := (holdersOk_iff_standing s).1 h
  have hst : s.expo.state.inFlight = true := by rw [← hiff, hfl]; rfl
  exact ⟨hs, hin fl hfl, hst, hstops fun hx => by rw [hx] at hst; exact absurd hst (by decide)⟩

theorem exposureDone_expo (s : State) (k : Nat) (a b : Bool) : (s.exposureDone k a b).expo = s.expo := by simp

theorem StandingOk.reported (h : StandingOk s) {fl : Flight} (hc : s.carries fl) (a b : Bool) :
    StandingOk (s.exposureDone fl.serial a b) := by
  obtain ⟨e, he, hser, hin⟩ := hc
  exact h.exposureDone he hser (by rw [hin]; decide) a b

theorem StandingOk.lineExposedDelay (h : StandingOk s) : StandingOk s.lineExposedDelay := by
  simp only [State.lineExposedDelay]; split <;> exact h

theorem lineExposedDelay_expo (s : State) : s.lineExposedDelay.expo = s.expo := by simp

theorem StandingOk.lineDone (h : StandingOk s) {fl : Flight} (hc : s.carries fl) (hstops : s.expo.stops = Stops.none) :
    HoldersOk (s.lineDone fl) := by
  have h1 := (h.reported hc false false).lineEnd
  refine StandingOk.cleanEnd (StandingOk.lineExposedDelay (s := State.onExpo _ _) h1) ?_
  rw [lineExposedDelay_expo]
  show (s.exposureDone fl.serial false false).expo.stops = _
  rw [exposureDone_expo]; exact hstops

theorem StandingOk.abandon (h : StandingOk s) {fl : Flight} (hc : s.carries fl) (cover lamp : Bool) :
    HoldersOk (s.abandon fl cover lamp) := by
  have h1 := (h.reported hc true false).lineEnd
  exact StandingOk.stoppedEnd (s := State.onExpo (State.onTurret _ _) _) h1 fl cover lamp false

theorem StandingOk.operationEnd (h : StandingOk s) {fl : Flight} (hc : s.carries fl) (hstops : s.expo.stops = Stops.none)
    (clamped jam : Bool) : HoldersOk (s.operationEnd fl clamped jam) := by
  simp only [State.operationEnd]
  split
  · exact (h.reported hc false clamped).stoppedEnd fl false false jam
  · exact (h.reported hc false clamped).cleanEnd (by rw [exposureDone_expo]; exact hstops)

/-- The exposure progress of an entry moves between WAITING and IN FLIGHT (R145, R147). -/
theorem StandingOk.modifyExpo (h : StandingOk s) {e : Entry} (he : e ∈ s.queue.entries) (hne : e.expo ≠ .done) {x : ExpoProgress}
    (hx : x ≠ .done) : StandingOk (s.onQueue fun q => q.modify e.serial fun e => { e with expo := x }) := by
  have hledger := h.1.modifyEntry he (m := fun e => { e with expo := x }) (fun _ => rfl) (fun _ => rfl) (fun _ => rfl)
    (l := []) (by simp [bne_iff_ne.2 hne, bne_iff_ne.2 hx])
  rw [mapIdx_nil_mem] at hledger
  exact ⟨by rw [State.LedgerOk]; exact (Queue.modify_entries _ _ _) ▸ hledger, h.2.1, h.2.2.of_turret rfl⟩

theorem StandingOk.undispatch (h : StandingOk s) {fl : Flight} (hc : s.carries fl) : HoldersOk (s.undispatch fl) := by
  obtain ⟨e, he, hser, hin⟩ := hc
  have h1 := h.modifyExpo he (x := .waiting) (by rw [hin]; decide) (by decide)
  rw [hser] at h1
  exact h1.lineEnd.stoppedEnd fl false false true

/-! ### Runs and moves -/

/-- The exposure state moves with its entry still in flight. -/
theorem HoldersOk.onExpo_flight (h : HoldersOk s) {fl fl' : Flight} (hfl : s.expo.flight = some fl) (f : Exposure → Exposure)
    (hf : (f s.expo).flight = some fl') (hser : fl'.serial = fl.serial) (hst : (f s.expo).state.inFlight = true)
    (hstops : (f s.expo).stops = s.expo.stops) : HoldersOk (s.onExpo f) := by
  obtain ⟨hs, ⟨e, he, hes, hin⟩, -, hnone⟩ := h.flight hfl
  refine (holdersOk_iff_standing _).2 ⟨hs, ⟨?_, fun _ => hstops.trans hnone⟩, fun x hx => ?_⟩
  · show (f s.expo).flight.isSome = (f s.expo).state.inFlight
    rw [hf, hst]; rfl
  · obtain rfl : fl' = x := Option.some.inj (hf.symm.trans hx)
    exact ⟨e, he, hes.trans hser.symm, hin⟩

theorem HoldersOk.startRun (h : HoldersOk s) {fl fl' : Flight} (hfl : s.expo.flight = some fl) (hser : fl'.serial = fl.serial) :
    HoldersOk (s.startRun fl') := by
  simp only [State.startRun]
  split
  · exact h
  · exact h.onExpo_flight hfl _ rfl hser rfl rfl

theorem HoldersOk.leadEnd (h : HoldersOk s) {fl : Flight} (hfl : s.expo.flight = some fl) : HoldersOk (s.leadEnd fl) := by
  obtain ⟨hs, hc, -⟩ := h.flight hfl
  simp only [State.leadEnd]
  split
  · exact hs.abandon hc false false
  · exact h.startRun hfl rfl

theorem HoldersOk.judgeLow (h : HoldersOk s) : HoldersOk s.judgeLow := HoldersOk.raiseIf (s := s.onFilm _) h _ _

theorem HoldersOk.operationEnd (h : HoldersOk s) {fl : Flight} (hfl : s.expo.flight = some fl) (clamped jam : Bool) :
    HoldersOk (s.operationEnd fl clamped jam) := by
  obtain ⟨hs, hc, -, hstops⟩ := h.flight hfl
  exact hs.operationEnd hc hstops clamped jam

theorem HoldersOk.moveVerified (h : HoldersOk s) : HoldersOk s.moveVerified := by
  have hfilm : ∀ f : Film, HoldersOk ((s.onFilm fun _ => f).judgeLow) := fun f => HoldersOk.judgeLow (s := s.onFilm _) h
  simp only [State.moveVerified]
  split
  · split
    · next hfl => exact (hfilm _).leadEnd hfl
    · exact hfilm _
  · split
    · next hfl => exact (hfilm _).operationEnd hfl _ _
    · exact hfilm _
  · split
    · next hfl => exact ((hfilm _).raiseIf _ _).operationEnd hfl _ _
    · exact (hfilm _).raiseIf _ _
  · exact hfilm _
  · exact hfilm _
  · exact h

/-- A stop outside an entry's exposure (R154). -/
theorem HoldersOk.stop (h : HoldersOk s) (hst : s.expo.state.inFlight = false) (cover lamp filmOut jam : Bool) :
    HoldersOk (s.onExpo fun x => x.stop cover lamp filmOut jam) := by
  obtain ⟨hs, ⟨hiff, -⟩, -⟩ := (holdersOk_iff_standing s).1 h
  have hnone : s.expo.flight = none := by rw [hst] at hiff; simpa using hiff
  exact HoldersOk.of_standing (s := s.onExpo _) hs hnone rfl fun hne => absurd rfl hne

theorem HoldersOk.hostJam (h : HoldersOk s) : HoldersOk s.hostJam := by
  by_cases hst : (s.expo.state == .idle || s.expo.state == .waitingLamp || s.expo.state == .stopped) = true
  · have : s.hostJam = s.onExpo fun x => x.stop false false false true := by simp only [State.hostJam, State.onExpo, hst, if_true]
    rw [this]
    refine h.stop ?_ _ _ _ _
    simp only [Bool.or_eq_true, beq_iff_eq] at hst
    rcases hst with (hst | hst) | hst <;> rw [hst] <;> rfl
  · have : s.hostJam = s := by simp only [State.hostJam, State.onExpo, hst]; rfl
    rwa [this]

theorem HoldersOk.tellJam (h : HoldersOk s) (m : Mover) : HoldersOk (s.tellJam m) := by
  simp only [State.tellJam]
  split
  · next hfl =>
    obtain ⟨hs, hc, -⟩ := h.flight hfl
    exact hs.undispatch hc
  · next hfl => exact h.operationEnd hfl _ _
  · next hfl => exact (h.raiseIf _ _).operationEnd (by simpa using hfl) _ _
  · next hfl => exact h.operationEnd hfl _ _
  · exact h.hostJam
  · exact h

theorem HoldersOk.moveJam (h : HoldersOk s) : HoldersOk s.moveJam := HoldersOk.tellJam (s := State.raise (s.onFilm _) _) h _

theorem HoldersOk.beginMove (h : HoldersOk s) (m : Mover) (target : Nat) (feed : Bool) : HoldersOk (s.beginMove m target feed) := by
  have hf : HoldersOk (s.onFilm fun f => { f with mover := m, target := some target, trims := 0 }) := h
  simp only [State.beginMove]
  split
  · exact hf.moveJam
  · split
    · exact hf.moveVerified
    · exact h

end

end Sys2Proof.Machine
end

section
/-! HoldersOk through the events and requests of the film, the lamp and the exposure. -/

namespace Sys2Proof.Machine

open Sys2Proof

section
variable {s : State}

/-! ### Film events -/

theorem HoldersOk.driveStop (h : HoldersOk s) (reading : Nat) : HoldersOk (driveStopEffect reading s) := by
  have hf : HoldersOk (s.onFilm fun f => { f with measured := reading }) := h
  simp only [driveStopEffect]
  split
  · split
    · exact hf.moveVerified
    · split
      · exact h
      · exact hf.moveJam
  · exact h

theorem HoldersOk.filmPresentChange (h : HoldersOk s) (present : Bool) : HoldersOk (filmPresentChangeEffect present s) := by
  have hf : HoldersOk (s.onFilm fun f => { f with present := present }) := h
  simp only [filmPresentChangeEffect]
  split
  · exact hf.moveJam
  · exact hf

/-- Stop reasons leave the set (R154). -/
theorem HoldersOk.onStops (h : HoldersOk s) (f : Stops → Stops) (hf : f Stops.none = Stops.none) :
    HoldersOk (s.onExpo fun x => { x with stops := f x.stops }) := by
  obtain ⟨hs, ⟨hiff, hstops⟩, hfl⟩ := (holdersOk_iff_standing s).1 h
  exact (holdersOk_iff_standing _).2 ⟨hs, ⟨hiff, fun hne => (congrArg f (hstops hne)).trans hf⟩, hfl⟩

theorem HoldersOk.cutterHome (h : HoldersOk s) : HoldersOk (cutterHomeEffect s) := by
  simp only [cutterHomeEffect]
  split
  · have hcut : ∀ f : Film → Film, HoldersOk (((s.onFilm f).raise .cutDone).judgeLow) := fun f =>
      HoldersOk.judgeLow (s := State.raise (s.onFilm f) _) h
    split
    · next hfl => exact (hcut _).operationEnd hfl false false
    · exact (hcut _).onStops (fun x => { x with jam := false }) rfl
    · exact hcut _
  · exact h

theorem HoldersOk.cutterTimeout (h : HoldersOk s) : HoldersOk (cutterTimeoutEffect s) := by
  simp only [cutterTimeoutEffect]
  split
  · exact HoldersOk.tellJam (s := State.raise (s.onFilm _) _) h _
  · exact h

/-! ### Dispatch -/

theorem HoldersOk.onTurret_lineOpen (h : HoldersOk s) (f : Turret → Turret)
    (hf : ∀ t : Turret, (f t).stations = t.stations ∧ (f t).position = t.position ∧ (f t).motion = t.motion ∧ (f t).pass = t.pass ∧
      (f t).exchange = t.exchange ∧ (f t).read = t.read) : HoldersOk (s.onTurret f) := by
  obtain ⟨hs, hfl⟩ := (holdersOk_iff_standing s).1 h
  exact (holdersOk_iff_standing _).2 ⟨hs.onTurret_lineOpen f hf, hfl⟩

theorem HoldersOk.putInFlight (h : HoldersOk s) {e : Entry} (he : e ∈ s.queue.entries) (hw : e.expo = .waiting)
    (hst : s.expo.state = .idle ∨ s.expo.state = .waitingLamp) (gap : Option Nat) : HoldersOk (s.putInFlight e gap) := by
  obtain ⟨hs, ⟨-, hstops⟩, -⟩ := (holdersOk_iff_standing s).1 h
  have hnone : s.expo.stops = Stops.none := hstops (by rcases hst with hst | hst <;> rw [hst] <;> decide)
  have h1 := hs.modifyExpo he (x := .inFlight) (by rw [hw]; decide) (by decide)
  have hin : ∀ k : Kind, (if k == .line then ExpoState.leading else .filmOperation).inFlight = true := fun k => by cases k <;> rfl
  have h2 : HoldersOk (State.onExpo (s.onQueue fun q => q.modify e.serial fun e => { e with expo := .inFlight }) fun x =>
      { x with
        flight := some
          { serial := e.serial, kind := e.body.kind, attributed := e.attributed, run := 0, glyph := 0, leadDone := false,
            selecting := false, coverSeen := false, lampSeen := false }
        state := if e.body.kind == .line then .leading else .filmOperation }) := by
    refine (holdersOk_iff_standing _).2 ⟨h1, ⟨(hin _).symm, fun _ => hnone⟩, fun fl hfl => ?_⟩
    obtain rfl := Option.some.inj hfl
    refine ⟨{ e with expo := .inFlight }, ?_, rfl, rfl⟩
    show _ ∈ (s.queue.modify e.serial fun e => { e with expo := .inFlight }).entries
    rw [Queue.modify_entries]
    exact List.mem_map.2 ⟨e, he, by simp⟩
  simp only [State.putInFlight]
  split
  · exact (h2.onTurret_lineOpen (fun t => { t with lineOpen := true, lineEndDue := false })
      fun t => ⟨rfl, rfl, rfl, rfl, rfl, rfl⟩).beginMove _ _ _
  · split
    · exact h2.beginMove _ _ _
    · exact h2.beginMove _ _ _
  · exact h2.beginMove _ _ _
  · exact h2

theorem HoldersOk.dispatch (h : HoldersOk s) : HoldersOk (dispatchEffect s) := by
  simp only [dispatchEffect]
  split
  · exact h
  · next e he =>
    obtain ⟨k, -, hk⟩ := Option.bind_eq_some_iff.1 he
    obtain ⟨hmem, -⟩ := mem_of_queue_find hk
    split
    · next hc =>
      simp only [Bool.and_eq_true, Bool.or_eq_true, beq_iff_eq] at hc
      obtain ⟨⟨⟨hst, -⟩, hw⟩, -⟩ := hc
      split
      · exact h.putInFlight hmem hw hst none
      · generalize (if s.film.gapDue e then some s.galleyGap else none) = gap
        split
        · exact h.stop (by rcases hst with hst | hst <;> rw [hst] <;> rfl) _ _ _ _
        · exact h.putInFlight hmem hw hst _
    · exact h

/-! ### The lamp -/

theorem HoldersOk.exposureEvent (h : HoldersOk s) (cover lamp : Bool) : HoldersOk (s.exposureEvent cover lamp) := by
  simp only [State.exposureEvent]
  split
  case h_1 hst | h_2 hst | h_3 hst => exact h.stop (by rw [hst]; rfl) cover lamp false false
  case h_4 hst hfl | h_5 hst hfl => exact h.onExpo_flight hfl _ rfl rfl (by rw [hst]; rfl) rfl
  case h_6 hfl | h_7 hfl | h_8 hfl =>
    obtain ⟨hs, hc, -⟩ := h.flight hfl
    exact hs.abandon hc cover lamp
  case h_9 => exact h

theorem HoldersOk.faultLamp (h : HoldersOk s) (r : LampFault) : HoldersOk (s.faultLamp r) :=
  HoldersOk.exposureEvent (s := State.raise (s.onLamp _) _) h false true

theorem HoldersOk.judgeLamp (h : HoldersOk s) : HoldersOk s.judgeLamp := by
  have hw : HoldersOk ((s.onLamp fun l => { l with weak := l.judgeWeak }).raiseIf (!s.lamp.weak && s.lamp.judgeWeak) .lampWeak) :=
    HoldersOk.raiseIf (s := s.onLamp _) h _ _
  simp only [State.judgeLamp]
  split
  · split
    · exact hw.faultLamp _
    · exact hw
  · exact h

theorem HoldersOk.lampReady (h : HoldersOk s) : HoldersOk s.lampReady :=
  (HoldersOk.onStops (s := s.onLamp _) h (fun x => { x with lamp := false }) rfl).judgeLamp

theorem HoldersOk.takeSample (h : HoldersOk s) (sample : Nat) : HoldersOk (s.takeSample sample) := by
  have hl : ∀ f : Lamp → Lamp, HoldersOk (s.onLamp f) := fun _ => h
  simp only [State.takeSample]
  split
  · exact h
  · exact h
  · split
    · exact h
    · split
      · exact (hl _).faultLamp _
      · exact h
  · split
    · exact (hl _).judgeLamp
    · split
      · exact (hl _).faultLamp _
      · exact h

theorem HoldersOk.ignitionExpiry (h : HoldersOk s) : HoldersOk (ignitionExpiryEffect s) := by
  simp only [ignitionExpiryEffect]
  split
  · split
    · exact HoldersOk.lampReady (s := State.raise (s.onLamp _) _) h
    · exact h.faultLamp _
  · exact h

theorem HoldersOk.economyExpiry (h : HoldersOk s) : HoldersOk (economyExpiryEffect s) := by
  simp only [economyExpiryEffect]; split <;> exact h

theorem HoldersOk.recoveryExpiry (h : HoldersOk s) : HoldersOk (recoveryExpiryEffect s) := by
  simp only [recoveryExpiryEffect]
  split
  · exact h.lampReady
  · exact h

theorem HoldersOk.validityExpiry (h : HoldersOk s) : HoldersOk (validityExpiryEffect s) := by
  simp only [validityExpiryEffect]
  split
  · exact h.faultLamp _
  · exact h

/-! ### Flashes -/

/-- The lens, the carriage and the flash move beside the exposure state. -/
theorem HoldersOk.onExpo_beside (h : HoldersOk s) (f : Exposure → Exposure)
    (hf : (f s.expo).flight = s.expo.flight ∧ (f s.expo).state = s.expo.state ∧ (f s.expo).stops = s.expo.stops) :
    HoldersOk (s.onExpo f) := by
  obtain ⟨h1, h2, h3⟩ := hf
  obtain ⟨hs, ⟨hiff, hstops⟩, hfl⟩ := (holdersOk_iff_standing s).1 h
  refine (holdersOk_iff_standing _).2 ⟨hs, ⟨?_, ?_⟩, ?_⟩
  · show (f s.expo).flight.isSome = (f s.expo).state.inFlight
    rw [h1, h2]; exact hiff
  · show (f s.expo).state ≠ .stopped → (f s.expo).stops = Stops.none
    rw [h2, h3]; exact hstops
  · show ∀ fl, (f s.expo).flight = some fl → _
    rw [h1]; exact hfl

theorem HoldersOk.carriageArrival (h : HoldersOk s) : HoldersOk (carriageArrivalEffect s) := by
  simp only [carriageArrivalEffect]
  split
  · split
    · split
      · exact h
      · exact h.onExpo_beside _ ⟨rfl, rfl, rfl⟩
    · exact h
  · exact h

theorem HoldersOk.lensArrival (h : HoldersOk s) : HoldersOk (lensArrivalEffect s) := by
  simp only [lensArrivalEffect]
  split
  · exact h
  · exact h.onExpo_beside _ ⟨rfl, rfl, rfl⟩

theorem HoldersOk.nextGlyph (h : HoldersOk s) {fl : Flight} (hfl : s.expo.flight = some fl) : HoldersOk (s.nextGlyph fl) := by
  obtain ⟨hs, hc, hst, hstops⟩ := h.flight hfl
  simp only [State.nextGlyph]
  split
  · exact h
  · split
    · exact h.onExpo_flight hfl _ rfl rfl hst rfl
    · split
      · exact h.startRun hfl rfl
      · exact hs.lineDone hc hstops

theorem HoldersOk.flashComplete (h : HoldersOk s) (sample : Nat) : HoldersOk (flashCompleteEffect sample s) := by
  simp only [flashCompleteEffect]
  split
  · have h1 := (h.onExpo_beside (fun x => { x with flashing := false }) ⟨rfl, rfl, rfl⟩).takeSample sample
    split
    · exact h1
    · next hfl =>
      split
      · exact h1.nextGlyph hfl
      · exact h1
  · exact h

/-! ### Requests -/

/-- The exposure state moves while no entry is in flight. -/
theorem HoldersOk.onExpo_rest (h : HoldersOk s) (hst : s.expo.state.inFlight = false) {x : ExpoState} (hx : x.inFlight = false)
    (hstops : s.expo.stops = Stops.none) : HoldersOk (s.onExpo fun e => { e with state := x }) := by
  obtain ⟨hs, ⟨hiff, -⟩, -⟩ := (holdersOk_iff_standing s).1 h
  have hnone : s.expo.flight = none := by rw [hst] at hiff; simpa using hiff
  exact HoldersOk.of_standing (s := s.onExpo _) hs hnone hx fun _ => hstops

theorem HoldersOk.stops_none (h : HoldersOk s) (hst : s.expo.state ≠ .stopped) : s.expo.stops = Stops.none := by
  obtain ⟨-, ⟨-, hstops⟩, -⟩ := (holdersOk_iff_standing s).1 h
  exact hstops hst

theorem HoldersOk.holdExposure (h : HoldersOk s) : HoldersOk (holdExposureEffect s).1 := by
  simp only [holdExposureEffect]
  split
  case h_1 hst | h_2 hst => exact h.onExpo_rest (by rw [hst]; rfl) rfl (h.stops_none (by rw [hst]; decide))
  case h_3 | h_4 => exact h
  case h_5 => exact h.onExpo_beside _ ⟨rfl, rfl, rfl⟩

theorem Stops.eq_none_of_isEmpty {x : Stops} (h : x.isEmpty = true) : x = Stops.none := by
  cases x; simp_all [Stops.isEmpty, Stops.none]

theorem HoldersOk.releaseExposure (h : HoldersOk s) : HoldersOk (releaseExposureEffect s).1 := by
  simp only [releaseExposureEffect]
  split
  case h_1 hst | h_2 hst =>
    split
    · exact h
    · next hc =>
      simp only [Bool.or_eq_true, not_or, Bool.not_eq_true', Bool.not_eq_false] at hc
      exact h.onExpo_rest (by rw [hst]; rfl) rfl (Stops.eq_none_of_isEmpty hc.1.1.1)
  case h_3 | h_4 => exact h
  case h_5 => exact h.onExpo_beside _ ⟨rfl, rfl, rfl⟩

theorem HoldersOk.lampOn (h : HoldersOk s) : HoldersOk (lampOnEffect s).1 := by
  simp only [lampOnEffect]; split <;> exact h

theorem HoldersOk.lampOff (h : HoldersOk s) : HoldersOk (lampOffEffect s).1 := by
  simp only [lampOffEffect]
  split
  · exact h
  · split <;> exact h

theorem HoldersOk.setLamp (h : HoldersOk s) (w f timeout : Nat) : HoldersOk (setLampEffect w f timeout s).1 := by
  simp only [setLampEffect]
  split
  · exact h
  · exact HoldersOk.judgeLamp (s := s.onLamp _) h

theorem HoldersOk.loadFilm (h : HoldersOk s) (length : Nat) : HoldersOk (loadFilmEffect length s).1 := by
  simp only [loadFilmEffect]
  split
  · exact h
  · split
    · exact h
    · exact HoldersOk.onStops (HoldersOk.judgeLow (s := s.onFilm _) h) (fun x => { x with filmOut := false, jam := false }) rfl

theorem HoldersOk.feedAndCut (h : HoldersOk s) : HoldersOk (feedAndCutEffect s).1 := by
  simp only [feedAndCutEffect]
  (repeat' split) <;> try exact h
  exact h.beginMove _ _ _

theorem HoldersOk.setLowFilm (h : HoldersOk s) (threshold : Nat) : HoldersOk (setLowFilmEffect threshold s).1 := by
  simp only [setLowFilmEffect]
  split
  · exact h
  · exact HoldersOk.judgeLow (s := s.onFilm _) h

theorem HoldersOk.coverOpened (h : HoldersOk s) : HoldersOk (coverOpenedEffect s) :=
  HoldersOk.exposureEvent (s := State.raise (s.onFilm _) _) h true false

theorem HoldersOk.coverClosed (h : HoldersOk s) : HoldersOk (coverClosedEffect s) :=
  HoldersOk.onStops (s := s.onFilm _) h (fun x => { x with cover := false }) rfl

end

end Sys2Proof.Machine
end

section
/-! The turret under changes of one station's state (R19 to R36). -/

namespace Sys2Proof.Machine

open Sys2Proof

/-- EMPTY, UNKNOWN or MOUNTED. -/
def StationState.calm (x : StationState) : Prop := x ≠ .draining ∧ x ≠ .opened ∧ x ≠ .verifying

section
variable {s t : State}

theorem hatchStation_lt (t : Turret) : t.hatchStation < 8 := by simp only [Turret.hatchStation]; omega

/-- With an exchange station the verification pass has ended, or takes its last step home (R28, R36). -/
theorem TurretOk.pass_of_exchange (h : TurretOk s) {n : Nat} (hx : s.turret.exchange = some n) :
    s.turret.pass = .none ∨ (s.turret.pass = .stepping 8 ∧ s.turret.motion = .rotating .verification 0 ∧ s.turret.read = .none) := by
  obtain ⟨-, -, -, -, -, hpass⟩ := h
  simp only [PassOk] at hpass
  split at hpass
  · next hp => exact Or.inl hp
  · rw [hpass.1] at hx; exact absurd hx (by simp)
  · rw [hpass.1] at hx; exact absurd hx (by simp)
  · rw [hpass.1] at hx; exact absurd hx (by simp)
  · next k hp =>
    obtain ⟨hk, hnone, hread, hmot, -⟩ := hpass
    by_cases hk8 : k < 8
    · rw [hnone hk8] at hx; exact absurd hx (by simp)
    · obtain rfl : k = 8 := by omega
      exact Or.inr ⟨hp, hmot, hread⟩

/-- Outside a rotation of the pass, the pass has ended (R36). -/
theorem TurretOk.pass_none (h : TurretOk s) (hm : ∀ target, s.turret.motion ≠ .rotating .verification target) :
    s.turret.pass = .none ∧ ∀ n, n < 8 → (s.station n).state = .verifying → s.turret.exchange = some n := by
  obtain ⟨-, -, -, -, -, hpass⟩ := h
  simp only [PassOk] at hpass
  split at hpass
  · next hp => exact ⟨hp, hpass.1⟩
  · obtain ⟨target, hmot⟩ := hpass.2.2.1; exact absurd hmot (hm target)
  · obtain ⟨target, hmot⟩ := hpass.2.2.1; exact absurd hmot (hm target)
  · obtain ⟨target, hmot⟩ := hpass.2.2.2.1; exact absurd hmot (hm target)
  · exact absurd hpass.2.2.2.1 (hm _)

theorem TurretOk.exchange_lt (h : TurretOk s) {n : Nat} (hx : s.turret.exchange = some n) : n < 8 := (h.1 n hx).1

/-- A turret that ends its pass, or is beyond it, has every VERIFYING station as its exchange station. -/
theorem passOk_none (hp : t.turret.pass = .none) (hver : ∀ n, n < 8 → (t.station n).state = .verifying → t.turret.exchange = some n)
    (hm : ∀ target, t.turret.motion ≠ .rotating .verification target) : PassOk t := by
  simp only [PassOk, hp]; exact ⟨hver, hm⟩

theorem not_aheadOf_eight (n : Nat) : ¬aheadOf 8 n := by rintro ⟨j, h1, h2, -⟩; omega

theorem aheadOf_succ {k n : Nat} (hk : k < 8) (hn : n < 8) : aheadOf (k + 1) n ↔ aheadOf k n ∧ n ≠ (k + 4) % 8 := by
  constructor
  · rintro ⟨j, h1, h2, rfl⟩
    exact ⟨⟨j, by omega, h2, rfl⟩, by omega⟩
  · rintro ⟨⟨j, h1, h2, rfl⟩, hne⟩
    have : j ≠ k := by rintro rfl; exact hne rfl
    exact ⟨j, by omega, h2, rfl⟩

theorem aheadOf_self {k : Nat} (hk : k < 8) : aheadOf k ((k + 4) % 8) := ⟨k, le_refl _, hk, rfl⟩

/-- The exchange ends with its station settled or returned (R32, R33, R34). -/
theorem TurretOk.settleExchange (h : TurretOk s) {n : Nat} (hx : s.turret.exchange = some n)
    (hm : ∀ target, s.turret.motion ≠ .rotating .exchange target)
    (hst : ∀ m, m < 8 → m ≠ n → t.station m = s.station m) (hcalm : (t.station n).state.calm)
    (hexch : t.turret.exchange = none) (hmot : t.turret.motion = s.turret.motion) (hpos : t.turret.position = s.turret.position)
    (hpass : t.turret.pass = s.turret.pass)
    (hread : t.turret.read = .none ∨ (t.turret.read = s.turret.read ∧ (s.station n).state ≠ .verifying)) : TurretOk t := by
  have hpassOr := h.pass_of_exchange hx
  have hcases : ∀ {P : StationState → Prop} m, m < 8 → P (t.station m).state → m = n ∨ P (s.station m).state := by
    intro P m hm hp
    by_cases hmn : m = n
    · exact Or.inl hmn
    · rw [hst m hm hmn] at hp; exact Or.inr hp
  have hpassok := h
  obtain ⟨-, hopen, -, hrd, -, hp⟩ := h
  obtain ⟨c1, c2, c3⟩ := hcalm
  refine ⟨by simp [hexch], fun m hm hb => ?_, fun m hm hd => ?_, fun hr => ?_, fun target ht => absurd (hmot ▸ ht) (hm target), ?_⟩
  · rcases hcases (P := fun x => x = .draining ∨ x = .opened) m hm hb with rfl | hb'
    · rcases hb with hb | hb
      · exact absurd hb c1
      · exact absurd hb c2
    · have := hopen m hm hb'
      rw [hx, Option.some.injEq] at this
      subst this
      rcases hb with hb | hb
      · exact absurd hb c1
      · exact absurd hb c2
  · rcases hcases (P := fun x => x = .draining) m hm hd with rfl | hd'
    · exact absurd hd c1
    · have := hopen m hm (Or.inl hd')
      rw [hx, Option.some.injEq] at this
      subst this
      exact absurd hd c1
  · rcases hread with hread | ⟨hread, hnv⟩
    · exact absurd hread hr
    · have hver := hrd (hread ▸ hr)
      have : t.turret.hatchStation = s.turret.hatchStation := by simp only [Turret.hatchStation, hpos]
      rw [this, hst _ (hatchStation_lt _) (by rintro hh; rw [hh] at hver; exact hnv hver)]
      exact hver
  · rcases hpassOr with hpn | ⟨hp8, hmot8, hread8⟩
    · refine passOk_none (hpass.trans hpn) (fun m hm hv => ?_) fun target => ?_
      · rcases hcases (P := fun x => x = .verifying) m hm hv with rfl | hv'
        · exact absurd hv c3
        · simp only [PassOk, hpn] at hp
          have := hp.1 m hm hv'
          rw [hx, Option.some.injEq] at this
          subst this
          exact absurd hv c3
      · simp only [PassOk, hpn] at hp
        rw [hmot]; exact hp.2 target
    · simp only [PassOk, hp8] at hp
      obtain ⟨-, -, -, -, hver⟩ := hp
      simp only [PassOk, hpass.trans hp8]
      refine ⟨le_refl _, fun hlt => absurd hlt (by decide), ?_, hmot.trans hmot8, fun m hm => ?_⟩
      · rcases hread with hread | ⟨hread, -⟩
        · exact hread
        · exact hread.trans hread8
      · refine iff_of_false (fun hv => ?_) (not_aheadOf_eight m)
        rcases hcases (P := fun x => x = .verifying) m hm hv with rfl | hv'
        · exact c3 hv
        · exact not_aheadOf_eight m ((hver m hm).1 hv')

/-- The exchange station steps on at the hatch: OPEN at its release, VERIFYING at the closure (R30, R31). -/
theorem TurretOk.stepExchange (h : TurretOk s) {n : Nat} (hx : s.turret.exchange = some n)
    (hrest : s.turret.motion = .atRest) (hhatch : s.turret.position = (n + 4) % 8)
    (hst : ∀ m, m < 8 → m ≠ n → t.station m = s.station m)
    (hnew : (t.station n).state = .opened ∨ (t.station n).state = .verifying)
    (hexch : t.turret.exchange = s.turret.exchange) (hmot : t.turret.motion = s.turret.motion)
    (hpos : t.turret.position = s.turret.position) (hpass : t.turret.pass = s.turret.pass)
    (hread : t.turret.read = .none ∨ (t.station n).state = .verifying) : TurretOk t := by
  obtain ⟨hpn, hver⟩ := h.pass_none (by simp [hrest])
  have hlt := h.exchange_lt hx
  obtain ⟨-, hopen, hprio, hrd, -, -⟩ := h
  have hnd : (t.station n).state ≠ .draining := by rintro hd; rw [hd] at hnew; simp at hnew
  refine ⟨fun m hm => ?_, fun m hm hb => ?_, fun m hm hd => ?_, fun hr => ?_, fun target ht => ?_, ?_⟩
  · obtain rfl : n = m := by rw [hexch, hx] at hm; simpa using hm
    exact ⟨hlt, Or.inr ⟨hnew, hmot.trans hrest, hpos.trans hhatch⟩⟩
  · rw [hexch]
    by_cases hmn : m = n
    · rw [hmn]; exact hx
    · rw [hst m hm hmn] at hb; exact hopen m hm hb
  · have hmn : m ≠ n := by rintro rfl; exact hnd hd
    rw [hst m hm hmn] at hd ⊢
    exact hprio m hm hd
  · have hh : t.turret.hatchStation = n := by simp only [Turret.hatchStation, hpos, hhatch]; omega
    rw [hh]
    exact hread.resolve_left hr
  · rw [hmot, hrest] at ht; exact absurd ht (by simp)
  · refine passOk_none (hpass.trans hpn) (fun m hm hv => ?_) (by rw [hmot, hrest]; simp)
    rw [hexch]
    by_cases hmn : m = n
    · rw [hmn]; exact hx
    · rw [hst m hm hmn] at hv; exact hver m hm hv

/-- A station that takes no part in an exchange or a read changes between EMPTY, UNKNOWN and MOUNTED. -/
theorem TurretOk.recalm (h : TurretOk s) {n : Nat} (hs : (s.station n).state.calm) (ht : (t.station n).state.calm)
    (hst : ∀ m, m < 8 → m ≠ n → t.station m = s.station m)
    (hexch : t.turret.exchange = s.turret.exchange) (hmot : t.turret.motion = s.turret.motion)
    (hpos : t.turret.position = s.turret.position) (hpass : t.turret.pass = s.turret.pass)
    (hread : t.turret.read = s.turret.read) : TurretOk t := by
  have hbusy : ∀ {x : StationState}, (x = .draining ∨ x = .opened ∨ x = .verifying) → ∀ m, m < 8 →
      ((t.station m).state = x ↔ (s.station m).state = x) := by
    intro x hx m hm
    by_cases hmn : m = n
    · subst hmn
      obtain ⟨a1, a2, a3⟩ := hs
      obtain ⟨b1, b2, b3⟩ := ht
      rcases hx with rfl | rfl | rfl
      · exact iff_of_false b1 a1
      · exact iff_of_false b2 a2
      · exact iff_of_false b3 a3
    · rw [hst m hm hmn]
  have hd := fun m hm => hbusy (x := .draining) (Or.inl rfl) m hm
  have ho := fun m hm => hbusy (x := .opened) (Or.inr (Or.inl rfl)) m hm
  have hv := fun m hm => hbusy (x := .verifying) (Or.inr (Or.inr rfl)) m hm
  have hnd : ∀ m, (s.station m).state = .draining → m ≠ n := by rintro m hm rfl; exact hs.1 hm
  obtain ⟨hexchange, hopen, hprio, hrd, hrot, hp⟩ := h
  refine ⟨fun m hm => ?_, fun m hm hb => ?_, fun m hm hb => ?_, fun hr => ?_, fun target htar => ?_, ?_⟩
  · rw [hexch] at hm
    have hlt := (hexchange m hm).1
    rw [hd m hlt, ho m hlt, hv m hlt, hmot, hpos]
    exact hexchange m hm
  · rw [hd m hm, ho m hm] at hb
    rw [hexch]; exact hopen m hm hb
  · have hb' := (hd m hm).1 hb
    rw [hst m hm (hnd m hb')]
    exact hprio m hm hb'
  · have hh : t.turret.hatchStation = s.turret.hatchStation := by simp only [Turret.hatchStation, hpos]
    rw [hh, hv _ (hatchStation_lt _)]
    exact hrd (hread ▸ hr)
  · obtain ⟨m, hm, hb, htm, hpin, hclaim⟩ := hrot target (hmot ▸ htar)
    have hlt := (hexchange m hm).1
    rw [← hst m hlt (hnd m hb)] at hpin hclaim
    exact ⟨m, hexch.trans hm, (hd m hlt).2 hb, htm, hpin, hclaim⟩
  · have hiff : ∀ {p : Prop → Nat → Prop}, (∀ n, n < 8 → p ((s.station n).state = .verifying) n) →
        ∀ n, n < 8 → p ((t.station n).state = .verifying) n := fun hp m hm => by rw [hv m hm]; exact hp m hm
    simp only [PassOk, hpass, hexch, hmot, hpos, hread] at hp ⊢
    split at hp
    · exact ⟨hiff (p := fun v n => v → s.turret.exchange = some n) hp.1, hp.2⟩
    · exact ⟨hp.1, hp.2.1, hp.2.2.1, hiff (p := fun v _ => v) hp.2.2.2⟩
    · exact ⟨hp.1, hp.2.1, hp.2.2.1, hiff (p := fun v _ => v) hp.2.2.2⟩
    · exact ⟨hp.1, hp.2.1, hp.2.2.1, hp.2.2.2.1, hiff (p := fun v n => v ↔ aheadOf _ n) hp.2.2.2.2⟩
    · exact ⟨hp.1, hp.2.1, hp.2.2.1, hp.2.2.2.1, hiff (p := fun v n => v ↔ aheadOf _ n) hp.2.2.2.2⟩

/-- A station is drained while no other is in an exchange and none is read (R28). -/
theorem TurretOk.drain (h : TurretOk s) {n : Nat} (hn : n < 8) (hcalm : ∀ m, m < 8 → (s.station m).state.calm)
    (hst : ∀ m, m < 8 → m ≠ n → t.station m = s.station m) (hd : (t.station n).state = .draining)
    (hprior : (t.station n).prior = some (s.station n).state)
    (hexch : t.turret.exchange = some n) (hmot : t.turret.motion = s.turret.motion)
    (hpass : t.turret.pass = s.turret.pass) (hread : t.turret.read = s.turret.read) : TurretOk t := by
  have hnv : ∀ m, m < 8 → (t.station m).state ≠ .verifying := by
    intro m hm
    by_cases hmn : m = n
    · subst hmn; rw [hd]; decide
    · rw [hst m hm hmn]; exact (hcalm m hm).2.2
  obtain ⟨hexchange, hopen, -, hrd, hrot, hp⟩ := h
  have hread0 : s.turret.read = .none := by
    by_contra hr
    exact (hcalm _ (hatchStation_lt _)).2.2 (hrd hr)
  refine ⟨fun m hm => ?_, fun m hm hb => ?_, fun m hm hb => ?_, fun hr => absurd (hread.trans hread0) hr, fun target htar => ?_, ?_⟩
  · obtain rfl : n = m := by rw [hexch] at hm; simpa using hm
    exact ⟨hn, Or.inl hd⟩
  · by_cases hmn : m = n
    · rw [hmn]; exact hexch
    · rw [hst m hm hmn] at hb
      obtain ⟨c1, c2, -⟩ := hcalm m hm
      rcases hb with hb | hb
      · exact absurd hb c1
      · exact absurd hb c2
  · have hmn : m = n := by
      by_contra hmn
      rw [hst m hm hmn] at hb
      exact (hcalm m hm).1 hb
    subst hmn
    obtain ⟨c1, c2, c3⟩ := hcalm m hm
    rw [hprior]
    cases hs : (s.station m).state <;> simp_all
  · obtain ⟨m, hm, hb, -⟩ := hrot target (hmot ▸ htar)
    exact absurd hb (hcalm m (hexchange m hm).1).1
  · simp only [PassOk] at hp
    split at hp
    · next hpn => exact passOk_none (hpass.trans hpn) (fun m hm hv => absurd hv (hnv m hm)) (by rw [hmot]; exact hp.2)
    · exact absurd (hp.2.2.2 0 (by decide)) (hcalm 0 (by decide)).2.2
    · exact absurd (hp.2.2.2 0 (by decide)) (hcalm 0 (by decide)).2.2
    · next k _ =>
      exact absurd ((hp.2.2.2.2 ((k + 4) % 8) (by omega)).2 (aheadOf_self hp.2.1)) (hcalm _ (by omega)).2.2
    · next k hpk =>
      obtain ⟨hk, -, hrd', hmot', hver⟩ := hp
      have hk8 : k = 8 := by
        by_contra hne
        exact absurd ((hver ((k + 4) % 8) (by omega)).2 (aheadOf_self (by omega))) (hcalm _ (by omega)).2.2
      subst hk8
      simp only [PassOk, hpass.trans hpk]
      exact ⟨le_refl _, fun hlt => absurd hlt (by decide), hread.trans hrd', hmot.trans hmot',
        fun m hm => iff_of_false (hnv m hm) (not_aheadOf_eight m)⟩

/-- The pass reads a station's strip and steps on (R36). -/
theorem TurretOk.stepPass (h : TurretOk s) {k : Nat} (hp : s.turret.pass = .reading k) (ht : (t.station ((k + 4) % 8)).state.calm)
    (hst : ∀ m, m < 8 → m ≠ (k + 4) % 8 → t.station m = s.station m)
    (hexch : t.turret.exchange = s.turret.exchange) (hread : t.turret.read = .none)
    (hmot : t.turret.motion = .rotating .verification ((k + 1) % 8)) (hpass : t.turret.pass = .stepping (k + 1)) : TurretOk t := by
  obtain ⟨-, hopen, -, -, -, hpassok⟩ := h
  simp only [PassOk, hp] at hpassok
  obtain ⟨hnone, hk, -, -, hver⟩ := hpassok
  have hbusy : ∀ m, m < 8 → ¬((t.station m).state = .draining ∨ (t.station m).state = .opened) := by
    intro m hm hb
    by_cases hmn : m = (k + 4) % 8
    · rw [hmn] at hb
      rcases hb with hb | hb
      · exact ht.1 hb
      · exact ht.2.1 hb
    · rw [hst m hm hmn] at hb
      rw [hopen m hm hb] at hnone
      exact absurd hnone (by simp)
  refine ⟨by simp [hexch, hnone], fun m hm hb => absurd hb (hbusy m hm), fun m hm hb => absurd (Or.inl hb) (hbusy m hm),
    fun hr => absurd hread hr, by simp [hmot], ?_⟩
  simp only [PassOk, hpass]
  refine ⟨by omega, fun _ => hexch.trans hnone, hread, hmot, fun m hm => ?_⟩
  rw [aheadOf_succ hk hm]
  by_cases hmn : m = (k + 4) % 8
  · rw [hmn]; exact iff_of_false ht.2.2 (by simp)
  · rw [hst m hm hmn, hver m hm]; simp [hmn]

end

end Sys2Proof.Machine
end

section
/-! HoldersOk through the operations of the turret and of the catalogue. -/

namespace Sys2Proof.Machine

open Sys2Proof

/-- HoldersOk but for the turret's motion and exchange. -/
def BoundOk (s : State) : Prop := s.LedgerOk ∧ (∀ n ∈ s.engine.serving, n < 4) ∧ InFlightOk s

theorem holdersOk_iff_bound (s : State) : HoldersOk s ↔ BoundOk s ∧ TurretOk s := by
  rw [holdersOk_iff, BoundOk]; tauto

section
variable {s : State}

theorem BoundOk.setStatus (h : BoundOk s) (n : Nat) (c : CompStatus) : BoundOk (s.setStatus n c) := by
  obtain ⟨hl, hserve, hfl⟩ := h
  have hj : BoundOk (s.onJob n fun j => { j with status := c }) :=
    ⟨hl.onJob n _ (fun _ => rfl) (fun _ => rfl) fun _ h => h, hserve, hfl⟩
  have hr : ∀ b : Bool, BoundOk ((s.onJob n fun j => { j with status := c }).raiseIf b .jobStalled) := fun b => by
    cases b <;> exact hj
  unfold State.setStatus
  cases c
  case stalled => exact hr _
  all_goals exact hj

theorem BoundOk.reaskAll (h : BoundOk s) : BoundOk s.reaskAll := by
  refine foldl_invariant (fun u n hu => ?_) h _
  simp only [State.reask]
  split
  · split <;> exact hu.setStatus _ _
  · exact hu

/-! ### What an operation makes of the turret -/

theorem reaskAll_turret (s : State) : s.reaskAll.turret = s.turret := by simp

theorem changeStation_turret (s : State) (n : Nat) (f : Station → Station) :
    (s.changeStation n f).turret =
      { s.turret with stations := s.turret.stations.modify n fun st => { f st with changed := true } } := by
  rw [State.changeStation, reaskAll_turret]; rfl

theorem station_of_modify {t : Turret} {n m : Nat} (f : Station → Station) (hlen : m < t.stations.length) :
    (t.stations.modify n f).getD m Station.powerOn =
      if m = n then f (t.stations.getD m Station.powerOn) else t.stations.getD m Station.powerOn := by
  by_cases h : m = n
  · subst h; rw [if_pos rfl, getD_modify_self f hlen]
  · rw [if_neg h, getD_modify_ne f _ (Ne.symm h)]

theorem changeStation_station (h8 : s.turret.stations.length = 8) {n m : Nat} (hm : m < 8) (f : Station → Station) :
    (s.changeStation n f).station m = if m = n then { f (s.station m) with changed := true } else s.station m := by
  rw [State.station, changeStation_turret]; exact station_of_modify _ (h8 ▸ hm)

/-! ### Bindings -/

theorem BoundOk.stations8 (h : BoundOk s) : s.turret.stations.length = 8 := h.1.stations8

/-- A station changes its binding, with its record's station part (R8, R11). -/
theorem BoundOk.rebind (h : BoundOk s) {n : Nat} (hn : n < 8) {g : FontRecord → FontRecord} {f : Station → Station}
    (hg : ∀ r ∈ s.fonts, (g r).number = r.number ∧ (g r).master = r.master ∧ (g r).entryPart = r.entryPart ∧
      (g r).linePart = r.linePart)
    (hrefs : ∀ r ∈ s.fonts, (g r).stationPart + ((s.station n).holds r.number).toNat =
      r.stationPart + ((f (s.station n)).holds r.number).toNat)
    (hclaims : (f (s.station n)).claims = (s.station n).claims) (hpins : (f (s.station n)).pins = (s.station n).pins)
    (hbound : (f (s.station n)).font.isSome = (f (s.station n)).bound)
    (hbinding : ∀ k, (f (s.station n)).font = some k → ∃ r ∈ s.fonts, r.number = k ∧ r.master = (f (s.station n)).code)
    (hused : (s.station n).bound = true → 0 < (s.station n).claims ∨ 0 < (s.station n).pins → (f (s.station n)).bound = true) :
    BoundOk (({ s with fonts := s.fonts.map g } : State).onStation n f) :=
  ⟨h.1.rebind hn (s.station n) rfl hg hrefs hclaims hpins hbound hbinding hused, h.2.1, h.2.2⟩

theorem BoundOk.changeStation {n : Nat} {f : Station → Station}
    (h : BoundOk (s.onStation n fun st => { f st with changed := true })) : BoundOk (s.changeStation n f) :=
  BoundOk.reaskAll (s := State.raise _ _) h

/-- A station holds the record it names (R8, R11). -/
theorem Station.holds_eq {st : Station} (h : st.font.isSome = st.bound) (k : Nat) : st.holds k = decide (st.font = some k) := by
  cases hf : st.font with
  | none => simp [Station.holds, hf]
  | some x =>
    have hb : st.bound = true := by rw [← h, hf]; rfl
    have : (st.state == .mounted || st.state == .draining) = true := by
      simp only [Station.bound, Bool.or_eq_true, Bool.and_eq_true] at hb ⊢
      exact hb.imp id And.left
    rw [Station.holds, this, hf, Bool.true_and, Bool.beq_eq_decide_eq]

/-- A station changes while it keeps its binding. -/
theorem BoundOk.keepBinding (h : BoundOk s) {n : Nat} (hn : n < 8) {f : Station → Station}
    (hclaims : (f (s.station n)).claims = (s.station n).claims) (hpins : (f (s.station n)).pins = (s.station n).pins)
    (hfont : (f (s.station n)).font = (s.station n).font) (hbound : (f (s.station n)).bound = (s.station n).bound)
    (hcode : (s.station n).font ≠ none → (f (s.station n)).code = (s.station n).code) : BoundOk (s.onStation n f) := by
  have hmem := station_mem s (h.stations8 ▸ hn)
  have hb := h.1.bound _ hmem
  have hid : s.fonts.map id = s.fonts := List.map_id _
  have := h.rebind hn (g := id) (f := f) (fun r _ => ⟨rfl, rfl, rfl, rfl⟩)
    (fun r _ => by rw [Station.holds_eq hb, Station.holds_eq (by rw [hfont, hbound]; exact hb), hfont]; rfl) hclaims hpins
    (by rw [hfont, hbound]; exact hb)
    (fun k hk => by
      rw [hfont] at hk
      rw [hcode (by rw [hk]; simp)]
      exact h.1.binding _ hmem k hk)
    (fun hbd _ => by rw [hbound]; exact hbd)
  rwa [hid] at this

/-- A station that names no record is mounted on the record of its code (R9, R11). -/
theorem BoundOk.mount (h : BoundOk s) {n : Nat} (hn : n < 8) (hb : (s.station n).bound = false) {r : FontRecord} (hr : r ∈ s.fonts)
    (hm : r.master = (s.station n).code) : BoundOk (s.mount n r.number) := by
  have hmem := station_mem s (h.stations8 ▸ hn)
  have hnone : (s.station n).font = none := by
    have := h.1.bound _ hmem; rw [hb] at this; simpa using this
  refine BoundOk.changeStation (s := s.onFont _ _) ?_
  refine h.rebind hn (g := fun x => if x.number == r.number then { x with stationPart := x.stationPart + 1 } else x)
    (fun x _ => by split <;> exact ⟨rfl, rfl, rfl, rfl⟩) (fun x _ => ?_) rfl rfl rfl
    (fun k hk => ⟨r, hr, by simpa using hk, hm⟩) (fun hbd => absurd (hb.symm.trans hbd) (by decide))
  rw [Station.holds_eq (h.1.bound _ hmem), Station.holds_eq rfl]
  by_cases hx : x.number = r.number
  · simp [hnone, hx]
  · simp [hnone, hx, Ne.symm hx]

/-- A station that names no record takes a state that names none. -/
theorem BoundOk.unbound (h : BoundOk s) {n : Nat} (hn : n < 8) (hb : (s.station n).bound = false) {f : Station → Station}
    (hclaims : (f (s.station n)).claims = (s.station n).claims) (hpins : (f (s.station n)).pins = (s.station n).pins)
    (hfont : (f (s.station n)).font = none) (hbound : (f (s.station n)).bound = false) : BoundOk (s.changeStation n f) := by
  have hmem := station_mem s (h.stations8 ▸ hn)
  have hnone : (s.station n).font = none := by
    have := h.1.bound _ hmem; rw [hb] at this; simpa using this
  exact BoundOk.changeStation (h.keepBinding hn hclaims hpins (hfont.trans hnone.symm) (hbound.trans hb.symm)
    fun hne => absurd hnone hne)

/-- A station that names no record is settled from its last-read code (R11). -/
theorem BoundOk.settleStation (h : BoundOk s) {n : Nat} (hn : n < 8) (hb : (s.station n).bound = false) :
    BoundOk (s.settleStation n) := by
  simp only [State.settleStation]
  split
  · next r hr =>
    obtain ⟨hmem, hmas⟩ := mem_of_fontOfMaster hr
    exact h.mount hn hb hmem hmas
  · exact h.unbound hn hb rfl rfl rfl (by split <;> rfl)

theorem settleStation_turret (s : State) (n : Nat) : ∃ f : Station → Station, (∀ st, (f st).state.calm) ∧
    (s.settleStation n).turret = { s.turret with stations := s.turret.stations.modify n f } := by
  simp only [State.settleStation]
  split
  · refine ⟨_, fun st => ?_, by rw [State.mount, changeStation_turret]; rfl⟩
    exact ⟨nofun, nofun, nofun⟩
  · refine ⟨_, fun st => ?_, changeStation_turret _ _ _⟩
    dsimp only
    split <;> exact ⟨nofun, nofun, nofun⟩

/-! ### The exchange -/

theorem not_bound_of_state {st : Station} (h : st.state = .opened ∨ st.state = .verifying ∨ st.state = .empty ∨ st.state = .unknown) :
    st.bound = false := by
  rcases h with h | h | h | h <;> simp only [Station.bound, h] <;> rfl

theorem HoldersOk.settleStation_endExchange (h : HoldersOk s) {n : Nat} (hx : s.turret.exchange = some n)
    (hst : (s.station n).state = .opened) (l : Bool) :
    HoldersOk ((((s.onTurret fun t => { t with latchEngaged := l }).endExchange).settleStation n)) := by
  obtain ⟨hb, ht⟩ := (holdersOk_iff_bound s).1 h
  have hn := ht.exchange_lt hx
  have hb' : BoundOk ((s.onTurret fun t => { t with latchEngaged := l }).endExchange) := hb
  refine (holdersOk_iff_bound _).2 ⟨hb'.settleStation hn (not_bound_of_state (Or.inl hst)), ?_⟩
  obtain ⟨f, hcalm, hturret⟩ := settleStation_turret ((s.onTurret fun t => { t with latchEngaged := l }).endExchange) n
  have hrest : s.turret.motion = .atRest := by
    obtain ⟨-, hd | ⟨-, hr, -⟩⟩ := ht.1 n hx
    · rw [hst] at hd; exact absurd hd (by decide)
    · exact hr
  have hstation : ∀ m, m < 8 → ((((s.onTurret fun t => { t with latchEngaged := l }).endExchange).settleStation n)).station m =
      if m = n then f (s.station m) else s.station m := fun m hm => by
    rw [State.station, hturret]; exact station_of_modify f (hb.stations8 ▸ hm)
  refine ht.settleExchange hx (by simp [hrest]) (fun m hm hmn => by rw [hstation m hm, if_neg hmn])
    (by rw [hstation n hn, if_pos rfl]; exact hcalm _) (by rw [hturret]; rfl) (by rw [hturret]; rfl) (by rw [hturret]; rfl)
    (by rw [hturret]; rfl) (Or.inr ⟨by rw [hturret]; rfl, by rw [hst]; decide⟩)

/-- A DRAINING station returns to its prior state (R33, R34). -/
theorem HoldersOk.returnPrior (h : HoldersOk s) {n : Nat} (hx : s.turret.exchange = some n)
    (hst : (s.station n).state = .draining) (hm : ∀ target, s.turret.motion ≠ .rotating .exchange target) :
    HoldersOk (s.returnPrior n) := by
  obtain ⟨hb, ht⟩ := (holdersOk_iff_bound s).1 h
  have hn := ht.exchange_lt hx
  have hb' : BoundOk s.endExchange := hb
  have hprio := ht.2.2.1 n hn hst
  have hturretOk : ∀ {t : State} {f : Station → Station}, (∀ st, (f st).state.calm) →
      t.turret = { s.endExchange.turret with stations := s.turret.stations.modify n f } → TurretOk t := by
    intro t f hcalm hturret
    have hstation : ∀ m, m < 8 → t.station m = if m = n then f (s.station m) else s.station m := fun m hm => by
      rw [State.station, hturret]; exact station_of_modify f (hb.stations8 ▸ hm)
    exact ht.settleExchange hx hm (fun m hm hmn => by rw [hstation m hm, if_neg hmn])
      (by rw [hstation n hn, if_pos rfl]; exact hcalm _) (by rw [hturret]; rfl) (by rw [hturret]; rfl) (by rw [hturret]; rfl)
      (by rw [hturret]; rfl) (Or.inr ⟨by rw [hturret]; rfl, by rw [hst]; decide⟩)
  refine (holdersOk_iff_bound _).2 ?_
  have hmount : (s.station n).prior ≠ some .mounted → (s.station n).bound = false := fun hne => by
    simp only [Station.bound, hst]
    rcases hprio with hp | hp | hp
    · exact absurd hp hne
    · rw [hp]; rfl
    · rw [hp]; rfl
  simp only [State.returnPrior]
  split
  · next hp =>
    refine ⟨BoundOk.changeStation (hb'.keepBinding hn rfl rfl rfl ?_ fun _ => rfl), hturretOk ?_ (changeStation_turret _ _ _)⟩
    · show _ = (s.station n).bound
      simp only [Station.bound, hst, hp]; rfl
    · exact fun st => ⟨nofun, nofun, nofun⟩
  · next p hp =>
    have hunb := hmount hp
    split
    · next r hr =>
      obtain ⟨hmem, hmas⟩ := mem_of_fontOfMaster hr
      refine ⟨hb'.mount hn hunb hmem hmas, hturretOk (f := fun st =>
        { st with state := .mounted, font := some r.number, prior := none, changed := true }) ?_ ?_⟩
      · exact fun st => ⟨nofun, nofun, nofun⟩
      · rw [State.mount, changeStation_turret]; rfl
    · have hp' : (s.station n).prior = some .empty ∨ (s.station n).prior = some .unknown := hprio.resolve_left hp
      have hnone : (s.station n).font = none := by
        have := hb.1.bound _ (station_mem s (hb.stations8 ▸ hn)); rw [hunb] at this; simpa using this
      refine ⟨hb'.unbound hn hunb rfl rfl hnone ?_, hturretOk ?_ (changeStation_turret _ _ _)⟩
      · refine not_bound_of_state (Or.inr (Or.inr ?_))
        rcases hp' with hp' | hp'
        · exact Or.inl (by rw [hp']; rfl)
        · exact Or.inr (by rw [hp']; rfl)
      · intro st
        rcases hp' with hp' | hp' <;> rw [hp'] <;> exact ⟨nofun, nofun, nofun⟩

/-- The hatch is released at a DRAINING station that is free (R30). -/
theorem HoldersOk.releaseHatch (h : HoldersOk s) {n : Nat} (hx : s.turret.exchange = some n)
    (hst : (s.station n).state = .draining) (hrest : s.turret.motion = .atRest) (hpos : s.turret.position = (n + 4) % 8)
    (hp : (s.station n).pins = 0) (hc : (s.station n).claims = 0) : HoldersOk (s.releaseHatch n) := by
  obtain ⟨hb, ht⟩ := (holdersOk_iff_bound s).1 h
  have hn := ht.exchange_lt hx
  have hmem := station_mem s (hb.stations8 ▸ hn)
  have hbd := hb.1.bound _ hmem
  have hb' : BoundOk (s.onTurret fun t => { t with latchEngaged := false, hatchMark := false }) := hb
  have hfree : ¬(0 < (s.station n).claims ∨ 0 < (s.station n).pins) := by omega
  have hstation : (s.station n).bound = ((s.station n).prior == some .mounted) := by simp [Station.bound, hst]
  refine (holdersOk_iff_bound _).2 ⟨?_, ?_⟩
  · simp only [State.releaseHatch]
    split
    · next number hp hf =>
      refine BoundOk.changeStation (s := State.raise (State.onFont _ _ _) _) ?_
      refine hb'.rebind hn (g := fun r => if r.number == number then { r with stationPart := r.stationPart - 1 } else r)
        (fun r _ => by split <;> exact ⟨rfl, rfl, rfl, rfl⟩) (fun r hr => ?_) rfl rfl rfl (fun k hk => by simp at hk)
        fun _ hu => absurd hu hfree
      have h1 : (s.station n).holds r.number = decide (number = r.number) := by
        rw [Station.holds_eq hbd, hf]; simp
      have h2 := hb.1.stationRefs r hr
      have h3 := countP_toNat_le (p := fun st : Station => st.holds r.number) hmem
      have h4 : Station.holds { s.station n with state := .opened, font := none, changed := true } r.number = false := rfl
      rw [h1] at h3
      show _ + ((s.station n).holds r.number).toNat =
        _ + (Station.holds { s.station n with state := .opened, font := none, changed := true } r.number).toNat
      rw [h1, h4]
      by_cases hnum : r.number = number
      · rw [decide_eq_true hnum.symm] at h3 ⊢
        simp only [hnum, beq_self_eq_true, if_true, Bool.toNat_true, Bool.toNat_false] at h2 h3 ⊢
        omega
      · simp [hnum, Ne.symm hnum]
    · next hno =>
      have hunb : (s.station n).bound = false := by
        rw [hstation]
        by_contra hp
        have hp' : (s.station n).prior = some .mounted := by simpa using hp
        rw [hstation, hp'] at hbd
        obtain ⟨k, hk⟩ := Option.isSome_iff_exists.1 (hbd.trans rfl)
        exact hno k hp' hk
      have hraised : BoundOk ((s.onTurret fun t => { t with latchEngaged := false, hatchMark := false }).raise .hatchReady) := hb'
      exact hraised.unbound hn hunb rfl rfl rfl rfl
  · have hturret : (s.releaseHatch n).turret = { s.turret with
        latchEngaged := false, hatchMark := false
        stations := s.turret.stations.modify n fun st => { st with state := .opened, font := none, changed := true } } := by
      simp only [State.releaseHatch]
      rw [changeStation_turret]
      split <;> rfl
    have hstation : ∀ m, m < 8 → (s.releaseHatch n).station m =
        if m = n then { s.station m with state := .opened, font := none, changed := true } else s.station m := fun m hm => by
      rw [State.station, hturret]
      exact station_of_modify (fun st => { st with state := .opened, font := none, changed := true }) (hb.stations8 ▸ hm)
    have hread : s.turret.read = .none := by
      by_contra hr
      have hh : s.turret.hatchStation = n := by simp only [Turret.hatchStation, hpos]; omega
      have hv := ht.2.2.2.1 hr
      rw [hh, hst] at hv
      exact absurd hv (by decide)
    exact ht.stepExchange hx hrest hpos (fun m hm hmn => by rw [hstation m hm, if_neg hmn])
      (Or.inl (by rw [hstation n hn, if_pos rfl])) (by rw [hturret]) (by rw [hturret]) (by rw [hturret]) (by rw [hturret])
      (Or.inl (by rw [hturret]; exact hread))

end

end Sys2Proof.Machine
end

section
/-! HoldersOk through the events and requests of the turret. -/

namespace Sys2Proof.Machine

open Sys2Proof

section
variable {s : State}

/-! ### Requests -/

theorem all_stations_not {p : Station → Bool} (h8 : s.turret.stations.length = 8) (h : s.turret.stations.any p = false) {n : Nat}
    (hn : n < 8) : p (s.station n) = false := by
  simpa using List.any_eq_false.1 h _ (station_mem s (h8 ▸ hn))

/-- The exchange station, marked already, is drained (R28). -/
theorem TurretOk.changeStation_drain (h : TurretOk s) {u : State} (hb : BoundOk u) {n : Nat} (hn : n < 8)
    (hcalm : ∀ m, m < 8 → (s.station m).state.calm) (hst : ∀ m, u.station m = s.station m) (hexch : u.turret.exchange = some n)
    (hmot : u.turret.motion = s.turret.motion) (hpass : u.turret.pass = s.turret.pass) (hread : u.turret.read = s.turret.read) :
    HoldersOk (u.changeStation n fun st => { st with prior := some st.state, state := .draining }) := by
  have hstation := fun m hm => changeStation_station (s := u) hb.stations8 (n := n) (m := m) hm
    fun st => { st with prior := some st.state, state := .draining }
  refine (holdersOk_iff_bound _).2 ⟨BoundOk.changeStation (hb.keepBinding hn rfl rfl rfl ?_ fun _ => rfl), ?_⟩
  · obtain ⟨c1, -, -⟩ := hcalm n hn
    rw [Bool.eq_iff_iff]
    simp [Station.bound, hst, c1]
  · refine h.drain hn hcalm (fun m hm hmn => by rw [hstation m hm, if_neg hmn, hst]) (by rw [hstation n hn, if_pos rfl])
      (by rw [hstation n hn, if_pos rfl, hst]) ?_ ?_ ?_ ?_ <;> rw [changeStation_turret]
    · exact hexch
    · exact hmot
    · exact hpass
    · exact hread

theorem HoldersOk.prepareExchange (h : HoldersOk s) (n : Nat) : HoldersOk (prepareExchangeEffect n s).1 := by
  obtain ⟨hb, ht⟩ := (holdersOk_iff_bound s).1 h
  simp only [prepareExchangeEffect]
  split
  · exact h
  split
  · exact h
  split
  · exact h
  split
  · exact h
  next hn _ _ hcalm =>
  have hcalm : ∀ m, m < 8 → (s.station m).state.calm := fun m hm => by
    have := all_stations_not hb.stations8 (Bool.eq_false_of_not_eq_true hcalm) hm
    simp only [Bool.or_eq_false_iff, beq_eq_false_iff_ne] at this
    exact ⟨this.1.1, this.1.2, this.2⟩
  have hb' : BoundOk (s.onTurret fun t => { t with exchange := some n, cancelPending := false, hatchMark := false }) := hb
  dsimp only
  exact ht.changeStation_drain hb' (by omega) hcalm (fun _ => rfl) rfl rfl rfl rfl

/-- The turret changes in nothing that its laws name. -/
theorem HoldersOk.onTurret_beside (h : HoldersOk s) (f : Turret → Turret)
    (hf : ∀ t : Turret, (f t).stations = t.stations ∧ (f t).position = t.position ∧ (f t).motion = t.motion ∧ (f t).pass = t.pass ∧
      (f t).exchange = t.exchange ∧ (f t).read = t.read) : HoldersOk (s.onTurret f) := h.onTurret_lineOpen f hf

theorem HoldersOk.cancelExchange (h : HoldersOk s) (n : Nat) : HoldersOk (cancelExchangeEffect n s).1 := by
  simp only [cancelExchangeEffect]
  split
  · exact h
  split
  · exact h
  · next hx =>
    have hx : s.turret.exchange = some n := by simpa using hx
    split
    · next hst =>
      split
      · split
        · exact h
        · exact h.onTurret_beside _ fun t => ⟨rfl, rfl, rfl, rfl, rfl, rfl⟩
      · next hm => exact h.returnPrior hx hst hm
    · next hst =>
      split
      · exact h
      · exact h.settleStation_endExchange hx hst true
    · exact h

theorem HoldersOk.setStationProtection (h : HoldersOk s) (l : List Nat) : HoldersOk (setStationProtectionEffect l s).1 := by
  simp only [setStationProtectionEffect]
  split
  · exact h
  · split
    · exact h
    · exact h.onTurret_beside _ fun t => ⟨rfl, rfl, rfl, rfl, rfl, rfl⟩

theorem HoldersOk.queryStations (h : HoldersOk s) : HoldersOk (queryStationsEffect s).1 := by
  obtain ⟨hs, hfl⟩ := (holdersOk_iff_standing s).1 h
  have hmap : ∀ l : List Station, (l.map fun st => { st with changed := false }) = l.mapIdx fun _ st => { st with changed := false } := by
    intro l
    refine List.ext_getElem? fun m => ?_
    simp
  refine (holdersOk_iff_standing _).2 ⟨?_, hfl⟩
  have hid : s.fonts.map id = s.fonts := List.map_id _
  have hledger := hs.1.move (g := id) (f := fun _ st => { st with changed := false }) (fun r _ => ⟨rfl, rfl, rfl⟩)
    (fun _ _ => ⟨rfl, rfl, rfl, rfl⟩) hs.1.jobs4 hs.1.lines hs.1.room hs.1.serials hs.1.entryRefs hs.1.lineRefs hs.1.entryFonts
    hs.1.lineFonts hs.1.claims hs.1.pins hs.1.used
  rw [hid, ← hmap] at hledger
  exact hs.of_ledger (f := fun _ st => { st with changed := false }) hledger rfl
    (by rw [← hmap]; rfl) (fun _ _ => ⟨rfl, rfl⟩) fun n _ hp hc _ => ⟨hp, hc⟩

/-! ### Rotations -/

/-- No station is OPEN or VERIFYING outside the pass while the turret rotates (R20, R26). -/
theorem TurretOk.quiet_of_rotating (h : TurretOk s) {p : Purpose} {target : Nat} (hm : s.turret.motion = .rotating p target)
    (hp : p ≠ .verification) : s.turret.pass = .none ∧ ∀ n, n < 8 → (s.station n).state ≠ .opened ∧ (s.station n).state ≠ .verifying := by
  obtain ⟨hpn, hver⟩ := h.pass_none fun t ht => hp (by rw [hm] at ht; exact (Motion.rotating.inj ht).1)
  refine ⟨hpn, fun n hn => ⟨fun ho => ?_, fun hv => ?_⟩⟩
  · obtain ⟨-, hd | ⟨-, hr, -⟩⟩ := h.1 n (h.2.1 n hn (Or.inr ho))
    · rw [ho] at hd; exact absurd hd (by decide)
    · rw [hm] at hr; exact absurd hr (by simp)
  · obtain ⟨-, hd | ⟨-, hr, -⟩⟩ := h.1 n (hver n hn hv)
    · rw [hv] at hd; exact absurd hd (by decide)
    · rw [hm] at hr; exact absurd hr (by simp)

theorem TurretOk.read_none (h : TurretOk s) (hv : ∀ n, n < 8 → (s.station n).state ≠ .verifying) : s.turret.read = .none := by
  by_contra hr
  exact hv _ (hatchStation_lt _) (h.2.2.2.1 hr)

/-- The turret comes to rest, or moves for an exposure, while no station is OPEN or VERIFYING. -/
theorem TurretOk.moves (h : TurretOk s) {t : State} (hpn : s.turret.pass = .none)
    (hquiet : ∀ n, n < 8 → (s.station n).state ≠ .opened ∧ (s.station n).state ≠ .verifying)
    (hst : t.turret.stations = s.turret.stations) (hexch : t.turret.exchange = s.turret.exchange)
    (hread : t.turret.read = s.turret.read) (hpass : t.turret.pass = s.turret.pass)
    (hmot : ∀ target, t.turret.motion ≠ .rotating .verification target)
    (hfree : ∀ target, t.turret.motion = .rotating .exchange target → ∃ n, s.turret.exchange = some n ∧
      target = (n + 4) % 8 ∧ (s.station n).pins = 0 ∧ (s.station n).claims = 0) : TurretOk t := by
  have hstation : ∀ n, t.station n = s.station n := fun n => by rw [State.station, hst]; rfl
  have hread0 := h.read_none fun n hn => (hquiet n hn).2
  have hdrain : ∀ n, s.turret.exchange = some n → n < 8 ∧ (s.station n).state = .draining := by
    intro n hn
    obtain ⟨hlt, hd | ⟨hb, -⟩⟩ := h.1 n hn
    · exact ⟨hlt, hd⟩
    · rcases hb with hb | hb
      · exact absurd hb (hquiet n hlt).1
      · exact absurd hb (hquiet n hlt).2
  obtain ⟨-, hopen, hprio, -, -, -⟩ := h
  refine ⟨fun n hn => ?_, fun n hn hb => ?_, fun n hn hb => ?_, fun hr => absurd (hread.trans hread0) hr, fun target ht => ?_, ?_⟩
  · obtain ⟨hlt, hd⟩ := hdrain n (hexch ▸ hn)
    exact ⟨hlt, Or.inl (by rw [hstation]; exact hd)⟩
  · rw [hexch]; rw [hstation] at hb; exact hopen n hn hb
  · rw [hstation] at hb ⊢; exact hprio n hn hb
  · obtain ⟨n, hn, htar, hp, hc⟩ := hfree target ht
    simp only [hstation]
    exact ⟨n, hexch.trans hn, (hdrain n hn).2, htar, hp, hc⟩
  · exact passOk_none (hpass.trans hpn) (fun n hn hv => absurd (by rwa [hstation] at hv) (hquiet n hn).2) hmot

theorem HoldersOk.with_turret (h : HoldersOk s) (f : Turret → Turret) (hst : (f s.turret).stations = s.turret.stations)
    (ht : TurretOk (s.onTurret f)) : HoldersOk (s.onTurret f) := by
  obtain ⟨⟨hl, hserve, hfl⟩, -⟩ := (holdersOk_iff_bound s).1 h
  refine (holdersOk_iff_bound _).2 ⟨⟨?_, hserve, hfl⟩, ht⟩
  rw [State.LedgerOk, State.onTurret]; dsimp only; rw [hst]; exact hl

theorem HoldersOk.rotationArrival (h : HoldersOk s) : HoldersOk (rotationArrivalEffect s) := by
  obtain ⟨-, ht⟩ := (holdersOk_iff_bound s).1 h
  simp only [rotationArrivalEffect]
  split
  · exact h
  · next target hm =>
    obtain ⟨hpn, hquiet⟩ := ht.quiet_of_rotating hm (by decide)
    exact h.with_turret _ rfl (ht.moves hpn hquiet rfl rfl rfl rfl nofun nofun)
  · next target hm =>
    obtain ⟨hpn, hquiet⟩ := ht.quiet_of_rotating hm (by decide)
    have h1 : HoldersOk (s.onTurret fun t => { t with position := target, motion := .atRest }) :=
      h.with_turret _ rfl (ht.moves hpn hquiet rfl rfl rfl rfl nofun nofun)
    obtain ⟨n, hx, hd, htar, hp, hc⟩ := ht.2.2.2.2.1 target hm
    split
    · exact h1
    · next m hm' =>
      obtain rfl : n = m := by
        have : s.turret.exchange = some m := hm'
        rw [hx] at this; simpa using this
      split
      · exact h1.returnPrior hx hd nofun
      · exact h1.releaseHatch hx hd rfl htar hp hc
  · next target hm =>
    split
    · next k hk =>
      obtain ⟨-, hopen, hprio, -, -, hpass⟩ := ht
      simp only [PassOk, hk] at hpass
      obtain ⟨hk8, hnone, hread, hmot, hver⟩ := hpass
      obtain rfl : target = k % 8 := by rw [hm] at hmot; exact (Motion.rotating.inj hmot).2
      split
      · next hlt =>
        have hkk : k % 8 = k := Nat.mod_eq_of_lt hlt
        have hx := hnone hlt
        refine h.with_turret (fun t => { t with position := k % 8, pass := .reading k, read := .first }) rfl
          ⟨fun n hn => absurd (hx.symm.trans hn) (by simp), hopen, hprio, fun _ => ?_, fun target' ht' => ?_, ?_⟩
        · show (s.station ((k % 8 + 4) % 8)).state = .verifying
          rw [hkk]
          exact (hver _ (by omega)).2 (aheadOf_self hlt)
        · rw [show (s.onTurret _).turret.motion = s.turret.motion from rfl, hm] at ht'; exact absurd ht' (by simp)
        · simp only [PassOk]
          exact ⟨hx, hlt, hkk, ⟨_, hm⟩, hver⟩
      · next hge =>
        obtain rfl : k = 8 := by omega
        refine h.with_turret (fun t => { t with position := 8 % 8, motion := .atRest, pass := .none }) rfl
          ⟨fun n hn => ?_, hopen, hprio, fun hr => absurd hread hr, nofun, passOk_none rfl (fun n hn hv => ?_) nofun⟩
        · obtain ⟨hlt, hd | ⟨-, hr, -⟩⟩ := (((holdersOk_iff_bound s).1 h).2).1 n hn
          · exact ⟨hlt, Or.inl hd⟩
          · rw [hm] at hr; exact absurd hr (by simp)
        · exact absurd ((hver n hn).1 hv) (not_aheadOf_eight n)
    · exact h

theorem HoldersOk.indexFound (h : HoldersOk s) : HoldersOk (indexFoundEffect s) := by
  obtain ⟨-, ht⟩ := (holdersOk_iff_bound s).1 h
  simp only [indexFoundEffect]
  split
  · next hp =>
    have hp : s.turret.pass = .seeking := by simpa using hp
    obtain ⟨-, hopen, hprio, -, -, hpass⟩ := ht
    simp only [PassOk, hp] at hpass
    obtain ⟨hx, -, -, hver⟩ := hpass
    refine h.with_turret (fun t => { t with position := 0, motion := .rotating .verification 0, pass := .reading 0, read := .first }) rfl
      ⟨fun n hn => absurd (hx.symm.trans hn) (by simp), hopen, hprio, fun _ => hver 4 (by decide), nofun, ?_⟩
    simp only [PassOk]
    refine ⟨hx, by decide, rfl, ⟨_, rfl⟩, fun n hn => iff_of_true (hver n hn) ⟨(n + 4) % 8, by omega, by omega, by omega⟩⟩
  · exact h

theorem HoldersOk.hatchOpened (h : HoldersOk s) : HoldersOk (hatchOpenedEffect s) :=
  h.onTurret_beside _ fun _ => ⟨rfl, rfl, rfl, rfl, rfl, rfl⟩

/-- The hatch closes on the station that it was opened for, whose strip is then read (R31). -/
theorem TurretOk.changeStation_close (h : TurretOk s) {u : State} (hb : BoundOk u) {n : Nat} (hx : s.turret.exchange = some n)
    (hst : (s.station n).state = .opened) (hrest : s.turret.motion = .atRest) (hpos : s.turret.position = (n + 4) % 8)
    (hus : ∀ m, u.station m = s.station m) (hexch : u.turret.exchange = s.turret.exchange)
    (hmot : u.turret.motion = s.turret.motion) (hposu : u.turret.position = s.turret.position)
    (hpass : u.turret.pass = s.turret.pass) :
    HoldersOk (u.changeStation n fun st => { st with state := .verifying }).beginRead := by
  have hn := h.exchange_lt hx
  have hunb : (u.station n).bound = false := not_bound_of_state (Or.inl (by rw [hus, hst]))
  have hnone : (u.station n).font = none := by
    have := hb.1.bound _ (station_mem u (hb.stations8 ▸ hn)); rw [hunb] at this; simpa using this
  have hb2 := hb.unbound hn hunb (f := fun st => { st with state := .verifying }) rfl rfl hnone rfl
  have hstation := fun m hm => changeStation_station (s := u) hb.stations8 (n := n) (m := m) hm fun st => { st with state := .verifying }
  have hturret := changeStation_turret u n fun st => { st with state := .verifying }
  generalize (u.changeStation n fun st => { st with state := .verifying }) = v at hb2 hstation hturret
  have hv : ∀ m, v.beginRead.station m = v.station m := fun _ => rfl
  refine (holdersOk_iff_bound _).2 ⟨hb2, h.stepExchange hx hrest hpos (fun m hm hmn => ?_) (Or.inr ?_) ?_ ?_ ?_ ?_ (Or.inr ?_)⟩
  · rw [hv, hstation m hm, if_neg hmn, hus]
  · rw [hv, hstation n hn, if_pos rfl]
  · exact (congrArg Turret.exchange hturret).trans hexch
  · exact (congrArg Turret.motion hturret).trans hmot
  · exact (congrArg Turret.position hturret).trans hposu
  · exact (congrArg Turret.pass hturret).trans hpass
  · rw [hv, hstation n hn, if_pos rfl]

theorem HoldersOk.hatchClosed (h : HoldersOk s) : HoldersOk (hatchClosedEffect s) := by
  have h1 : HoldersOk (s.onTurret fun t => { t with hatchOpen := false }) :=
    h.onTurret_beside _ fun t => ⟨rfl, rfl, rfl, rfl, rfl, rfl⟩
  obtain ⟨hb, ht⟩ := (holdersOk_iff_bound s).1 h
  simp only [hatchClosedEffect]
  split
  · next hp =>
    have hp : s.turret.pass = .waitHatch := by
      rw [show (s.onTurret fun t => { t with hatchOpen := false }).turret.pass = s.turret.pass from rfl] at hp
      simpa using hp
    obtain ⟨hexch, hopen, hprio, hrd, hrot, hpass⟩ := ht
    refine HoldersOk.with_turret h1 (fun t => { t with latchEngaged := true, pass := .seeking }) rfl ⟨hexch, hopen, hprio, hrd, hrot, ?_⟩
    simp only [PassOk, hp] at hpass
    exact hpass
  · split
    · exact h1
    · next n hx =>
      have hx : s.turret.exchange = some n := hx
      have hn := ht.exchange_lt hx
      split
      · next hc =>
        have hst : (s.station n).state = .opened := by
          simp only [Bool.and_eq_true, beq_iff_eq] at hc; exact hc.1
        obtain ⟨-, hd | ⟨-, hrest, hpos⟩⟩ := ht.1 n hx
        · rw [hst] at hd; exact absurd hd (by decide)
        have hb' : BoundOk ((s.onTurret fun t => { t with hatchOpen := false }).onTurret fun t => { t with latchEngaged := true }) := hb
        exact ht.changeStation_close hb' hx hst hrest hpos (fun _ => rfl) rfl rfl rfl rfl
      · exact h1

end

end Sys2Proof.Machine
end

section
/-! HoldersOk through the strip read, the positioning, the selections, and the requests of the catalogue. -/

namespace Sys2Proof.Machine

open Sys2Proof

section
variable {s : State}

/-! ### The strip read -/

theorem State.station_turret {s t : State} (h : t.turret.stations = s.turret.stations) (n : Nat) : t.station n = s.station n := by
  rw [State.station, h]; rfl

/-- The station under the read head, of which a verdict is given (R22, R36). -/
theorem TurretOk.hatch_of_read (h : TurretOk s) (hr : s.turret.read ≠ .none) :
    (s.station s.turret.hatchStation).state = .verifying ∧
      (s.turret.exchange = some s.turret.hatchStation ∧ s.turret.pass = .none ∨
        s.turret.exchange = none ∧ ∃ k, s.turret.pass = .reading k ∧ s.turret.hatchStation = (k + 4) % 8) := by
  have hv := h.2.2.2.1 hr
  refine ⟨hv, ?_⟩
  obtain ⟨-, -, -, -, -, hp⟩ := h
  simp only [PassOk] at hp
  split at hp
  · next hpn => exact Or.inl ⟨hp.1 _ (hatchStation_lt _) hv, hpn⟩
  · exact absurd hp.2.1 hr
  · exact absurd hp.2.1 hr
  · next k hk => exact Or.inr ⟨hp.1, k, hk, by simp only [Turret.hatchStation, hp.2.2.1]⟩
  · exact absurd hp.2.2.1 hr

theorem passOk_reading {t : State} {k : Nat} (hp : t.turret.pass = .reading k) :
    PassOk t ↔ t.turret.exchange = none ∧ k < 8 ∧ t.turret.position = k ∧
      (∃ target, t.turret.motion = .rotating .verification target) ∧
      ∀ n, n < 8 → ((t.station n).state = .verifying ↔ aheadOf k n) := by
  simp only [PassOk, hp]

theorem HoldersOk.verdict (h : HoldersOk s) (hr : s.turret.read ≠ .none) (code : Nat) : HoldersOk (s.verdict code) := by
  obtain ⟨hb, ht⟩ := (holdersOk_iff_bound s).1 h
  obtain ⟨hv, hwhere⟩ := ht.hatch_of_read hr
  have hn := hatchStation_lt s.turret
  generalize hnn : s.turret.hatchStation = n at hv hwhere hn
  have hunb : ∀ {st : Station}, st.state = .verifying → st.bound = false := fun hst => not_bound_of_state (Or.inr (Or.inl hst))
  have hb1 : BoundOk ((s.onTurret fun t => { t with read := .none }).onStation n fun st => { st with code := code }) := by
    have hb0 : BoundOk (s.onTurret fun t => { t with read := .none }) := hb
    refine hb0.keepBinding hn rfl rfl rfl rfl fun hne => absurd ?_ hne
    show (s.station n).font = none
    have := hb.1.bound _ (station_mem s (hb.stations8 ▸ hn))
    rw [hunb hv] at this
    simpa using this
  have hst1 : ∀ m, m < 8 → (((s.onTurret fun t => { t with read := .none }).onStation n fun st => { st with code := code }).station m) =
      if m = n then { s.station m with code := code } else s.station m := fun m hm =>
    station_of_modify (fun st => { st with code := code }) (hb.stations8 ▸ hm)
  simp only [State.verdict, hnn]
  generalize hu : ((s.onTurret fun t => { t with read := .none }).onStation n fun st => { st with code := code }) = u at hb1 hst1
  have hv1 : (u.station n).state = .verifying := by rw [hst1 n hn, if_pos rfl]; exact hv
  have hux : u.turret.exchange = s.turret.exchange := by rw [← hu]; rfl
  have hum : u.turret.motion = s.turret.motion := by rw [← hu]; rfl
  have hup : u.turret.position = s.turret.position := by rw [← hu]; rfl
  have hupass : u.turret.pass = s.turret.pass := by rw [← hu]; rfl
  have hur : u.turret.read = .none := by rw [← hu]; rfl
  rcases hwhere with ⟨hx, hpn⟩ | ⟨hx, k, hk, hnk⟩
  · rw [if_pos (by rw [hux, hx]; simp)]
    have hb2 : BoundOk u.endExchange := hb1
    have hb3 := hb2.settleStation hn (hunb hv1)
    obtain ⟨f, hcalm, hturret⟩ := settleStation_turret u.endExchange n
    generalize u.endExchange.settleStation n = v at hb3 hturret
    have hpass : v.turret.pass = .none := by rw [hturret]; exact hupass.trans hpn
    simp only [hpass]
    have hstation : ∀ m, m < 8 → v.station m = if m = n then f (u.station m) else u.station m := fun m hm => by
      rw [State.station, hturret]; exact station_of_modify f (hb1.stations8 ▸ hm)
    have hrest : ∀ target, s.turret.motion ≠ .rotating .exchange target := by
      obtain ⟨-, hd | ⟨-, hrest, -⟩⟩ := ht.1 n hx
      · rw [hv] at hd; exact absurd hd (by decide)
      · rw [hrest]; exact nofun
    exact (holdersOk_iff_bound _).2 ⟨hb3, ht.settleExchange hx hrest
      (fun m hm hmn => by rw [hstation m hm, if_neg hmn, hst1 m hm, if_neg hmn]) (by rw [hstation n hn, if_pos rfl]; exact hcalm _)
      (by rw [hturret]; rfl) (by rw [hturret]; exact hum) (by rw [hturret]; exact hup) (by rw [hturret]; exact hupass)
      (Or.inl (by rw [hturret]; exact hur))⟩
  · rw [if_neg (by rw [hux, hx]; simp)]
    have hb3 := hb1.settleStation hn (hunb hv1)
    obtain ⟨f, hcalm, hturret⟩ := settleStation_turret u n
    generalize u.settleStation n = v at hb3 hturret
    have hpass : v.turret.pass = .reading k := by rw [hturret]; exact hupass.trans hk
    simp only [hpass]
    have hstation : ∀ m, m < 8 → v.station m = if m = n then f (u.station m) else u.station m := fun m hm => by
      rw [State.station, hturret]; exact station_of_modify f (hb1.stations8 ▸ hm)
    subst hnk
    refine (holdersOk_iff_bound _).2 ⟨hb3, ht.stepPass hk ?_ (fun m hm hmn => ?_) ?_ ?_ rfl rfl⟩
    · exact (congrArg (fun st : Station => st.state.calm) ((hstation _ hn).trans (if_pos rfl))).mpr (hcalm _)
    · exact (hstation m hm).trans ((if_neg hmn).trans ((hst1 m hm).trans (if_neg hmn)))
    · exact (congrArg Turret.exchange hturret).trans hux
    · exact (congrArg Turret.read hturret).trans hur

theorem HoldersOk.stripReadComplete (h : HoldersOk s) (code : Nat) : HoldersOk (stripReadCompleteEffect code s) := by
  obtain ⟨-, ht⟩ := (holdersOk_iff_bound s).1 h
  simp only [stripReadCompleteEffect]
  split
  · exact h
  · next hr =>
    split
    · obtain ⟨hv, hwhere⟩ := ht.hatch_of_read (by rw [hr]; decide)
      obtain ⟨hexch, hopen, hprio, -, hrot, hp⟩ := ht
      refine h.with_turret (fun t => { t with read := .retry }) rfl ⟨hexch, hopen, hprio, fun _ => hv, hrot, ?_⟩
      rcases hwhere with ⟨-, hpn⟩ | ⟨-, k, hk, -⟩
      · simp only [PassOk, hpn] at hp
        exact passOk_none hpn hp.1 hp.2
      · exact (passOk_reading (t := s.onTurret fun t => { t with read := .retry }) hk).2 ((passOk_reading hk).1 hp)
    · exact h.verdict (by rw [hr]; decide) code
  · next hr => exact h.verdict (by rw [hr]; decide) code

/-! ### Positioning and selections -/

theorem HoldersOk.reactExchange (h : HoldersOk s) {t : State} (ht : s.reactExchange = some t) : HoldersOk t := by
  obtain ⟨-, hturret⟩ := (holdersOk_iff_bound s).1 h
  obtain ⟨n, hn, rfl⟩ := Option.map_eq_some_iff.1 ht
  simp only [Turret.positioningDue] at hn
  split at hn
  · exact absurd hn (by simp)
  · next m hx =>
    split at hn
    · next hc =>
      obtain rfl : m = n := by simpa using hn
      simp only [Bool.and_eq_true, beq_iff_eq] at hc
      obtain ⟨⟨⟨⟨⟨hd, hp⟩, hcl⟩, -⟩, -⟩, hrest⟩ := hc
      simp only [State.beginPositioning]
      split
      · next hpos => exact h.releaseHatch hx hd hrest (by simpa using hpos) hp hcl
      · obtain ⟨hpn, hver⟩ := hturret.pass_none (by simp [hrest])
        refine h.with_turret _ rfl (hturret.moves hpn (fun k hk => ?_) rfl rfl rfl rfl nofun fun target htar => ?_)
        · refine ⟨fun ho => ?_, fun hv => ?_⟩
          · have hkx := hturret.2.1 k hk (Or.inr ho)
            rw [hx, Option.some.injEq] at hkx
            subst hkx
            rw [State.station, hd] at ho; exact absurd ho (by decide)
          · have hkx := hver k hk hv
            rw [hx, Option.some.injEq] at hkx
            subst hkx
            rw [State.station, hd] at hv; exact absurd hv (by decide)
        · exact ⟨m, hx, ((Motion.rotating.inj htar).2).symm, hp, hcl⟩
    · exact absurd hn (by simp)

theorem HoldersOk.reactRun (h : HoldersOk s) {t : State} (ht : s.reactRun = some t) : HoldersOk t := by
  obtain ⟨hb, hturret⟩ := (holdersOk_iff_bound s).1 h
  have hselect : ∀ {fl : Flight} {r : Run} {t : State}, s.expo.flight = some fl → s.expo.state.inFlight = true →
      s.select fl r = some t → HoldersOk t := by
    intro fl r t hfl hin hs
    simp only [State.select] at hs
    split at hs
    · exact absurd hs (by simp)
    · next hrest =>
      split at hs
      · obtain rfl := Option.some.inj hs
        exact h.onExpo_flight hfl _ rfl rfl rfl rfl
      · split at hs
        · split at hs
          · exact absurd hs (by simp)
          · obtain rfl := Option.some.inj hs
            exact h.onExpo_flight hfl _ hfl rfl rfl rfl
        · next hlock =>
          obtain rfl := Option.some.inj hs
          have hquiet : ∀ n, n < 8 → (s.station n).state ≠ .opened ∧ (s.station n).state ≠ .verifying := fun n hn => by
            have := all_stations_not hb.stations8 (Bool.eq_false_of_not_eq_true hlock) hn
            simpa using this
          obtain ⟨hpn, -⟩ := hturret.pass_none (by simp [hrest])
          have h1 : HoldersOk (s.onTurret (Turret.rotate .exposure r.station)) :=
            h.with_turret _ rfl (hturret.moves hpn hquiet rfl rfl rfl rfl nofun nofun)
          exact h1.onExpo_flight hfl _ hfl rfl rfl rfl
  have hrun : ∀ {fl : Flight} {t : State}, s.expo.flight = some fl → s.expo.state.inFlight = true →
      (match s.flightRun fl with
        | none => none
        | some r =>
          if s.expo.lensFor r.size != s.expo.lensTarget then
            some (s.onExpo fun x => { x with lensTarget := x.lensFor r.size })
          else if fl.selecting then s.select fl r
          else if s.expo.lensTarget.isNone && s.turret.motion == .atRest then
            some (s.onExpo fun x => { x with state := .flashing, carriageTarget := some (s.flightX fl) })
          else none) = some t → HoldersOk t := by
    intro fl t hfl hin hs
    split at hs
    · exact absurd hs (by simp)
    · split at hs
      · obtain rfl := Option.some.inj hs
        exact h.onExpo_beside _ ⟨rfl, rfl, rfl⟩
      · split at hs
        · exact hselect hfl hin hs
        · split at hs
          · obtain rfl := Option.some.inj hs
            exact h.onExpo_flight hfl _ hfl rfl rfl rfl
          · exact absurd hs (by simp)
  simp only [State.reactRun] at ht
  split at ht
  · next hst hfl => exact hrun hfl (by rw [hst]; rfl) ht
  · next hst hfl => exact hrun hfl (by rw [hst]; rfl) ht
  · exact absurd ht (by simp)

end

end Sys2Proof.Machine
end

section
/-! HoldersOk through the requests of the catalogue, the composition reset, and the closing part of a step. -/

namespace Sys2Proof.Machine

open Sys2Proof

section
variable {fonts : List FontRecord} {stations : List Station} {jobs : List Job} {entries : List Entry}

/-! ### Records that come and go -/

/-- No holder names a font that has no record. -/
theorem LedgerOk.unheld (h : LedgerOk fonts stations jobs entries) {n : Nat} (hn : ∀ r ∈ fonts, r.number ≠ n) :
    stations.countP (·.holds n) = 0 ∧ (entries.countP fun e => e.body.fonts.contains n) = 0 ∧
      (jobs.countP fun j => j.line.fonts.contains n) = 0 := by
  refine ⟨List.countP_eq_zero.2 fun st hst hh => ?_, List.countP_eq_zero.2 fun e he hh => ?_,
    List.countP_eq_zero.2 fun j hj hh => ?_⟩
  · simp only [Station.holds, Bool.and_eq_true, beq_iff_eq] at hh
    obtain ⟨r, hr, hnum, -⟩ := h.binding st hst n hh.2
    exact hn r hr hnum
  · obtain ⟨r, hr, hnum⟩ := h.entryFonts e he n (List.contains_iff_mem.1 hh)
    exact hn r hr hnum
  · obtain ⟨r, hr, hnum⟩ := h.lineFonts j hj n (List.contains_iff_mem.1 hh)
    exact hn r hr hnum

theorem insertFont_perm (r : FontRecord) (l : List FontRecord) : (insertFont r l).Perm (r :: l) := by
  induction l with
  | nil => exact List.Perm.refl _
  | cons x l ih =>
    simp only [insertFont]
    split
    · exact List.Perm.refl _
    · exact (ih.cons x).trans (List.Perm.swap _ _ _)

theorem insertFont_masters {r : FontRecord} {l : List FontRecord} (h : (l.map (·.master)).Nodup)
    (hmaster : ∀ x ∈ l, x.master ≠ r.master) : ((insertFont r l).map (·.master)).Nodup := by
  refine ((insertFont_perm r l).map _).nodup_iff.2 (List.nodup_cons.2 ⟨fun hm => ?_, h⟩)
  obtain ⟨x, hx, hxm⟩ := List.mem_map.1 hm
  exact hmaster x hx hxm

/-- A record of a new number and master code joins, with no references (R1, R12). -/
theorem LedgerOk.insertFont (h : LedgerOk fonts stations jobs entries) {r : FontRecord} (hfew : fonts.length < 32)
    (hnumber : ∀ x ∈ fonts, x.number ≠ r.number) (hmaster : ∀ x ∈ fonts, x.master ≠ r.master)
    (hparts : r.stationPart = 0 ∧ r.entryPart = 0 ∧ r.linePart = 0) :
    LedgerOk (insertFont r fonts) stations jobs entries := by
  obtain ⟨h1, h2, h3⟩ := h.unheld hnumber
  have hex : ∀ {n : Nat}, (∃ x ∈ fonts, x.number = n) → ∃ x ∈ Machine.insertFont r fonts, x.number = n := fun ⟨x, hx, hn⟩ =>
    ⟨x, mem_insertFont.2 (Or.inr hx), hn⟩
  exact
    { h with
      few := by rw [insertFont_length]; omega
      numbers := List.pairwise_map.2 (insertFont_pairwise (List.pairwise_map.1 h.numbers) hnumber)
      masters := insertFont_masters h.masters hmaster
      stationRefs := fun x hx => by
        rcases mem_insertFont.1 hx with rfl | hx
        · rw [hparts.1, h1]
        · exact h.stationRefs x hx
      entryRefs := fun x hx => by
        rcases mem_insertFont.1 hx with rfl | hx
        · rw [hparts.2.1, h2]
        · exact h.entryRefs x hx
      lineRefs := fun x hx => by
        rcases mem_insertFont.1 hx with rfl | hx
        · rw [hparts.2.2, h3]
        · exact h.lineRefs x hx
      entryFonts := fun e he n hn => hex (h.entryFonts e he n hn)
      lineFonts := fun j hj n hn => hex (h.lineFonts j hj n hn)
      binding := fun st hst n hn => by
        obtain ⟨x, hx, hxn, hxm⟩ := h.binding st hst n hn
        exact ⟨x, mem_insertFont.2 (Or.inr hx), hxn, hxm⟩ }

/-- A record without references goes (R16). -/
theorem LedgerOk.retireFont (h : LedgerOk fonts stations jobs entries) {r : FontRecord} (hr : r ∈ fonts) (hcount : r.count = 0) :
    LedgerOk (fonts.filter (·.number != r.number)) stations jobs entries := by
  have hparts : r.stationPart = 0 ∧ r.entryPart = 0 ∧ r.linePart = 0 := by
    simp only [FontRecord.count] at hcount; omega
  have h1 := List.countP_eq_zero.1 ((h.stationRefs r hr).symm.trans hparts.1)
  have h2 := List.countP_eq_zero.1 ((h.entryRefs r hr).symm.trans hparts.2.1)
  have h3 := List.countP_eq_zero.1 ((h.lineRefs r hr).symm.trans hparts.2.2)
  have hex : ∀ {n : Nat}, n ≠ r.number → (∃ x ∈ fonts, x.number = n) → ∃ x ∈ fonts.filter (·.number != r.number), x.number = n := by
    rintro n hn ⟨x, hx, rfl⟩
    exact ⟨x, List.mem_filter.2 ⟨hx, by simpa using hn⟩, rfl⟩
  exact
    { h with
      few := (List.length_filter_le _ _).trans h.few
      numbers := h.numbers.sublist (List.filter_sublist.map _)
      masters := h.masters.sublist (List.filter_sublist.map _)
      stationRefs := fun x hx => h.stationRefs x (List.mem_of_mem_filter hx)
      entryRefs := fun x hx => h.entryRefs x (List.mem_of_mem_filter hx)
      lineRefs := fun x hx => h.lineRefs x (List.mem_of_mem_filter hx)
      entryFonts := fun e he n hn => hex (fun heq => h2 e he (List.contains_iff_mem.2 (heq ▸ hn))) (h.entryFonts e he n hn)
      lineFonts := fun j hj n hn => hex (fun heq => h3 j hj (List.contains_iff_mem.2 (heq ▸ hn))) (h.lineFonts j hj n hn)
      binding := fun st hst n hn => by
        obtain ⟨x, hx, hxn, hxm⟩ := h.binding st hst n hn
        refine ⟨x, List.mem_filter.2 ⟨hx, ?_⟩, hxn, hxm⟩
        rw [hxn, bne_iff_ne]
        rintro rfl
        refine h1 st hst ?_
        rw [Station.holds_eq (h.bound st hst), hn]
        simp }

/-- A record changes in fields that neither name it nor count it. -/
theorem LedgerOk.reviseFonts (h : LedgerOk fonts stations jobs entries) {g : FontRecord → FontRecord}
    (hg : ∀ r, (g r).number = r.number ∧ (g r).master = r.master ∧ (g r).stationPart = r.stationPart ∧
      (g r).entryPart = r.entryPart ∧ (g r).linePart = r.linePart) : LedgerOk (fonts.map g) stations jobs entries := by
  have hmove := h.move (g := g) (f := fun _ st => st) (fun r _ => ⟨(hg r).1, (hg r).2.1, (hg r).2.2.1⟩)
    (fun _ _ => ⟨rfl, rfl, rfl, rfl⟩) h.jobs4 h.lines h.room h.serials
    (fun r hr => (hg r).2.2.2.1.trans (h.entryRefs r hr)) (fun r hr => (hg r).2.2.2.2.trans (h.lineRefs r hr)) h.entryFonts
    h.lineFonts h.claims h.pins h.used
  have hid : stations.mapIdx (fun _ st => st) = stations := List.ext_getElem? fun m => by simp
  rwa [hid] at hmove

end

section
variable {s : State}

theorem HoldersOk.with_fonts (h : HoldersOk s) {l : List FontRecord}
    (hl : LedgerOk l s.turret.stations s.jobs s.queue.entries) : HoldersOk { s with fonts := l } := by
  obtain ⟨-, hserve, ht, hfl⟩ := (holdersOk_iff s).1 h
  exact (holdersOk_iff _).2 ⟨hl, hserve, ht.of_turret rfl, hfl⟩

theorem HoldersOk.reviseFont (h : HoldersOk s) (n : Nat) (r : FontRevision) : HoldersOk (reviseFontEffect n r s).1 := by
  obtain ⟨hl, -⟩ := (holdersOk_iff s).1 h
  simp only [reviseFontEffect]
  split
  · exact h
  · split
    · exact h
    · split
      · exact h
      · exact h.with_fonts (hl.reviseFonts fun x => by split <;> exact ⟨rfl, rfl, rfl, rfl, rfl⟩)

theorem HoldersOk.retireFont (h : HoldersOk s) (n : Nat) : HoldersOk (retireFontEffect n s).1 := by
  obtain ⟨hl, -⟩ := (holdersOk_iff s).1 h
  simp only [retireFontEffect]
  split
  · exact h
  · next r hr =>
    obtain ⟨hmem, rfl⟩ := mem_of_font hr
    split
    · exact h
    · next hc => exact h.with_fonts (hl.retireFont hmem (by omega))

theorem HoldersOk.bound_turret (h : HoldersOk s) : BoundOk s ∧ TurretOk s := (holdersOk_iff_bound s).1 h

theorem mount_turret (s : State) (n k : Nat) :
    (s.mount n k).turret = { s.turret with stations := s.turret.stations.modify n fun st =>
      { st with state := .mounted, font := some k, prior := none, changed := true } } := by
  rw [State.mount, changeStation_turret]; rfl

theorem mount_station (h8 : s.turret.stations.length = 8) {n m : Nat} (hm : m < 8) (k : Nat) :
    (s.mount n k).station m =
      if m = n then { s.station m with state := .mounted, font := some k, prior := none, changed := true } else s.station m := by
  rw [State.station, mount_turret]
  exact station_of_modify (fun st => { st with state := .mounted, font := some k, prior := none, changed := true }) (h8 ▸ hm)

theorem mount_fonts (s : State) (n k : Nat) :
    (s.mount n k).fonts = s.fonts.map fun r => if r.number == k then { r with stationPart := r.stationPart + 1 } else r := by
  simp [State.mount]

/-- UNKNOWN stations that carry a record's code are mounted one after another (R13). -/
theorem HoldersOk.mountAll (h : HoldersOk s) {r : FontRecord} (hr : ∃ x ∈ s.fonts, x.number = r.number ∧ x.master = r.master)
    {l : List Nat} (hl : ∀ n ∈ l, n < 8 ∧ (s.station n).state = .unknown ∧ (s.station n).code = r.master) (hnd : l.Nodup) :
    HoldersOk (l.foldl (fun s n => s.mount n r.number) s) := by
  induction l generalizing s with
  | nil => exact h
  | cons n l ih =>
    obtain ⟨hnot, hnd⟩ := List.nodup_cons.1 hnd
    obtain ⟨hn, hst, hcode⟩ := hl n (by simp)
    obtain ⟨hb, ht⟩ := h.bound_turret
    obtain ⟨x, hx, hnum, hmas⟩ := hr
    have hb2 := hb.mount hn (not_bound_of_state (Or.inr (Or.inr (Or.inr hst)))) hx (hmas.trans hcode.symm)
    rw [hnum] at hb2
    have hstation := fun m hm => mount_station (s := s) hb.stations8 (n := n) (m := m) hm r.number
    have hturret := mount_turret s n r.number
    have hfonts : ∃ y ∈ (s.mount n r.number).fonts, y.number = r.number ∧ y.master = r.master := by
      rw [mount_fonts]
      exact ⟨_, List.mem_map_of_mem hx, by split <;> exact hnum, by split <;> exact hmas⟩
    rw [List.foldl_cons]
    refine ih ((holdersOk_iff_bound _).2 ⟨hb2, ?_⟩) hfonts (fun m hm => ?_) hnd
    · exact ht.recalm (n := n) (by rw [hst]; exact ⟨nofun, nofun, nofun⟩) (by rw [hstation n hn, if_pos rfl]; exact ⟨nofun, nofun, nofun⟩)
        (fun m hm hmn => by rw [hstation m hm, if_neg hmn]) (by rw [hturret]) (by rw [hturret]) (by rw [hturret]) (by rw [hturret])
        (by rw [hturret])
    · obtain ⟨hm8, hms, hmc⟩ := hl m (by simp [hm])
      have hne : m ≠ n := by rintro rfl; exact hnot hm
      rw [hstation m hm8, if_neg hne]
      exact ⟨hm8, hms, hmc⟩

theorem definedRecord_key {d : FontDef} {r : FontRecord} (h : definedRecord d = some r) :
    r.number = d.number ∧ r.master = d.master ∧ r.stationPart = 0 ∧ r.entryPart = 0 ∧ r.linePart = 0 := by
  simp only [definedRecord] at h
  split at h
  · exact absurd h (by simp)
  · split at h
    · obtain rfl := Option.some.inj h; exact ⟨rfl, rfl, rfl, rfl, rfl⟩
    · exact absurd h (by simp)

theorem HoldersOk.defineFont (h : HoldersOk s) (d : FontDef) : HoldersOk (defineFontEffect d s).1 := by
  obtain ⟨hl, -⟩ := (holdersOk_iff s).1 h
  simp only [defineFontEffect]
  split
  · exact h
  next r hr =>
  obtain ⟨hnum, hmas, hparts⟩ := definedRecord_key hr
  split
  · exact h
  next hfont =>
  split
  · exact h
  next hmaster =>
  split
  · exact h
  next hfull =>
  have hfew : s.fonts.length < 32 := by simpa [Config.maxFonts] using hfull
  have hnumber : ∀ x ∈ s.fonts, x.number ≠ r.number := fun x hx hxn =>
    hfont ((font_isSome_iff s d.number).2 ⟨x, hx, hxn.trans hnum⟩)
  have hmasters : ∀ x ∈ s.fonts, x.master ≠ r.master := fun x hx hxm => by
    simp only [State.fontOfMaster, List.find?_isSome, beq_iff_eq, not_exists, not_and] at hmaster
    exact hmaster x hx (hxm.trans hmas)
  have h1 := h.with_fonts (hl.insertFont hfew hnumber hmasters hparts)
  rw [← hnum]
  dsimp only
  refine HoldersOk.reaskAll (h1.mountAll ⟨r, by simp, rfl, rfl⟩ (fun n hn => ?_) ((stationsWhere_pairwise _ _).imp Nat.ne_of_lt))
  obtain ⟨hlt, hp⟩ := mem_stations_station.1 hn
  simp only [Bool.and_eq_true, beq_iff_eq] at hp
  exact ⟨hl.stations8 ▸ hlt, hp.1, hp.2.trans hmas.symm⟩

end

end Sys2Proof.Machine
end

section
/-! HoldersOk through the composition reset and the closing part of a step. -/

namespace Sys2Proof.Machine

open Sys2Proof

section
variable {s : State}

/-! ### RESET COMPOSITION -/

/-- The entries change in fields that no law names. -/
theorem HoldersOk.mapEntries (h : HoldersOk s) (m : Entry → Entry)
    (hm : ∀ e, (m e).serial = e.serial ∧ (m e).body = e.body ∧ (m e).expo = e.expo) :
    HoldersOk (s.onQueue fun q => { q with entries := q.entries.map m }) := by
  obtain ⟨hl, hserve, ht, hx, hfl⟩ := (holdersOk_iff s).1 h
  have hcount : ∀ p : Entry → Bool, (∀ e, p (m e) = p e) → (s.queue.entries.map m).countP p = s.queue.entries.countP p := by
    intro p hp
    rw [List.countP_map]
    exact List.countP_congr fun e _ => by simp [hp]
  refine (holdersOk_iff _).2 ⟨?_, hserve, ht.of_turret rfl, hx, fun fl hflight => ?_⟩
  · exact
      { hl with
        entryRefs := fun r hr => (hl.entryRefs r hr).trans (hcount _ fun e => by rw [(hm e).2.1]).symm
        entryFonts := List.forall_mem_map.2 fun e he => by rw [(hm e).2.1]; exact hl.entryFonts e he
        pins := fun n hn => (hl.pins n hn).trans (hcount _ fun e => by rw [(hm e).2.1, (hm e).2.2]).symm
        room := (List.length_map _).trans_le hl.room
        serials := by
          show ((s.queue.entries.map m).map (·.serial)).Nodup
          rw [map_map_of_eq fun e _ => (hm e).1]; exact hl.serials }
  · obtain ⟨e, he, hser, hin⟩ := hfl fl hflight
    exact ⟨m e, List.mem_map_of_mem he, (hm e).1.trans hser, (hm e).2.2.trans hin⟩

/-- Every slot is FREE, where no line held anything. -/
theorem HoldersOk.freeJobs (h : HoldersOk s) (hempty : ∀ j ∈ s.jobs, j.line = LineInProgress.empty) (l : List Nat) :
    HoldersOk { s with jobs := s.jobs.map fun _ => Job.free, galleyOrder := l, engine := { serving := none, pointer := 0 } } := by
  obtain ⟨hl, -, ht, hfl⟩ := (holdersOk_iff s).1 h
  have hcount : ∀ p : LineInProgress → Bool, (s.jobs.map fun _ => Job.free).countP (fun j => p j.line) = s.jobs.countP fun j => p j.line := by
    intro p
    rw [List.countP_map]
    exact List.countP_congr fun j hj => by rw [hempty j hj]; rfl
  refine (holdersOk_iff _).2 ⟨?_, by simp, ht.of_turret rfl, hfl⟩
  exact
    { hl with
      jobs4 := (List.length_map _).trans hl.jobs4
      lineRefs := fun r hr => (hl.lineRefs r hr).trans (hcount fun l => l.fonts.contains r.number).symm
      lineFonts := List.forall_mem_map.2 fun j _ n hn => by simp [Job.free] at hn
      claims := fun n hn => (hl.claims n hn).trans (hcount fun l => l.stations.contains n).symm
      lines := List.forall_mem_map.2 fun j _ => by simp [Job.lineOk, Job.free, LineInProgress.empty] }

theorem discardLine_jobs (s : State) (slot : Nat) :
    (s.discardLine slot).jobs = s.jobs.modify slot fun j => { j with line := LineInProgress.empty } := by
  rw [State.discardLine, dropLineRefs_eq (s.job slot).line.fonts_nodup, dropClaims_eq (s.job slot).line.stations_nodup]; rfl

theorem HoldersOk.discardAll (h : HoldersOk s) : HoldersOk ([0, 1, 2, 3].foldl State.discardLine s) :=
  (((h.discardLine (by decide : 0 < 4)).discardLine (by decide : 1 < 4)).discardLine (by decide : 2 < 4)).discardLine (by decide : 3 < 4)

/-- Four lines discarded leave none. -/
theorem discardAll_lines (h4 : s.jobs.length = 4) : ∀ j ∈ ([0, 1, 2, 3].foldl State.discardLine s).jobs, j.line = LineInProgress.empty := by
  obtain ⟨a, b, c, d, hj⟩ : ∃ a b c d, s.jobs = [a, b, c, d] := by
    match hs : s.jobs with
    | [a, b, c, d] => exact ⟨a, b, c, d, rfl⟩
    | [] | [_] | [_, _] | [_, _, _] | _ :: _ :: _ :: _ :: _ :: _ => simp [hs] at h4
  simp only [List.foldl_cons, List.foldl_nil, discardLine_jobs, hj]
  simp

theorem HoldersOk.clearQueue (h : HoldersOk s) : HoldersOk s.clearQueue := by
  have h1 : HoldersOk ((s.queue.entries.filter fun e => e.expo != .inFlight).foldl State.removeEntry s) :=
    h.removeAll (fun _ _ hu => hu) (fun _ _ => rfl) (fun e he => by
      obtain ⟨hm, hp⟩ := List.mem_filter.1 he
      exact ⟨hm, bne_iff_ne.1 hp⟩) (h.serials_filter _)
  exact h1.mapEntries (fun e => { e with attributed := false }) fun _ => ⟨rfl, rfl, rfl⟩

theorem HoldersOk.withdrawLine (h : HoldersOk s) : HoldersOk s.withdrawLine :=
  h.mapEntries _ fun e => by split <;> exact ⟨rfl, rfl, rfl⟩

theorem clearQueue_jobs (s : State) : s.clearQueue.jobs = s.jobs := by simp

theorem HoldersOk.onFilm (h : HoldersOk s) (f : Film → Film) : HoldersOk (s.onFilm f) := h
theorem HoldersOk.onLink (h : HoldersOk s) (f : Link → Link) : HoldersOk (s.onLink f) := h
theorem HoldersOk.onProof (h : HoldersOk s) (f : Proof → Proof) : HoldersOk (s.onProof f) := h
theorem HoldersOk.raise (h : HoldersOk s) (n : Notice) : HoldersOk (s.raise n) := h

/-- The Exposure Controller waits for no lamp any longer, and its entry loses its attribution (R163). -/
theorem HoldersOk.detachFlight (h : HoldersOk s) : HoldersOk (s.onExpo fun x =>
    { x with state := if x.state == .waitingLamp then .idle else x.state
             flight := x.flight.map fun fl => { fl with attributed := false } }) := by
  cases hfl : s.expo.flight with
  | none =>
    obtain ⟨hs, ⟨hiff, hstops⟩, -⟩ := (holdersOk_iff_standing s).1 h
    rw [hfl] at hiff
    refine HoldersOk.of_standing (s := s.onExpo _) hs (by simp [State.onExpo, hfl]) ?_ ?_
    · show (if s.expo.state == .waitingLamp then ExpoState.idle else s.expo.state).inFlight = false
      split
      · rfl
      · exact hiff.symm
    · show (if s.expo.state == .waitingLamp then ExpoState.idle else s.expo.state) ≠ .stopped → s.expo.stops = Stops.none
      split
      · next hw => exact fun _ => hstops (by rw [eq_of_beq hw]; decide)
      · exact hstops
  | some fl =>
    obtain ⟨-, -, hst, -⟩ := h.flight hfl
    refine h.onExpo_flight hfl _ (fl' := { fl with attributed := false }) (by simp [hfl]) rfl ?_ rfl
    dsimp only
    split
    · next hw => rw [eq_of_beq hw] at hst; exact absurd hst (by decide)
    · exact hst

theorem HoldersOk.resetComposition (h : HoldersOk s) : HoldersOk (resetCompositionEffect s).1 := by
  have hclear := h.discardAll.clearQueue
  have hlines : ∀ j ∈ ([0, 1, 2, 3].foldl State.discardLine s).clearQueue.jobs, j.line = LineInProgress.empty := by
    rw [clearQueue_jobs]; exact discardAll_lines h.jobs4
  generalize hu : ([0, 1, 2, 3].foldl State.discardLine s).clearQueue = u at hclear hlines
  have hfree := HoldersOk.freeJobs (s := retireWhere (fun e => match e.scope with | .job _ _ => true | _ => false) u) hclear hlines []
  have hdetached := (HoldersOk.withdrawLine (hfree.onProof Proof.compositionReset)).detachFlight
  simp only [resetCompositionEffect]
  rw [hu]
  exact HoldersOk.recomputeHeads (((hdetached.onFilm _).onLink _).raise _)

/-! ### The closing part of a step -/

theorem HoldersOk.reactHeads (h : HoldersOk s) {t : State} (ht : s.reactHeads = some t) : HoldersOk t := by
  simp only [State.reactHeads] at ht
  split at ht
  · exact absurd ht (by simp)
  · obtain rfl := Option.some.inj ht; exact h.recomputeHeads

theorem HoldersOk.reactProof (h : HoldersOk s) {t : State} (ht : s.reactProof = some t) : HoldersOk t := by
  simp only [State.reactProof] at ht
  split at ht
  · obtain ⟨e, -, rfl⟩ := Option.map_eq_some_iff.1 ht
    exact h.takeEntry e
  · exact absurd ht (by simp)

theorem HoldersOk.reactLamp (h : HoldersOk s) {t : State} (ht : s.reactLamp = some t) : HoldersOk t := by
  simp only [State.reactLamp] at ht
  split at ht
  · next hst =>
    split at ht
    · obtain rfl := Option.some.inj ht
      exact h.onExpo_rest (by rw [hst]; rfl) rfl (h.stops_none (by rw [hst]; decide))
    · exact absurd ht (by simp)
  · next hst =>
    split at ht
    · exact absurd ht (by simp)
    · obtain rfl := Option.some.inj ht
      exact h.onExpo_rest (by rw [hst]; rfl) rfl (h.stops_none (by rw [hst]; decide))
  · exact absurd ht (by simp)

theorem HoldersOk.reactSend (h : HoldersOk s) {t : State} (ht : s.reactSend = some t) : HoldersOk t := by
  simp only [State.reactSend] at ht
  split at ht
  · exact absurd ht (by simp)
  · obtain rfl := Option.some.inj ht; exact h

theorem HoldersOk.react (h : HoldersOk s) {t : State} (ht : s.react = some t) : HoldersOk t := by
  simp only [State.react] at ht
  rcases orElse_cases ht with ht | ht
  · exact h.reactFree ht
  rcases orElse_cases ht with ht | ht
  · exact h.reactHeads ht
  rcases orElse_cases ht with ht | ht
  · exact h.offerWaiting ht
  rcases orElse_cases ht with ht | ht
  · exact h.chooseTurn ht
  rcases orElse_cases ht with ht | ht
  · exact h.reactProof ht
  rcases orElse_cases ht with ht | ht
  · exact h.reactLamp ht
  rcases orElse_cases ht with ht | ht
  · exact h.reactRun ht
  rcases orElse_cases ht with ht | ht
  · exact h.reactExchange ht
  · exact h.reactSend ht

theorem HoldersOk.reactAll (n : Nat) (h : HoldersOk s) : HoldersOk (reactAll n s) := by
  induction n generalizing s with
  | zero => exact h
  | succ n ih =>
    simp only [Machine.reactAll]
    split
    · exact h
    · next ht => exact ih (h.react ht)

theorem HoldersOk.judgeEconomy (h : HoldersOk s) (before : State) : HoldersOk (before.judgeEconomy s) := by
  simp only [State.judgeEconomy]
  split
  · exact h
  · split
    · exact HoldersOk.judgeLamp (s := s.onLamp _) h
    · exact h
  · exact h

theorem HoldersOk.settle (h : HoldersOk s) (before : State) : HoldersOk (settle before s) :=
  ((h.reactAll 100).judgeEconomy before).onProof _

end

end Sys2Proof.Machine
end

section
/-! Every operation but DEFINE FONT, RETIRE FONT and the power-on reset leaves the font numbers and the master codes of the catalogue
as they are. -/

namespace Sys2Proof.Machine

open Sys2Proof

theorem CatalogueOk.of_key {s t : State} (h : CatalogueOk s) (hk : t.fonts.map FontRecord.key = s.fonts.map FontRecord.key) :
    CatalogueOk t := by
  obtain ⟨hfew, hnum, hmas⟩ := h
  have hlen : t.fonts.length = s.fonts.length := by simpa using congrArg List.length hk
  have hn : t.fonts.map (·.number) = s.fonts.map (·.number) := by
    have h := congrArg (List.map Prod.fst) hk
    rwa [List.map_map, List.map_map] at h
  have hm : t.fonts.map (·.master) = s.fonts.map (·.master) := by
    have h := congrArg (List.map Prod.snd) hk
    rwa [List.map_map, List.map_map] at h
  exact ⟨hlen ▸ hfew, hn ▸ hnum, hm ▸ hmas⟩

@[simp] theorem FontRecord.key_ite (p : Prop) [Decidable p] (r x : FontRecord) :
    (if p then x else r).key = if p then x.key else r.key :=
  apply_ite FontRecord.key p x r

@[simp] theorem FontRecord.key_mk (n m : Nat) (w : List Nat) (h : Byte) (k : List KernPair) (g o : Int) (f : ProofFace)
    (c : Option (List (Byte × Byte))) (a b l : Nat) : FontRecord.key ⟨n, m, w, h, k, g, o, f, c, a, b, l⟩ = (n, m) := rfl

@[simp] theorem FontRecord.key_self (r : FontRecord) : (r.number, r.master) = r.key := rfl

@[simp] theorem mount_key (s : State) (n k : Nat) :
    (s.mount n k).fonts.map FontRecord.key = s.fonts.map FontRecord.key := by
  simp [State.mount]

@[simp] theorem settleStation_key (s : State) (n : Nat) :
    (s.settleStation n).fonts.map FontRecord.key = s.fonts.map FontRecord.key := by
  simp only [State.settleStation]
  (repeat' split) <;> simp

@[simp] theorem releaseHatch_key (s : State) (n : Nat) :
    (s.releaseHatch n).fonts.map FontRecord.key = s.fonts.map FontRecord.key := by
  simp only [State.releaseHatch]
  (repeat' split) <;> simp

@[simp] theorem returnPrior_key (s : State) (n : Nat) :
    (s.returnPrior n).fonts.map FontRecord.key = s.fonts.map FontRecord.key := by
  simp only [State.returnPrior]
  (repeat' split) <;> simp

@[simp] theorem beginPositioning_key (s : State) (n : Nat) :
    (s.beginPositioning n).fonts.map FontRecord.key = s.fonts.map FontRecord.key := by
  simp only [State.beginPositioning]
  split
  · simp
  · rfl

@[simp] theorem rotationArrivalEffect_key (s : State) :
    (rotationArrivalEffect s).fonts.map FontRecord.key = s.fonts.map FontRecord.key := by
  simp only [rotationArrivalEffect]
  (repeat' split) <;> simp

@[simp] theorem verdict_key (s : State) (c : Nat) :
    (s.verdict c).fonts.map FontRecord.key = s.fonts.map FontRecord.key := by
  simp only [State.verdict]
  (repeat' split) <;> simp

@[simp] theorem stripReadCompleteEffect_key (s : State) (c : Nat) :
    (stripReadCompleteEffect c s).fonts.map FontRecord.key = s.fonts.map FontRecord.key := by
  simp only [stripReadCompleteEffect]
  (repeat' split) <;> simp

@[simp] theorem cancelExchangeEffect_key (s : State) (n : Nat) :
    ((cancelExchangeEffect n s).1).fonts.map FontRecord.key = s.fonts.map FontRecord.key := by
  simp only [cancelExchangeEffect]
  (repeat' split) <;> simp [refuse, done]

@[simp] theorem mountAll_key (s : State) (l : List Nat) (k : Nat) :
    (l.foldl (fun s n => s.mount n k) s).fonts.map FontRecord.key = s.fonts.map FontRecord.key :=
  foldl_keeps (P := fun s : State => s.fonts.map FontRecord.key) (fun s n => by simp) _ _

@[simp] theorem dropLineRefs_key (s : State) (l : List Nat) :
    (s.dropLineRefs l).fonts.map FontRecord.key = s.fonts.map FontRecord.key := by
  rw [State.dropLineRefs]
  exact foldl_keeps (P := fun s : State => s.fonts.map FontRecord.key) (fun s n => by simp) _ _

@[simp] theorem passRefs_key (s : State) (l : List Nat) :
    (s.passRefs l).fonts.map FontRecord.key = s.fonts.map FontRecord.key := by
  rw [State.passRefs]
  exact foldl_keeps (P := fun s : State => s.fonts.map FontRecord.key) (fun s n => by simp) _ _

@[simp] theorem dropEntryRefs_key (s : State) (l : List Nat) :
    (s.dropEntryRefs l).fonts.map FontRecord.key = s.fonts.map FontRecord.key := by
  rw [State.dropEntryRefs]
  exact foldl_keeps (P := fun s : State => s.fonts.map FontRecord.key) (fun s n => by simp) _ _

@[simp] theorem discardLine_key (s : State) (n : Nat) :
    (s.discardLine n).fonts.map FontRecord.key = s.fonts.map FontRecord.key := by
  simp [State.discardLine]

@[simp] theorem appendEntry_key (s : State) (n : Nat) (b : Body) :
    (s.appendEntry n b).fonts.map FontRecord.key = s.fonts.map FontRecord.key := by
  simp only [State.appendEntry]
  (repeat' split) <;> simp

@[simp] theorem removeEntry_key (s : State) (e : Entry) :
    (s.removeEntry e).fonts.map FontRecord.key = s.fonts.map FontRecord.key := by
  simp only [State.removeEntry]
  (repeat' split) <;> simp

@[simp] theorem releaseIfDone_key (s : State) (k : Nat) :
    (s.releaseIfDone k).fonts.map FontRecord.key = s.fonts.map FontRecord.key := by
  simp only [State.releaseIfDone]
  (repeat' split) <;> simp

@[simp] theorem cancelEntry_key (s : State) (e : Entry) :
    (s.cancelEntry e).fonts.map FontRecord.key = s.fonts.map FontRecord.key := by
  simp only [State.cancelEntry]
  split <;> simp

@[simp] theorem exposureDone_key (s : State) (k : Nat) (a b : Bool) :
    (s.exposureDone k a b).fonts.map FontRecord.key = s.fonts.map FontRecord.key := by
  simp only [State.exposureDone]
  (repeat' split) <;> simp

@[simp] theorem proofDone_key (s : State) (k : Nat) :
    (s.proofDone k).fonts.map FontRecord.key = s.fonts.map FontRecord.key := by
  simp only [State.proofDone]
  (repeat' split) <;> simp

@[simp] theorem lineDone_key (s : State) (fl : Flight) :
    (s.lineDone fl).fonts.map FontRecord.key = s.fonts.map FontRecord.key := by
  simp [State.lineDone]

@[simp] theorem abandon_key (s : State) (fl : Flight) (a b : Bool) :
    (s.abandon fl a b).fonts.map FontRecord.key = s.fonts.map FontRecord.key := by
  simp [State.abandon]

@[simp] theorem operationEnd_key (s : State) (fl : Flight) (a b : Bool) :
    (s.operationEnd fl a b).fonts.map FontRecord.key = s.fonts.map FontRecord.key := by
  simp only [State.operationEnd]
  (repeat' split) <;> simp

@[simp] theorem leadEnd_key (s : State) (fl : Flight) :
    (s.leadEnd fl).fonts.map FontRecord.key = s.fonts.map FontRecord.key := by
  simp only [State.leadEnd]
  (repeat' split) <;> simp

@[simp] theorem moveVerified_key (s : State) :
    (s.moveVerified).fonts.map FontRecord.key = s.fonts.map FontRecord.key := by
  simp only [State.moveVerified]
  (repeat' split) <;> simp

@[simp] theorem tellJam_key (s : State) (m : Mover) :
    (s.tellJam m).fonts.map FontRecord.key = s.fonts.map FontRecord.key := by
  simp only [State.tellJam]
  (repeat' split) <;> simp

@[simp] theorem moveJam_key (s : State) :
    (s.moveJam).fonts.map FontRecord.key = s.fonts.map FontRecord.key := by
  simp [State.moveJam]

@[simp] theorem beginMove_key (s : State) (m : Mover) (t : Nat) (b : Bool) :
    (s.beginMove m t b).fonts.map FontRecord.key = s.fonts.map FontRecord.key := by
  simp only [State.beginMove]
  (repeat' split) <;> simp

@[simp] theorem feedAndCutEffect_key (s : State) :
    ((feedAndCutEffect s).1).fonts.map FontRecord.key = s.fonts.map FontRecord.key := by
  simp only [feedAndCutEffect]
  (repeat' split) <;> simp [refuse, done]

@[simp] theorem driveStopEffect_key (s : State) (r : Nat) :
    (driveStopEffect r s).fonts.map FontRecord.key = s.fonts.map FontRecord.key := by
  simp only [driveStopEffect]
  (repeat' split) <;> simp

@[simp] theorem filmPresentChangeEffect_key (s : State) (p : Bool) :
    (filmPresentChangeEffect p s).fonts.map FontRecord.key = s.fonts.map FontRecord.key := by
  simp only [filmPresentChangeEffect]
  (repeat' split) <;> simp

@[simp] theorem cutterHomeEffect_key (s : State) :
    (cutterHomeEffect s).fonts.map FontRecord.key = s.fonts.map FontRecord.key := by
  simp only [cutterHomeEffect]
  (repeat' split) <;> simp

@[simp] theorem cutterTimeoutEffect_key (s : State) :
    (cutterTimeoutEffect s).fonts.map FontRecord.key = s.fonts.map FontRecord.key := by
  simp only [cutterTimeoutEffect]
  (repeat' split) <;> simp

@[simp] theorem putInFlight_key (s : State) (e : Entry) (g : Option Nat) :
    (s.putInFlight e g).fonts.map FontRecord.key = s.fonts.map FontRecord.key := by
  simp only [State.putInFlight]
  (repeat' split) <;> simp

@[simp] theorem dispatchEffect_key (s : State) :
    (dispatchEffect s).fonts.map FontRecord.key = s.fonts.map FontRecord.key := by
  simp only [dispatchEffect]
  (repeat' split) <;> simp

@[simp] theorem exposureEvent_key (s : State) (a b : Bool) :
    (s.exposureEvent a b).fonts.map FontRecord.key = s.fonts.map FontRecord.key := by
  simp only [State.exposureEvent]
  (repeat' split) <;> simp

@[simp] theorem coverOpenedEffect_key (s : State) :
    (coverOpenedEffect s).fonts.map FontRecord.key = s.fonts.map FontRecord.key := by
  simp [coverOpenedEffect]

@[simp] theorem faultLamp_key (s : State) (r : LampFault) :
    (s.faultLamp r).fonts.map FontRecord.key = s.fonts.map FontRecord.key := by
  simp [State.faultLamp]

@[simp] theorem judgeLamp_key (s : State) :
    (s.judgeLamp).fonts.map FontRecord.key = s.fonts.map FontRecord.key := by
  simp only [State.judgeLamp]
  (repeat' split) <;> simp

@[simp] theorem lampReady_key (s : State) :
    (s.lampReady).fonts.map FontRecord.key = s.fonts.map FontRecord.key := by
  simp [State.lampReady]

@[simp] theorem setLampEffect_key (s : State) (w f t : Nat) :
    ((setLampEffect w f t s).1).fonts.map FontRecord.key = s.fonts.map FontRecord.key := by
  simp only [setLampEffect]
  (repeat' split) <;> simp [refuse, done]

@[simp] theorem takeSample_key (s : State) (x : Nat) :
    (s.takeSample x).fonts.map FontRecord.key = s.fonts.map FontRecord.key := by
  simp only [State.takeSample]
  (repeat' split) <;> simp

@[simp] theorem photocellSampleEffect_key (s : State) (x : Nat) :
    (photocellSampleEffect x s).fonts.map FontRecord.key = s.fonts.map FontRecord.key := by
  simp [photocellSampleEffect]

@[simp] theorem ignitionExpiryEffect_key (s : State) :
    (ignitionExpiryEffect s).fonts.map FontRecord.key = s.fonts.map FontRecord.key := by
  simp only [ignitionExpiryEffect]
  (repeat' split) <;> simp

@[simp] theorem recoveryExpiryEffect_key (s : State) :
    (recoveryExpiryEffect s).fonts.map FontRecord.key = s.fonts.map FontRecord.key := by
  simp only [recoveryExpiryEffect]
  (repeat' split) <;> simp

@[simp] theorem validityExpiryEffect_key (s : State) :
    (validityExpiryEffect s).fonts.map FontRecord.key = s.fonts.map FontRecord.key := by
  simp only [validityExpiryEffect]
  (repeat' split) <;> simp

@[simp] theorem nextGlyph_key (s : State) (fl : Flight) :
    (s.nextGlyph fl).fonts.map FontRecord.key = s.fonts.map FontRecord.key := by
  simp only [State.nextGlyph]
  (repeat' split) <;> simp

@[simp] theorem flashCompleteEffect_key (s : State) (x : Nat) :
    (flashCompleteEffect x s).fonts.map FontRecord.key = s.fonts.map FontRecord.key := by
  simp only [flashCompleteEffect]
  (repeat' split) <;> simp

@[simp] theorem offerMark_key (s : State) (n : Nat) :
    (s.offerMark n).fonts.map FontRecord.key = s.fonts.map FontRecord.key := by
  simp only [State.offerMark]
  (repeat' split) <;> simp

@[simp] theorem cancelAll_key (s : State) (l : List Entry) :
    (l.foldl State.cancelEntry s).fonts.map FontRecord.key = s.fonts.map FontRecord.key :=
  foldl_keeps (P := fun s : State => s.fonts.map FontRecord.key) (fun s n => by simp) _ _

@[simp] theorem abortJobEffect_key (s : State) (n i : Nat) :
    ((abortJobEffect n i s).1).fonts.map FontRecord.key = s.fonts.map FontRecord.key := by
  simp only [abortJobEffect]
  (repeat' split) <;> simp [refuse, done]

@[simp] theorem placeGlyph_key (s : State) (n : Nat) (c : Byte) (f z k : Nat) :
    (s.placeGlyph n c f z k).fonts.map FontRecord.key = s.fonts.map FontRecord.key := by
  simp only [State.placeGlyph]
  (repeat' split) <;> simp

@[simp] theorem placeItems_key (s : State) (n : Nat) (l k : List WordItem) :
    ((placeItems n l k s).1).fonts.map FontRecord.key = s.fonts.map FontRecord.key := by
  induction l generalizing k s with
  | nil => rfl
  | cons i l ih => cases i <;> simp only [placeItems] <;> (repeat' split) <;> simp [ih]

@[simp] theorem placeNext_key (s : State) (n : Nat) :
    ((s.placeNext n).1).fonts.map FontRecord.key = s.fonts.map FontRecord.key := by
  simp only [State.placeNext]
  (repeat' split) <;> simp

@[simp] theorem offer_key (s : State) (n : Nat) (b : Body) :
    (s.offer n b).fonts.map FontRecord.key = s.fonts.map FontRecord.key := by
  simp only [State.offer]
  (repeat' split) <;> simp

@[simp] theorem leaveLine_key (s : State) (a b : List Glyph) :
    (s.leaveLine a b).fonts.map FontRecord.key = s.fonts.map FontRecord.key := by
  simp [State.leaveLine]

@[simp] theorem setLineWith_key (s : State) (n : Nat) (p : LineParams) (k : List Glyph) (f : List LineFlag) (a : Bool) (c : Option Word) :
    (s.setLineWith n p k f a c).fonts.map FontRecord.key = s.fonts.map FontRecord.key := by
  simp [State.setLineWith]

@[simp] theorem breakAndSet_key (s : State) (n : Nat) :
    (s.breakAndSet n).fonts.map FontRecord.key = s.fonts.map FontRecord.key := by
  simp only [State.breakAndSet]
  (repeat' split) <;> simp

@[simp] theorem carryEnding_key (s : State) (n : Nat) :
    (s.carryEnding n).fonts.map FontRecord.key = s.fonts.map FontRecord.key := by
  simp only [State.carryEnding]
  (repeat' split) <;> simp

@[simp] theorem placeWordEffect_key (s : State) :
    (placeWordEffect s).fonts.map FontRecord.key = s.fonts.map FontRecord.key := by
  simp only [placeWordEffect]
  (repeat' split) <;> simp

@[simp] theorem setLineEffect_key (s : State) :
    (setLineEffect s).fonts.map FontRecord.key = s.fonts.map FontRecord.key := by
  simp only [setLineEffect]
  (repeat' split) <;> simp

@[simp] theorem lineSent_key (s : State) :
    (s.lineSent).fonts.map FontRecord.key = s.fonts.map FontRecord.key := by
  simp only [State.lineSent]
  (repeat' split) <;> simp

@[simp] theorem proofByteSentEffect_key (s : State) :
    (proofByteSentEffect s).fonts.map FontRecord.key = s.fonts.map FontRecord.key := by
  simp only [proofByteSentEffect]
  (repeat' split) <;> simp

@[simp] theorem removeAll_key (s : State) (l : List Entry) :
    (l.foldl State.removeEntry s).fonts.map FontRecord.key = s.fonts.map FontRecord.key :=
  foldl_keeps (P := fun s : State => s.fonts.map FontRecord.key) (fun s n => by simp) _ _

@[simp] theorem clearQueue_key (s : State) :
    (s.clearQueue).fonts.map FontRecord.key = s.fonts.map FontRecord.key := by
  simp [State.clearQueue]

@[simp] theorem discardAll_key (s : State) (l : List Nat) :
    (l.foldl State.discardLine s).fonts.map FontRecord.key = s.fonts.map FontRecord.key :=
  foldl_keeps (P := fun s : State => s.fonts.map FontRecord.key) (fun s n => by simp) _ _

@[simp] theorem resetCompositionEffect_key (s : State) :
    ((resetCompositionEffect s).1).fonts.map FontRecord.key = s.fonts.map FontRecord.key := by
  simp only [resetCompositionEffect]
  (repeat' split) <;> simp [refuse, done]

theorem offerWaiting_key {s t : State} (h : s.offerWaiting = some t) :
    t.fonts.map FontRecord.key = s.fonts.map FontRecord.key := by
  obtain ⟨n, -, hn⟩ := List.exists_of_findSome?_eq_some h
  split at hn
  · exact absurd hn (by simp)
  · obtain ⟨-, hn⟩ := Option.ite_none_right_eq_some.1 hn
    obtain rfl := Option.some.inj hn
    split <;> simp

theorem reactExchange_key {s t : State} (h : s.reactExchange = some t) :
    t.fonts.map FontRecord.key = s.fonts.map FontRecord.key := by
  obtain ⟨n, -, rfl⟩ := Option.map_eq_some_iff.1 h
  simp

theorem react_key {s t : State} (h : s.react = some t) :
    t.fonts.map FontRecord.key = s.fonts.map FontRecord.key := by
  simp only [State.react] at h
  rcases orElse_cases h with h | h
  · simp [reactFree_keeps h]
  rcases orElse_cases h with h | h
  · simp [reactHeads_keeps h]
  rcases orElse_cases h with h | h
  · exact offerWaiting_key h
  rcases orElse_cases h with h | h
  · simp [chooseTurn_keeps h]
  rcases orElse_cases h with h | h
  · simp [reactProof_keeps h]
  rcases orElse_cases h with h | h
  · simp [reactLamp_keeps h]
  rcases orElse_cases h with h | h
  · simp [reactRun_keeps h]
  rcases orElse_cases h with h | h
  · exact reactExchange_key h
  · simp [reactSend_keeps h]

@[simp] theorem judgeEconomy_key (s : State) (b : State) :
    (b.judgeEconomy s).fonts.map FontRecord.key = s.fonts.map FontRecord.key := by
  simp only [State.judgeEconomy]
  (repeat' split) <;> simp

theorem reactAll_key (n : Nat) (s : State) : (reactAll n s).fonts.map FontRecord.key = s.fonts.map FontRecord.key := by
  induction n generalizing s with
  | zero => rfl
  | succ n ih =>
    simp only [reactAll]
    split
    · rfl
    · next h => rw [ih, react_key h]

@[simp] theorem settle_key (s b : State) : (settle b s).fonts.map FontRecord.key = s.fonts.map FontRecord.key := by
  show ((b.judgeEconomy (reactAll 100 s)).onProof _).fonts.map FontRecord.key = _
  simp [reactAll_key]

end Sys2Proof.Machine
end

section
/-! The state right after reset, with what the switches read, and every invariant of it. -/

namespace Sys2Proof.Machine

open Sys2Proof

/-- A state as a power-on reset leaves it: the parts that the invariants read. -/
structure FreshState (t : State) : Prop where
  replies : t.link.replies = []
  withheld : t.link.withheld = []
  direction : t.link.direction = .hostToController
  summary : t.link.summary &&& 0xF00000#24 = 0#24
  mask : t.link.mask &&& 0xF00000#24 = 0#24
  fonts : t.fonts = []
  turret : ∃ hatch, t.turret = Turret.powerOn hatch
  jobs : t.jobs = List.replicate 4 Job.free
  galleyOrder : t.galleyOrder = []
  engine : t.engine = { serving := none, pointer := 0 }
  languages : t.languages = List.replicate 4 none
  dict : t.dict = []
  queue : t.queue = Queue.powerOn
  expo : t.expo = Exposure.powerOn
  lamp : t.lamp = Lamp.powerOn
  film : ∃ present cover, t.film = Film.powerOn present cover
  proof : ∃ paper, t.proof = Proof.powerOn paper

theorem freshState_reset : FreshState State.reset where
  replies := rfl
  withheld := rfl
  direction := rfl
  summary := by decide
  mask := by decide
  fonts := rfl
  turret := ⟨false, rfl⟩
  jobs := rfl
  galleyOrder := rfl
  engine := rfl
  languages := rfl
  dict := rfl
  queue := rfl
  expo := rfl
  lamp := rfl
  film := ⟨false, false, rfl⟩
  proof := ⟨false, rfl⟩

theorem raiseIf_summary (s : State) (b : Bool) (n : Notice) :
    (s.raiseIf b n).link.summary = s.link.summary ||| if b then n.mask else 0#24 := by
  cases b
  · exact BitVec.or_zero.symm
  · rfl

/-- Only the causes of an open cover and of paper out are raised, and both are among the twenty. -/
theorem powerOnReset_summary (r : Readings) (s : State) : (powerOnResetEffect r s).link.summary &&& 0xF00000#24 = 0#24 := by
  rw [powerOnResetEffect, raiseIf_summary, raiseIf_summary]
  change ((State.reset.link.summary ||| if r.coverOpen then Notice.coverOpen.mask else 0#24) |||
    if r.paperOut then Notice.proofStopped.mask else 0#24) &&& 0xF00000#24 = 0#24
  generalize r.coverOpen = cover
  generalize r.paperOut = paper
  revert cover paper
  decide

theorem freshState_powerOnReset (r : Readings) (s : State) : FreshState (powerOnResetEffect r s) where
  replies := by simp [powerOnResetEffect]; rfl
  withheld := by simp [powerOnResetEffect]; rfl
  direction := by simp [powerOnResetEffect]; rfl
  summary := powerOnReset_summary r s
  mask := by simp [powerOnResetEffect]; decide
  fonts := by simp [powerOnResetEffect]; rfl
  turret := ⟨r.hatchOpen, by simp [powerOnResetEffect]⟩
  jobs := by simp [powerOnResetEffect]; rfl
  galleyOrder := by simp [powerOnResetEffect]; rfl
  engine := by simp [powerOnResetEffect]; rfl
  languages := by simp [powerOnResetEffect]; rfl
  dict := by simp [powerOnResetEffect]; rfl
  queue := by simp [powerOnResetEffect]; rfl
  expo := by simp [powerOnResetEffect]; rfl
  lamp := by simp [powerOnResetEffect]; rfl
  film := ⟨r.filmPresent, r.coverOpen, by simp [powerOnResetEffect]⟩
  proof := ⟨r.paperOut, by simp [powerOnResetEffect]⟩

section
variable {t : State}

theorem getD_replicate_self {α : Type} (k n : Nat) (a : α) : (List.replicate k a).getD n a = a := by
  simp [List.getD_eq_getElem?_getD, List.getElem?_replicate]; split <;> rfl

theorem FreshState.linkOk (h : FreshState t) : LinkOk t := by
  simp [LinkOk, h.replies, h.withheld, h.direction, h.summary, h.mask]

theorem FreshState.catalogueOk (h : FreshState t) : CatalogueOk t := by
  simp [CatalogueOk, h.fonts]

theorem FreshState.dictOk (h : FreshState t) : DictOk t := by
  simp [DictOk, h.dict]

theorem FreshState.jobWordsOk (h : FreshState t) : JobWordsOk t := by
  simp [JobWordsOk, h.dict]

theorem FreshState.queueOk (h : FreshState t) : QueueOk t := by
  rw [QueueOk, h.queue]; decide

theorem FreshState.job_state (h : FreshState t) (n : Nat) : (t.job n).state = .free := by
  rw [State.job, h.jobs, getD_replicate_self]; rfl

theorem FreshState.galleyOk (h : FreshState t) : GalleyOk t := by
  simp [GalleyOk, h.jobs, h.galleyOrder, h.job_state]

theorem FreshState.shapeOk (h : FreshState t) : ShapeOk t := by
  obtain ⟨hatch, ht⟩ := h.turret
  simp [ShapeOk, ht, h.languages, h.engine, Turret.powerOn]

theorem FreshState.expoOk (h : FreshState t) : ExpoOk t := by
  rw [ExpoOk, h.expo]; decide

theorem FreshState.lampOk (h : FreshState t) : LampOk t := by
  rw [LampOk, h.lamp]; decide

theorem FreshState.filmOk (h : FreshState t) : FilmOk t := by
  obtain ⟨present, cover, hf⟩ := h.film
  simp [FilmOk, hf, Film.powerOn, Film.verified]

theorem FreshState.proofOk (h : FreshState t) : ProofOk t := by
  obtain ⟨paper, hp⟩ := h.proof
  simp [ProofOk, hp, Proof.powerOn]

/-- Every station is still to be read, at the power-on pass (R36). -/
theorem FreshState.station (h : FreshState t) (n : Nat) : t.station n = Station.powerOn := by
  obtain ⟨hatch, ht⟩ := h.turret
  rw [State.station, ht, Turret.powerOn, getD_replicate_self]

/-- With no font, no run and no entry, nothing is held. -/
theorem FreshState.ledgerOk (h : FreshState t) : t.LedgerOk := by
  obtain ⟨hatch, ht⟩ := h.turret
  have hget : ∀ n, (List.replicate 8 Station.powerOn).getD n Station.powerOn = Station.powerOn := fun n => getD_replicate_self 8 n _
  have hjob : ∀ {j}, j ∈ List.replicate 4 Job.free → j = Job.free := List.eq_of_mem_replicate
  have hst : ∀ {st}, st ∈ (Turret.powerOn hatch).stations → st = Station.powerOn := List.eq_of_mem_replicate
  rw [State.LedgerOk, h.fonts, h.jobs, h.queue, ht]
  exact
    { few := by simp
      numbers := .nil
      masters := .nil
      jobs4 := rfl
      stations8 := rfl
      stationRefs := nofun
      entryRefs := nofun
      lineRefs := nofun
      entryFonts := nofun
      lineFonts := fun j hj => by rw [hjob hj]; nofun
      bound := fun st hm => by rw [hst hm]; rfl
      binding := fun st hm => by rw [hst hm]; nofun
      claims := fun n hn => by rw [Turret.powerOn, hget]; rfl
      pins := fun n hn => by rw [Turret.powerOn, hget]; rfl
      used := fun n hn hu => by rw [Turret.powerOn, hget] at hu; exact absurd hu (by decide)
      lines := fun j hj => by rw [hjob hj]; simp [Job.lineOk, Job.free, LineInProgress.empty]
      room := by decide
      serials := .nil }

theorem FreshState.turretOk (h : FreshState t) : TurretOk t := by
  obtain ⟨hatch, ht⟩ := h.turret
  have hst : ∀ n, (t.station n).state = .verifying := fun n => by rw [h.station]; rfl
  simp only [TurretOk, PassOk, hst]
  cases hatch <;> simp [ht, Turret.powerOn]

theorem FreshState.holdersOk (h : FreshState t) : HoldersOk t := by
  refine (holdersOk_iff t).2 ⟨h.ledgerOk, ?_, h.turretOk, h.expoOk, ?_⟩
  · simp [h.engine]
  · simp [h.expo, Exposure.powerOn]

end

/-- Settles O60: State.reset and the state of a power-on reset are fresh, and a fresh state meets every invariant. -/
theorem resetMeetsTheInvariants : Obligations.ResetMeetsTheInvariants := by
  unfold Obligations.ResetMeetsTheInvariants
  intro s t r ht
  have h : FreshState t := by
    rcases ht with rfl | ht
    · exact freshState_reset
    · obtain rfl : powerOnResetEffect r s = t := by simpa [exec, execPowerOnReset] using ht
      exact freshState_powerOnReset r s
  exact ⟨h.linkOk, h.catalogueOk, h.dictOk, h.jobWordsOk, h.queueOk, h.galleyOk, h.shapeOk, h.expoOk, h.lampOk, h.filmOk,
    h.proofOk, h.holdersOk⟩

end Sys2Proof.Machine
end

section
/-! A property that every request's effect, every event and every change of the link keeps is kept by every command. -/

namespace Sys2Proof.Machine

open Sys2Proof

/-- The events that are neither frames of the host nor steps of the handshake, as functions of the state. -/
def eventOf : Instr → Option (State → State)
  | .powerOnReset sensed => some (powerOnResetEffect sensed)
  | .discardQuietTimeout => some discardQuietEffect
  | .attnThrottleExpiry => some attnThrottleExpiryEffect
  | .lineExposedDelayExpiry => some delayExpiryEffect
  | .lineExposedAbsoluteExpiry => some absoluteExpiryEffect
  | .rotationArrival => some (settledEvent rotationArrivalEffect)
  | .indexFound => some indexFoundEffect
  | .hatchOpened => some hatchOpenedEffect
  | .hatchClosed => some (settledEvent hatchClosedEffect)
  | .stripReadComplete code => some (settledEvent (stripReadCompleteEffect code))
  | .takeByte => some (settledEvent takeByteEffect)
  | .placeWord => some (settledEvent placeWordEffect)
  | .setLine => some (settledEvent setLineEffect)
  | .dispatch => some (settledEvent dispatchEffect)
  | .carriageArrival => some carriageArrivalEffect
  | .lensArrival => some (settledEvent lensArrivalEffect)
  | .flashComplete sample => some (settledEvent (flashCompleteEffect sample))
  | .photocellSample sample => some (settledEvent (photocellSampleEffect sample))
  | .ignitionTimerExpiry => some (settledEvent ignitionExpiryEffect)
  | .economyTimerExpiry => some (settledEvent economyExpiryEffect)
  | .recoveryTimerExpiry => some (settledEvent recoveryExpiryEffect)
  | .validityTimerExpiry => some (settledEvent validityExpiryEffect)
  | .driveStop reading => some (settledEvent (driveStopEffect reading))
  | .filmPresentChange present => some (settledEvent (filmPresentChangeEffect present))
  | .cutterHome => some (settledEvent cutterHomeEffect)
  | .cutterTimeout => some (settledEvent cutterTimeoutEffect)
  | .coverOpened => some (settledEvent coverOpenedEffect)
  | .coverClosed => some coverClosedEffect
  | .proofByteSent => some (settledEvent proofByteSentEffect)
  | .xoffReceived => some xoffEffect
  | .xonReceived => some xonEffect
  | .stallTimerExpiry => some stallExpiryEffect
  | .paperOut => some paperOutEffect
  | .paperPresent => some paperPresentEffect
  | _ => none

theorem exec_of_eventOf {s : State} {i : Instr} {f : State → State} (h : eventOf i = some f) : exec i s = .next (f s) := by
  cases i <;> simp only [eventOf, reduceCtorEq, Option.some.injEq] at h <;> subst h <;> rfl

/-- What every step keeps that is none of the link's concern. -/
structure Kept (P : State → Prop) : Prop where
  link : ∀ {s : State}, P s → ∀ f : Link → Link, P (s.onLink f)
  request : ∀ {s : State} {i : Instr} {tag : Byte} {e : Effect}, P s → effectOf i = some (tag, e) → P (e s).1
  event : ∀ {s : State} {i : Instr} {f : State → State}, P s → eventOf i = some f → P (f s)

section
variable {P : State → Prop} {s : State}

theorem Kept.receive (hP : Kept P) (h : P s) (i : Instr) {f : State → State} (hf : P s → P (f s)) : P (s.receive i f) := by
  simp only [State.receive]
  split
  · exact h
  · split
    · exact hf h
    · exact hP.link h _

theorem Kept.answer (hP : Kept P) (code tag : Byte) {e : Effect} (h : P (e s).1) : P (s.answer code tag e) := by
  simp only [State.answer, State.pushReply]
  exact hP.link h _

theorem Kept.accept (hP : Kept P) (h : P s) {i : Instr} {tag : Byte} {e : Effect} (he : effectOf i = some (tag, e)) :
    P (s.accept i tag e) := by
  rcases accept_cases s i tag e with ⟨-, hr⟩ | ⟨-, -, hr⟩ | ⟨-, -, hr⟩ | ⟨-, -, hr⟩
  · rw [hr]; exact h
  · rw [hr]; exact hP.link h _
  · rw [hr]
    have hp : P s.received := hP.link h _
    exact hP.answer _ _ hp
  · rw [hr]
    have hp : P s.received := hP.link h _
    exact hP.answer _ _ (hP.request hp he)

theorem Kept.requestFrameFormat (hP : Kept P) (h : P s) (code tag : Byte) (payload : List Byte) :
    P (requestFrameFormatEffect code tag payload s) :=
  hP.receive h _ fun h => by
    split
    · exact h
    · exact hP.link (hP.link h _) _

theorem Kept.lengthFieldError (hP : Kept P) (h : P s) (n : Nat) : P (lengthFieldErrorEffect n s) :=
  hP.receive h _ fun h => by
    split
    · exact h
    · exact hP.link (hP.link h _) _

theorem Kept.runFrame (hP : Kept P) (h : P s) (i : Instr) : P (s.runFrame i) := by
  simp only [State.runFrame]
  split
  · next he => exact hP.accept h he
  · exact hP.requestFrameFormat h _ _ _
  · exact hP.lengthFieldError h _
  · exact h

theorem Kept.runWithheld (hP : Kept P) (h : P s) : P s.runWithheld :=
  foldl_invariant (P := P) (fun _ i h => hP.runFrame h i) (hP.link h fun l => { l with withheld := [] }) _

theorem Kept.replySent (hP : Kept P) (h : P s) : P (replySentEffect s) := by
  simp only [replySentEffect]
  split
  · exact h
  · exact hP.runWithheld (hP.link h _)

/-- A step is a request, an event of a block, or the link's own. -/
theorem Kept.exec (hP : Kept P) {t : State} {i : Instr} (h : P s) (hx : Machine.exec i s = .next t) : P t := by
  cases he : effectOf i with
  | some e =>
    obtain ⟨tag, e⟩ := e
    rw [exec_of_effectOf he] at hx
    exact Host.Outcome.next.inj hx ▸ hP.accept h he
  | none =>
    cases hv : eventOf i with
    | some f =>
      rw [exec_of_eventOf hv] at hx
      exact Host.Outcome.next.inj hx ▸ hP.event h hv
    | none =>
      cases i with
      | requestFrameFormat code tag payload => exact Host.Outcome.next.inj hx ▸ hP.requestFrameFormat h code tag payload
      | lengthFieldError n => exact Host.Outcome.next.inj hx ▸ hP.lengthFieldError h n
      | replySent => exact Host.Outcome.next.inj hx ▸ hP.replySent h
      | framingLossTimeout => exact Host.Outcome.next.inj hx ▸ hP.runWithheld (hP.link h _)
      | printerByteDiscarded b => exact Host.Outcome.next.inj hx ▸ h
      | _ => simp [eventOf, effectOf] at hv he

end

/-! ### The catalogue -/

section
variable {s : State}

theorem CatalogueOk.defineFont (h : CatalogueOk s) (d : FontDef) : CatalogueOk (defineFontEffect d s).1 := by
  obtain ⟨hfew, hnum, hmas⟩ := h
  simp only [defineFontEffect]
  split
  · exact ⟨hfew, hnum, hmas⟩
  next r hr =>
  obtain ⟨hn, hm, -⟩ := definedRecord_key hr
  split
  · exact ⟨hfew, hnum, hmas⟩
  next hfont =>
  split
  · exact ⟨hfew, hnum, hmas⟩
  next hmaster =>
  split
  · exact ⟨hfew, hnum, hmas⟩
  next hfull =>
  have hroom : s.fonts.length < 32 := by simpa [Config.maxFonts] using hfull
  have hnumber : ∀ x ∈ s.fonts, x.number ≠ r.number := fun x hx hxn =>
    hfont ((font_isSome_iff s d.number).2 ⟨x, hx, hxn.trans hn⟩)
  have hmasters : ∀ x ∈ s.fonts, x.master ≠ r.master := fun x hx hxm => by
    simp only [State.fontOfMaster, List.find?_isSome, beq_iff_eq, not_exists, not_and] at hmaster
    exact hmaster x hx (hxm.trans hm)
  have hins : CatalogueOk { s with fonts := insertFont r s.fonts } := by
    refine ⟨by simpa using hroom, ?_, ?_⟩
    · exact List.pairwise_map.2 (insertFont_pairwise (List.pairwise_map.1 hnum) hnumber)
    · exact insertFont_masters hmas hmasters
  exact hins.of_key (by simp [mountAll_key])

theorem CatalogueOk.retireFont (h : CatalogueOk s) (n : Nat) : CatalogueOk (retireFontEffect n s).1 := by
  obtain ⟨hfew, hnum, hmas⟩ := h
  simp only [retireFontEffect]
  split
  · exact ⟨hfew, hnum, hmas⟩
  · split
    · exact ⟨hfew, hnum, hmas⟩
    · have hsub : (s.fonts.filter (·.number != n)).Sublist s.fonts := List.filter_sublist
      exact ⟨(hsub.length_le).trans hfew, hnum.sublist (hsub.map _), hmas.sublist (hsub.map _)⟩

theorem reviseFont_key (n : Nat) (r : FontRevision) :
    (reviseFontEffect n r s).1.fonts.map FontRecord.key = s.fonts.map FontRecord.key := by
  simp only [reviseFontEffect]
  split
  · rfl
  · split
    · rfl
    · split
      · rfl
      · exact map_map_of_eq fun x _ => by split <;> rfl

theorem CatalogueOk.request (h : CatalogueOk s) {i : Instr} {tag : Byte} {e : Effect} (he : effectOf i = some (tag, e)) :
    CatalogueOk (e s).1 := by
  cases i with
  | defineFont tag d => cases he; exact (h.defineFont d).of_key (settle_key _ _)
  | retireFont tag n => cases he; exact h.retireFont n
  | reviseFont tag n r => cases he; exact h.of_key (reviseFont_key n r)
  | _ => cases he <;> exact h.of_key (by simp [settled, settledReply])

theorem CatalogueOk.event (h : CatalogueOk s) {i : Instr} {f : State → State} (hv : eventOf i = some f) : CatalogueOk (f s) := by
  cases i with
  | powerOnReset r => cases hv; exact (freshState_powerOnReset r s).catalogueOk
  | _ => cases hv <;> exact h.of_key (by simp [settledEvent])

theorem catalogueOk_kept : Kept CatalogueOk where
  link h _ := h
  request h he := h.request he
  event h hv := h.event hv

/-! ### The holders -/

theorem HoldersOk.event (h : HoldersOk s) {i : Instr} {f : State → State} (hv : eventOf i = some f) : HoldersOk (f s) := by
  cases i with
  | powerOnReset r => cases hv; exact (freshState_powerOnReset r s).holdersOk
  | rotationArrival => cases hv; exact h.rotationArrival.settle s
  | indexFound => cases hv; exact h.indexFound
  | hatchOpened => cases hv; exact h.hatchOpened
  | hatchClosed => cases hv; exact h.hatchClosed.settle s
  | stripReadComplete code => cases hv; exact (h.stripReadComplete code).settle s
  | takeByte => cases hv; exact h.takeByte.settle s
  | placeWord => cases hv; exact h.placeWord.settle s
  | setLine => cases hv; exact h.setLine.settle s
  | dispatch => cases hv; exact h.dispatch.settle s
  | carriageArrival => cases hv; exact h.carriageArrival
  | lensArrival => cases hv; exact h.lensArrival.settle s
  | flashComplete sample => cases hv; exact (h.flashComplete sample).settle s
  | photocellSample sample => cases hv; exact (h.takeSample sample).settle s
  | ignitionTimerExpiry => cases hv; exact h.ignitionExpiry.settle s
  | economyTimerExpiry => cases hv; exact h.economyExpiry.settle s
  | recoveryTimerExpiry => cases hv; exact h.recoveryExpiry.settle s
  | validityTimerExpiry => cases hv; exact h.validityExpiry.settle s
  | driveStop reading => cases hv; exact (h.driveStop reading).settle s
  | filmPresentChange present => cases hv; exact (h.filmPresentChange present).settle s
  | cutterHome => cases hv; exact h.cutterHome.settle s
  | cutterTimeout => cases hv; exact h.cutterTimeout.settle s
  | coverOpened => cases hv; exact h.coverOpened.settle s
  | coverClosed => cases hv; exact h.coverClosed
  | proofByteSent => cases hv; exact h.proofByteSent.settle s
  | _ => cases hv <;> exact h.of_frame (by simp) (by simp) (by simp) (by simp) (by simp) (by simp)

theorem HoldersOk.setQueueMarks (h : HoldersOk s) (eh el gh gl : Nat) : HoldersOk (setQueueMarksEffect eh el gh gl s).1 := by
  simp only [setQueueMarksEffect]
  split
  · exact h
  · have hm : HoldersOk (s.onQueue fun q => { q with entryHigh := eh, entryLow := el, glyphHigh := gh, glyphLow := gl }) :=
      h.of_frame rfl rfl rfl rfl rfl rfl
    dsimp only [done]
    split
    · exact hm.testHigh
    · exact hm.of_frame rfl rfl rfl rfl rfl rfl

theorem HoldersOk.setProof (h : HoldersOk s) (enable rate : Nat) : HoldersOk (setProofEffect enable rate s).1 :=
  h.of_frame (by simp) (by simp) (by simp) (by simp) (by simp) (by simp)

theorem HoldersOk.request (h : HoldersOk s) {i : Instr} {tag : Byte} {e : Effect} (he : effectOf i = some (tag, e)) :
    HoldersOk (e s).1 := by
  cases i with
  | resetComposition tag => cases he; exact h.resetComposition.settle s
  | defineFont tag d => cases he; exact (h.defineFont d).settle s
  | reviseFont tag n r => cases he; exact h.reviseFont n r
  | retireFont tag n => cases he; exact h.retireFont n
  | prepareExchange tag n => cases he; exact (h.prepareExchange n).settle s
  | cancelExchange tag n => cases he; exact (h.cancelExchange n).settle s
  | queryStations tag => cases he; exact h.queryStations
  | setStationProtection tag l => cases he; exact h.setStationProtection l
  | openJob tag slot id p => cases he; exact (h.openJob slot id p).settle s
  | sendText tag slot text => cases he; exact (h.sendText slot text).settle s
  | closeJob tag slot id => cases he; exact (h.closeJob slot id).settle s
  | abortJob tag slot id => cases he; exact (h.abortJob slot id).settle s
  | setQueueMarks tag eh el gh gl => cases he; exact (h.setQueueMarks eh el gh gl).settle s
  | holdExposure tag => cases he; exact h.holdExposure.settle s
  | releaseExposure tag => cases he; exact h.releaseExposure.settle s
  | lampOn tag => cases he; exact h.lampOn
  | lampOff tag => cases he; exact h.lampOff.settle s
  | setLamp tag w f t => cases he; exact (h.setLamp w f t).settle s
  | loadFilm tag l => cases he; exact (h.loadFilm l).settle s
  | feedAndCut tag => cases he; exact h.feedAndCut.settle s
  | setLowFilm tag l => cases he; exact h.setLowFilm l
  | setProof tag enable rate =>
    cases he
    exact (h.setProof enable rate).settle s
  | _ => cases he <;> exact h.of_frame (by simp) (by simp) (by simp) (by simp) (by simp) (by simp)

theorem holdersOk_kept : Kept HoldersOk where
  link h f := h.onLink f
  request h he := h.request he
  event h hv := h.event hv

end

/-- Settles O52: the catalogue and the holders are kept by every request's effect, by every event and by what the link does. -/
theorem everyCommandKeepsTheCatalogue : Obligations.EveryCommandKeepsTheCatalogue := by
  unfold Obligations.EveryCommandKeepsTheCatalogue
  exact fun _ _ _ hx => ⟨fun h => catalogueOk_kept.exec h hx, fun h => holdersOk_kept.exec h hx⟩

end Sys2Proof.Machine
end

section
/-! How a request that is received is answered, once its owner's effect is known; the stalled jobs, asked again. -/

namespace Sys2Proof.Machine

open Sys2Proof

/-! ### The reply to a request that the blocks react to -/

theorem reactAll_frameBegun (n : Nat) (s : State) : (reactAll n s).link.frameBegun = s.link.frameBegun := by
  induction n generalizing s with
  | zero => rfl
  | succ n ih =>
    simp only [reactAll]
    split
    · rfl
    · next h => rw [ih]; simp [react_keeps h]

theorem settle_frameBegun (before s : State) : (settle before s).link.frameBegun = s.link.frameBegun := by
  change ((before.judgeEconomy (reactAll 100 s)).onProof _).link.frameBegun = _
  simp [reactAll_frameBegun]

section
variable {s t : State} {i : Instr} {tag : Byte} {e : Effect} {a : Answer}

/-- The reply that an owner's answer becomes. -/
def replyOf (i : Instr) (tag : Byte) (a : Answer) : Reply :=
  { code := codeByte i, tag := tag, status := a.status, clamped := a.clamped, part := a.part, payload := a.payload }

theorem exec_settled (ha : s.accepting) (hs : i.shapeOk = true) (hi : effectOf i = some (tag, settled e))
    (he : e s.received = (t, a)) (hf : t.link.frameBegun = false) :
    exec i s = .next ((settle s.received t).answered (replyOf i tag a)) := by
  rw [exec_of_effectOf hi, accept_settled_eq_answered ha hs he ((settle_frameBegun _ _).trans hf) rfl]
  rfl

theorem exec_settled_done (ha : s.accepting) (hs : i.shapeOk = true) (hi : effectOf i = some (tag, settled e))
    (he : e s.received = done t) (hf : t.link.frameBegun = false) :
    exec i s = .next ((settle s.received t).answered (plainReply i tag .done)) :=
  exec_settled ha hs hi he hf

/-- A refusal still has the blocks react to what was due (R197). -/
theorem exec_settled_refused {st : Status} (ha : s.accepting) (hs : i.shapeOk = true)
    (hi : effectOf i = some (tag, settled e)) (he : e s.received = refuse st s.received) :
    exec i s = .next ((settle s.received s.received).answered (plainReply i tag st)) :=
  exec_settled ha hs hi he rfl

theorem exec_answered (ha : s.accepting) (hs : i.shapeOk = true) (hi : effectOf i = some (tag, e))
    (he : e s.received = (t.received, a)) : exec i s = .next (t.answered (replyOf i tag a)) := by
  rw [exec_of_effectOf hi, accept_eq_answered ha hs he rfl rfl, answered_received]
  rfl

theorem exec_refused {st : Status} (ha : s.accepting) (hs : i.shapeOk = true) (hi : effectOf i = some (tag, e))
    (he : e s.received = refuse st s.received) : exec i s = .next (s.answered (plainReply i tag st)) :=
  exec_answered ha hs hi he

end

/-! ### The jobs stalled for a font -/

/-- The state with a job's composition status set. -/
def State.withStatus (s : State) (n : Nat) (c : CompStatus) : State :=
  { s with jobs := s.jobs.modify n fun j => { j with status := c } }

/-- Each entry into STALLED and each change of reason raises JOB STALLED (R41). -/
theorem setStatus_of_change {s : State} {n : Nat} {c : CompStatus} (hc : ∃ r, c = .stalled r) (hne : c ≠ (s.job n).status) :
    s.setStatus n c = (s.withStatus n c).raise .jobStalled := by
  obtain ⟨r, rfl⟩ := hc
  simp [State.setStatus, State.raiseIf, hne, State.withStatus, State.onJob]

theorem setStatus_of_no_change {s : State} {n : Nat} {c : CompStatus} (hc : (∀ r, c ≠ .stalled r) ∨ c = (s.job n).status) :
    s.setStatus n c = s.withStatus n c := by
  cases c with
  | stalled r =>
    obtain hc | hc := hc
    · exact absurd rfl (hc r)
    · simp [State.setStatus, State.raiseIf, hc, State.withStatus, State.onJob]
  | _ => rfl

theorem Job.fontStalled_iff (j : Job) : j.fontStalled = true ↔
    (j.state = .active ∨ j.state = .closing) ∧ (j.status = .stalled .fontUnavailable ∨ j.status = .stalled .fontChanging) := by
  simp [Job.fontStalled, Job.composing]

theorem reaskAll_eq (s : State) : s.reaskAll = (((s.reask 0).reask 1).reask 2).reask 3 := by
  simp only [State.reaskAll, List.foldl_cons, List.foldl_nil]

theorem reask_of_not_fontStalled {s : State} {n : Nat} (h : (s.job n).fontStalled = false) : s.reask n = s := by
  simp [State.reask, h]

theorem reask_of_fontStalled {s : State} {n : Nat} {a : FontAnswer} (h : (s.job n).fontStalled = true)
    (ha : s.askFont (s.job n).stallFont = a) :
    s.reask n = match a with
      | .station _ => s.setStatus n .ready
      | .changing => s.setStatus n (.stalled .fontChanging)
      | .unavailable => s.setStatus n (.stalled .fontUnavailable) := by
  simp only [State.reask, h, if_true, ha]
  cases a <;> rfl

/-! ### DEFINE FONT -/

theorem definedRecord_none {d : FontDef} (h : definedRecord d = none) (s : State) : defineFontEffect d s = refuse .range s := by
  simp [defineFontEffect, h]

section
variable {s : State} {d : FontDef} {r : FontRecord}

theorem defineFont_duplicate (h : definedRecord d = some r)
    (hd : (s.font d.number).isSome = true ∨ (s.fontOfMaster d.master).isSome = true) :
    defineFontEffect d s = refuse .duplicate s := by
  simp only [defineFontEffect, h]
  split
  · rfl
  · next hf => rw [if_pos (hd.resolve_left hf)]

theorem defineFont_full (h : definedRecord d = some r) (hn : s.font d.number = none) (hm : s.fontOfMaster d.master = none)
    (hf : 32 ≤ s.fonts.length) : defineFontEffect d s = refuse .full s := by
  simp [defineFontEffect, h, hn, hm, Config.maxFonts, hf]

/-- The stations that a definition mounts (R13). -/
def State.foundFor (s : State) (d : FontDef) : List Nat :=
  stationsWhere (fun st => st.state == .unknown && st.code == d.master) s.turret.stations

/-- The state that a definition leaves, before the blocks react (R13, R86). -/
def State.withDefined (s : State) (d : FontDef) (r : FontRecord) : State :=
  ((s.foundFor d).foldl (fun (u : State) n => u.mount n d.number) { s with fonts := insertFont r s.fonts }).reaskAll

theorem defineFont_done (h : definedRecord d = some r) (hn : s.font d.number = none) (hm : s.fontOfMaster d.master = none)
    (hf : s.fonts.length < 32) :
    defineFontEffect d s =
      (s.withDefined d r,
        { status := .done
          payload := listOf num1 (s.foundFor d) ++ num1 ((((s.withDefined d r).font d.number).map (·.count)).getD 0) }) := by
  have hroom : ¬Config.maxFonts ≤ s.fonts.length := by rw [Config.maxFonts]; omega
  simp [defineFontEffect, h, hn, hm, hroom, State.withDefined, State.foundFor]

theorem withDefined_frameBegun (s : State) (d : FontDef) (r : FontRecord) :
    (s.withDefined d r).link.frameBegun = s.link.frameBegun := by
  simp [State.withDefined]

end

/-- Settles O14: the four outcomes of defineFontEffect, and the reasking of a stalled job by the answer for its font. -/
theorem defineFontEntersARecord : Obligations.DefineFontEntersARecord := by
  unfold Obligations.DefineFontEntersARecord
  refine ⟨fun s tag d ha hs => ⟨fun hd => ?_, fun r hd => ⟨fun hn => ?_, fun hn hm => ?_, fun hn hm hl => ?_, fun hn hm hl => ?_⟩⟩,
    fun s n => ⟨fun c => ⟨setStatus_of_change, setStatus_of_no_change⟩, reaskAll_eq s,
      fun hask => ?_, fun hask hf => ?_, fun r hask hf => ?_⟩⟩
  · exact exec_settled_refused ha hs rfl (definedRecord_none hd _)
  · exact exec_settled_refused ha hs rfl (defineFont_duplicate hd (Or.inl hn))
  · exact exec_settled_refused ha hs rfl (defineFont_duplicate hd (Or.inr hm))
  · exact exec_settled_refused ha hs rfl (defineFont_full hd hn hm hl)
  · have hf : (s.received.withDefined d r).link.frameBegun = false := withDefined_frameBegun s.received d r
    have h := exec_settled ha hs rfl (defineFont_done (s := s.received) hd hn hm hl) hf
    simp only [State.withDefined, State.foundFor] at h
    exact h
  · exact reask_of_not_fontStalled (Bool.eq_false_iff.2 fun h => hask ((Job.fontStalled_iff _).1 h))
  · exact reask_of_fontStalled ((Job.fontStalled_iff _).2 hask) (a := .unavailable) (by rw [State.askFont, hf])
  · have h : ∀ {a}, s.askTurret r = a → s.askFont (s.job n).stallFont = a := fun ha => by rw [State.askFont, hf]; exact ha
    exact ⟨fun m ha => reask_of_fontStalled ((Job.fontStalled_iff _).2 hask) (h ha),
      fun ha => reask_of_fontStalled ((Job.fontStalled_iff _).2 hask) (h ha),
      fun ha => reask_of_fontStalled ((Job.fontStalled_iff _).2 hask) (h ha)⟩

end Sys2Proof.Machine
end

section
/-! The ranges of R1, R3, R5 and R7, the records a definition and a revision make, and REVISE FONT and RETIRE FONT. -/

namespace Sys2Proof.Machine

open Sys2Proof

/-! ### The ranges -/

theorem isCharCode_iff (b : Byte) : isCharCode b = true ↔ (0x21 ≤ b.toNat ∧ b.toNat ≤ 0x7E) ∨ 0xA0 ≤ b.toNat := by
  simp [isCharCode]

theorem kernsOk_iff (ks : List KernPair) :
    kernsOk ks = true ↔ ks.length ≤ 48 ∧
      (∀ k ∈ ks, isCharCode k.first = true ∧ isCharCode k.second = true ∧ -16 ≤ k.adjust ∧ k.adjust ≤ 15) ∧
      (ks.map fun k => (k.first, k.second)).Nodup := by
  simp [kernsOk, noRepeats_iff_nodup, and_assoc]

theorem mapOk_iff (m : List (Byte × Byte)) :
    mapOk m = true ↔ m.length ≤ 32 ∧ (∀ p ∈ m, 0xA0 ≤ p.1.toNat ∧ 0x21 ≤ p.2.toNat ∧ p.2.toNat ≤ 0x7E) ∧ (m.map Prod.fst).Nodup := by
  simp only [mapOk, Bool.and_eq_true, decide_eq_true_eq, List.all_eq_true, noRepeats_iff_nodup, and_assoc]

theorem densityOk_iff (g o : Int) : densityOk g o = true ↔ -3 ≤ g ∧ g ≤ 3 ∧ -8 ≤ o ∧ o ≤ 7 := by
  simp [densityOk, and_assoc]

theorem faceOf_eq_some {c : Nat} {f : ProofFace} (h : faceOf c = some f) : f.code = c := by
  unfold faceOf at h
  split at h <;> cases h <;> rfl

theorem faceOf_isSome (c : Nat) : (faceOf c).isSome = true ↔ c ≤ 3 := by
  unfold faceOf
  split
  case h_5 h0 h1 h2 h3 =>
    have h : ¬c ≤ 3 := fun h => by interval_cases c <;> contradiction
    simp [h]
  all_goals simp

theorem normalMap_eq_some {x : Option (List (Byte × Byte))} {m : List (Byte × Byte)} :
    normalMap x = some m ↔ x = some m ∧ m ≠ [] := by
  unfold normalMap
  split
  · simp
  · next hx =>
    constructor
    · rintro rfl; exact ⟨rfl, fun h => hx (by rw [h])⟩
    · exact And.left

/-! ### Definitions -/

/-- The checks of row 1 of R12 (with R3, R5 and R7). -/
def definitionOk (d : FontDef) : Prop :=
  let hyphen := d.hyphen.getD 0x2D#8
  (1 ≤ d.number ∧ d.number ≤ 999) ∧ (1 ≤ d.master ∧ d.master ≤ 4094) ∧ (∀ w ∈ d.widths, w ≤ 127) ∧
  isCharCode hyphen = true ∧ 0 < tableAt d.widths hyphen ∧ kernsOk d.kerns = true ∧ densityOk d.gain d.offset = true ∧
  ∀ m, d.map = some m → mapOk m = true

/-- The record of a definition in range. -/
def recordOf (d : FontDef) (face : ProofFace) : FontRecord :=
  { number := d.number, master := d.master, widths := d.widths, hyphen := d.hyphen.getD 0x2D#8, kerns := d.kerns, gain := d.gain,
    offset := d.offset, face := face, map := normalMap d.map, stationPart := 0, entryPart := 0, linePart := 0 }

theorem definedRecord_eq_some {d : FontDef} {r : FontRecord} :
    definedRecord d = some r ↔ ∃ face, faceOf d.face = some face ∧ definitionOk d ∧ r = recordOf d face := by
  have hmap : (d.map.map mapOk).getD true = true ↔ ∀ m, d.map = some m → mapOk m = true := by
    cases d.map <;> simp
  simp only [definedRecord]
  cases faceOf d.face with
  | none => simp
  | some face =>
    have hcond : (1 ≤ d.number && d.number ≤ 999 && 1 ≤ d.master && d.master ≤ 4094 && d.widths.all (· ≤ 127) &&
        isCharCode (d.hyphen.getD 0x2D#8) && tableAt d.widths (d.hyphen.getD 0x2D#8) != 0 && kernsOk d.kerns &&
        densityOk d.gain d.offset && (d.map.map mapOk).getD true) = true ↔ definitionOk d := by
      simp only [Bool.and_eq_true, decide_eq_true_eq, List.all_eq_true, bne_iff_ne, hmap, definitionOk, Nat.pos_iff_ne_zero, and_assoc]
    dsimp only
    rw [Option.ite_none_right_eq_some, hcond]
    constructor
    · rintro ⟨hok, hr⟩; exact ⟨face, rfl, hok, (Option.some.inj hr).symm⟩
    · rintro ⟨_, hf, hok, rfl⟩; cases hf; exact ⟨hok, rfl⟩

/-- Settles O15: the checks that make a record, and the record they make. -/
theorem definedRecordsKeepTheRanges : Obligations.DefinedRecordsKeepTheRanges := by
  unfold Obligations.DefinedRecordsKeepTheRanges
  refine fun d => ⟨fun r hr => ?_, fun hn1 hn2 hm1 hm2 hw hh hpos hk1 hk2 hk3 hg1 hg2 ho1 ho2 hf hm => ?_⟩
  · obtain ⟨face, hface, ⟨⟨hn1, hn2⟩, ⟨hm1, hm2⟩, hw, hh, hpos, hk, hd, hm⟩, rfl⟩ := definedRecord_eq_some.1 hr
    obtain ⟨hk1, hk2, hk3⟩ := (kernsOk_iff _).1 hk
    obtain ⟨hg1, hg2, ho1, ho2⟩ := (densityOk_iff _ _).1 hd
    refine ⟨rfl, hn1, hn2, rfl, hm1, hm2, rfl, hw, rfl, hh, hpos, rfl, hk1, hk2, hk3, rfl, hg1, hg2, rfl, ho1, ho2,
      faceOf_eq_some hface, fun m hmap => ?_, fun m hmap hne => normalMap_eq_some.2 ⟨hmap, hne⟩, ?_, rfl⟩
    · obtain ⟨hmap, hne⟩ := normalMap_eq_some.1 hmap
      obtain ⟨hlen, hp, hnd⟩ := (mapOk_iff m).1 (hm m hmap)
      exact ⟨hmap, hne, hlen, hnd, hp⟩
    · rintro (h | h) <;> simp [recordOf, h, normalMap]
  · obtain ⟨face, hface⟩ := Option.isSome_iff_exists.1 ((faceOf_isSome _).2 hf)
    refine Option.isSome_iff_exists.2 ⟨recordOf d face, definedRecord_eq_some.2 ⟨face, hface, ?_, rfl⟩⟩
    refine ⟨⟨hn1, hn2⟩, ⟨hm1, hm2⟩, hw, hh, hpos, (kernsOk_iff _).2 ⟨hk1, hk2, hk3⟩, (densityOk_iff _ _).2 ⟨hg1, hg2, ho1, ho2⟩,
      fun m hmap => ?_⟩
    obtain ⟨hlen, hnd, hp⟩ := hm m hmap
    exact (mapOk_iff m).2 ⟨hlen, hp, hnd⟩

/-! ### Revisions -/

theorem revisionOk_iff (r : FontRevision) :
    revisionOk r = true ↔
      (∀ g o, r.density = some (g, o) → densityOk g o = true) ∧ (∀ c, r.face = some c → c ≤ 3) ∧
      (∀ m, r.map = .replace m → mapOk m = true) ∧
      (∀ l, r.widths = some l → l ≠ [] ∧ (∀ x ∈ l, isCharCode x.1 = true ∧ x.2 ≤ 127) ∧ (l.map Prod.fst).Nodup) ∧
      (∀ ks, r.kerns = some ks → kernsOk ks = true) ∧ (∀ b, r.hyphen = some b → isCharCode b = true) := by
  have hopt : ∀ {α : Type} (x : Option α) (p : α → Bool), (x.map p).getD true = true ↔ ∀ a, x = some a → p a = true := by
    intro α x p; cases x <;> simp
  simp only [revisionOk, Bool.and_eq_true, hopt, faceOf_isSome, List.all_eq_true, noRepeats_iff_nodup, decide_eq_true_eq,
    Bool.not_eq_true', List.isEmpty_eq_false_iff, Prod.forall, and_assoc]
  cases r.map <;> simp

theorem charIndex_lt (b : Byte) : charIndex b < 190 := by
  have := b.isLt
  simp only [charIndex]
  split <;> omega

theorem charIndex_inj {a b : Byte} (ha : isCharCode a = true) (hb : isCharCode b = true) (h : charIndex a = charIndex b) : a = b := by
  rw [isCharCode_iff] at ha hb
  refine BitVec.eq_of_toNat_eq ?_
  simp only [charIndex] at h
  split at h <;> split at h <;> omega

theorem tableAt_set_self {t : List Nat} (ht : t.length = 190) {b : Byte} (hb : isCharCode b = true) (w : Nat) :
    tableAt (t.set (charIndex b) w) b = w := by
  simp [tableAt, hb, List.getD_eq_getElem?_getD, ht, charIndex_lt b]

theorem tableAt_set_ne {t : List Nat} {a b : Byte} (ha : isCharCode a = true) (h : b ≠ a) (w : Nat) :
    tableAt (t.set (charIndex a) w) b = tableAt t b := by
  simp only [tableAt]
  split
  · next hb =>
    have hne : charIndex a ≠ charIndex b := fun he => h (charIndex_inj ha hb he).symm
    simp [List.getD_eq_getElem?_getD, hne]
  · rfl

/-- A code that no change names keeps its width. -/
theorem reviseWidths_unnamed {l : List (Byte × Nat)} {t : List Nat} (hl : ∀ x ∈ l, isCharCode x.1 = true) {b : Byte}
    (hb : b ∉ l.map Prod.fst) : tableAt (reviseWidths t l) b = tableAt t b := by
  induction l generalizing t with
  | nil => rfl
  | cons x l ih =>
    obtain ⟨hx, hl⟩ := List.forall_mem_cons.1 hl
    simp only [List.map_cons, List.mem_cons, not_or] at hb
    rw [reviseWidths, ih hl hb.2, tableAt_set_ne hx hb.1]

/-- A code that one change names takes its width. -/
theorem reviseWidths_named {l : List (Byte × Nat)} {t : List Nat} (ht : t.length = 190) (hl : ∀ x ∈ l, isCharCode x.1 = true)
    (hnd : (l.map Prod.fst).Nodup) {x : Byte × Nat} (hx : x ∈ l) : tableAt (reviseWidths t l) x.1 = x.2 := by
  induction l generalizing t with
  | nil => exact absurd hx (by simp)
  | cons y l ih =>
    obtain ⟨hy, hrest⟩ := List.forall_mem_cons.1 hl
    obtain ⟨hnot, hdistinct⟩ := List.nodup_cons.1 hnd
    rw [reviseWidths]
    rcases List.mem_cons.1 hx with rfl | hx
    · rw [reviseWidths_unnamed hrest hnot, tableAt_set_self ht hy]
    · exact ih (by simpa using ht) hrest hdistinct hx

theorem applyRevision_width {r : FontRevision} {f : FontRecord} {l : List (Byte × Nat)} (hl : r.widths = some l) (b : Byte) :
    (applyRevision r f).width b = tableAt (reviseWidths f.widths l) b := by
  simp [applyRevision, FontRecord.width, hl]

/-! ### REVISE FONT and RETIRE FONT -/

section
variable {s : State} {n : Nat} {f : FontRecord} {r : FontRevision}

theorem reviseFont_absent (h : s.font n = none) (r : FontRevision) : reviseFontEffect n r s = refuse .absent s := by
  simp [reviseFontEffect, h]

theorem reviseFont_range (h : s.font n = some f)
    (hr : ¬(revisionOk r = true ∧ 0 < (applyRevision r f).width (applyRevision r f).hyphen)) :
    reviseFontEffect n r s = refuse .range s := by
  simp only [reviseFontEffect, h]
  refine if_pos ?_
  rw [Nat.pos_iff_ne_zero] at hr
  cases hk : revisionOk r <;> simp_all

/-- A frozen field is kept while the record is held (R15). -/
theorem reviseFont_inUse (h : s.font n = some f) (hr : revisionOk r = true)
    (hw : 0 < (applyRevision r f).width (applyRevision r f).hyphen) (hc : 0 < f.count) (hfr : revisionFrozen r = true) :
    reviseFontEffect n r s = (s, { status := .inUse, payload := f.countBytes }) := by
  simp [reviseFontEffect, h, hr, hfr, hc, hw.ne']

theorem reviseFont_done (h : s.font n = some f) (hr : revisionOk r = true)
    (hw : 0 < (applyRevision r f).width (applyRevision r f).hyphen) (hc : f.count = 0 ∨ revisionFrozen r = false) :
    reviseFontEffect n r s = done { s with fonts := s.fonts.map fun x => if x.number = n then applyRevision r x else x } := by
  rcases hc with hc | hc <;> simp [reviseFontEffect, h, hr, hc, hw.ne', State.onFont]

theorem revisionFrozen_iff (r : FontRevision) :
    revisionFrozen r = true ↔ r.widths.isSome = true ∨ r.kerns.isSome = true ∨ r.hyphen.isSome = true := by
  simp [revisionFrozen, or_assoc]

theorem revisionFrozen_eq_false (r : FontRevision) :
    revisionFrozen r = false ↔ r.widths = none ∧ r.kerns = none ∧ r.hyphen = none := by
  simp [revisionFrozen, and_assoc]

theorem retireFont_absent (h : s.font n = none) : retireFontEffect n s = refuse .absent s := by
  simp [retireFontEffect, h]

theorem retireFont_inUse (h : s.font n = some f) (hc : 0 < f.count) :
    retireFontEffect n s = (s, { status := .inUse, payload := f.countBytes }) := by
  simp [retireFontEffect, h, hc]

theorem retireFont_done (h : s.font n = some f) (hc : f.count = 0) :
    retireFontEffect n s = done { s with fonts := s.fonts.filter fun x => x.number ≠ n } := by
  simp [retireFontEffect, h, hc, bne, beq_eq_decide]

end

/-- Settles O16: the ranges of a revision, the record after it field by field, and the outcomes of the two requests. -/
theorem reviseAndRetireFont : Obligations.ReviseAndRetireFont := by
  unfold Obligations.ReviseAndRetireFont
  refine ⟨isCharCode_iff, fun r => ?_, fun s tag n ha => ⟨fun r hs => ⟨fun h => ?_, fun f hf => ?_⟩,
    fun h => ?_, fun f hf => ⟨fun hc => ?_, fun hc => ?_⟩⟩⟩
  · simpa only [mapOk_iff, kernsOk_iff, densityOk_iff] using revisionOk_iff r
  · exact exec_refused ha hs rfl (reviseFont_absent (s := s.received) h r)
  · refine ⟨rfl, rfl, rfl, rfl, rfl, rfl, fun g o h => ?_, fun h => ?_, fun c h hc => ?_, fun h => ?_, fun h => ?_, fun h => ?_,
      fun m h => ?_, fun h => ?_, fun l h hok hlen => ?_, fun ks h => ?_, fun h => ?_, fun b h => ?_, fun h => ?_, fun h => ?_,
      fun hok hw => ⟨fun hc hfr => ?_, fun hc => ?_⟩⟩
    · simp [applyRevision, h]
    · simp [applyRevision, h]
    · obtain ⟨face, hface⟩ := Option.isSome_iff_exists.1 ((faceOf_isSome c).2 hc)
      simp [applyRevision, h, hface, faceOf_eq_some hface]
    · simp [applyRevision, h]
    · simp [applyRevision, h]
    · simp [applyRevision, h]
    · simp only [applyRevision, h]
      cases m <;> rfl
    · simp [applyRevision, h]
    · obtain ⟨-, -, -, hwidths, -⟩ := (revisionOk_iff r).1 hok
      obtain ⟨-, hcodes, hnd⟩ := hwidths l h
      have hchar : ∀ x ∈ l, isCharCode x.1 = true := fun x hx => (hcodes x hx).1
      exact ⟨fun x hx => (applyRevision_width h _).trans (reviseWidths_named hlen hchar hnd hx),
        fun b hb => (applyRevision_width h _).trans (reviseWidths_unnamed hchar hb)⟩
    · simp [applyRevision, h]
    · simp [applyRevision, h]
    · simp [applyRevision, h]
    · simp [applyRevision, h]
    · exact exec_refused ha hs rfl (reviseFont_range (s := s.received) hf h)
    · exact exec_answered ha hs rfl (reviseFont_inUse (s := s.received) hf hok hw hc ((revisionFrozen_iff r).2 hfr))
    · exact exec_answered (t := { s with fonts := s.fonts.map fun x => if x.number = n then applyRevision r x else x }) ha hs rfl
        (reviseFont_done (s := s.received) hf hok hw (hc.imp_right (revisionFrozen_eq_false r).2))
  · exact exec_refused ha rfl rfl (retireFont_absent (s := s.received) h)
  · exact exec_answered ha rfl rfl (retireFont_inUse (s := s.received) hf hc)
  · exact exec_answered (t := { s with fonts := s.fonts.filter fun x => x.number ≠ n }) ha rfl rfl (retireFont_done (s := s.received) hf hc)

end Sys2Proof.Machine
end

section
/-! What a change of a station leaves, and the requests and the strip read of an exchange. -/

namespace Sys2Proof.Machine

open Sys2Proof

/-! ### Causes that are raised stay raised -/

section
variable {s : State}

theorem raise_holds_self (s : State) (n : Notice) : (s.raise n).link.holds n = true := by
  have hm : n.mask ≠ 0#24 := by cases n <;> decide
  have hand : (s.link.summary ||| n.mask) &&& n.mask = n.mask := by
    ext i hi
    simp only [BitVec.getElem_and, BitVec.getElem_or]
    cases s.link.summary[i] <;> cases n.mask[i] <;> rfl
  change ((s.link.summary ||| n.mask) &&& n.mask != 0#24) = true
  rw [hand]
  exact bne_iff_ne.2 hm

theorem raise_holds {m : Notice} (h : s.link.holds m = true) (n : Notice) : (s.raise n).link.holds m = true := by
  have hne : s.link.summary &&& m.mask ≠ 0#24 := bne_iff_ne.1 h
  refine bne_iff_ne.2 fun h0 => hne ?_
  change (s.link.summary ||| n.mask) &&& m.mask = 0#24 at h0
  ext i hi
  have hbit : ((s.link.summary ||| n.mask) &&& m.mask)[i] = (0#24)[i] := by rw [h0]
  simp only [BitVec.getElem_and, BitVec.getElem_or, BitVec.getElem_zero] at hbit ⊢
  revert hbit
  cases s.link.summary[i] <;> cases n.mask[i] <;> cases m.mask[i] <;> decide

theorem setStatus_holds {m : Notice} (h : s.link.holds m = true) (n : Nat) (c : CompStatus) :
    (s.setStatus n c).link.holds m = true := by
  by_cases hc : (∃ r, c = .stalled r) ∧ c ≠ (s.job n).status
  · rw [setStatus_of_change hc.1 hc.2]; exact raise_holds (s := s.withStatus n c) h _
  · rw [setStatus_of_no_change (by
      by_cases he : c = (s.job n).status
      · exact Or.inr he
      · exact Or.inl fun r hr => hc ⟨⟨r, hr⟩, he⟩)]
    exact h

theorem reask_holds {m : Notice} (h : s.link.holds m = true) (n : Nat) : (s.reask n).link.holds m = true := by
  simp only [State.reask]
  split
  · split <;> exact setStatus_holds h _ _
  · exact h

theorem reaskAll_holds {m : Notice} (h : s.link.holds m = true) : s.reaskAll.link.holds m = true :=
  foldl_invariant (P := fun s : State => s.link.holds m = true) (fun _ n h => reask_holds h n) h _

/-! ### A change of one station -/

/-- The stations of a state differ from another's at one station alone, which is marked changed, and STATION CHANGED is raised
(R22). -/
def Turned (s t : State) (n : Nat) (st : Station) : Prop :=
  t.station n = { st with changed := true } ∧ (∀ m, m ≠ n → t.station m = s.station m) ∧ t.link.holds .stationChanged = true

theorem changeStation_turned (h8 : s.turret.stations.length = 8) {n : Nat} (hn : n < 8) (f : Station → Station) :
    Turned s (s.changeStation n f) n (f (s.station n)) := by
  refine ⟨?_, fun m hm => ?_, reaskAll_holds (raise_holds_self _ _)⟩
  · rw [changeStation_station h8 hn, if_pos rfl]
  · rw [State.station, changeStation_turret]
    exact getD_modify_ne _ _ (Ne.symm hm) _

theorem mount_turned (h8 : s.turret.stations.length = 8) {n : Nat} (hn : n < 8) (k : Nat) :
    Turned s (s.mount n k) n { s.station n with state := .mounted, font := some k, prior := none } :=
  changeStation_turned (s := s.onFont k _) h8 hn _

theorem mount_fonts_eq (s : State) (n k : Nat) :
    (s.mount n k).fonts = s.fonts.map fun r => if r.number = k then { r with stationPart := r.stationPart + 1 } else r := by
  simp [mount_fonts]

theorem settleStation_of_font {n : Nat} {r : FontRecord} (h : s.fontOfMaster (s.station n).code = some r) :
    s.settleStation n = s.mount n r.number := by
  simp [State.settleStation, h]

theorem settleStation_of_none {n : Nat} (h : s.fontOfMaster (s.station n).code = none) :
    s.settleStation n = s.changeStation n fun st =>
      { st with state := if (s.station n).code = 4095 then .empty else .unknown, font := none, prior := none } := by
  simp [State.settleStation, h]

/-! ### A DRAINING station returns to its prior state -/

theorem returnPrior_of_mounted {n : Nat} (h : (s.station n).prior = some .mounted) :
    s.returnPrior n = s.endExchange.changeStation n fun st => { st with state := .mounted, prior := none } := by
  simp [State.returnPrior, h]

theorem returnPrior_of_font {n : Nat} {r : FontRecord} (h : (s.station n).prior ≠ some .mounted)
    (hr : s.fontOfMaster (s.station n).code = some r) : s.returnPrior n = s.endExchange.mount n r.number := by
  have hr' : s.endExchange.fontOfMaster (s.station n).code = some r := hr
  simp only [State.returnPrior, hr']

theorem returnPrior_of_none {n : Nat} (h : (s.station n).prior ≠ some .mounted)
    (hr : s.fontOfMaster (s.station n).code = none) :
    s.returnPrior n = s.endExchange.changeStation n fun st =>
      { st with state := (s.station n).prior.getD .unknown, prior := none } := by
  have hr' : s.endExchange.fontOfMaster (s.station n).code = none := hr
  simp only [State.returnPrior, hr']

/-- The exchange ends with the return (R33). -/
theorem returnPrior_exchange (s : State) (n : Nat) :
    (s.returnPrior n).turret.exchange = none ∧ (s.returnPrior n).turret.cancelPending = false := by
  have hchange : ∀ f, (s.endExchange.changeStation n f).turret.exchange = none ∧
      (s.endExchange.changeStation n f).turret.cancelPending = false := fun f => by
    rw [changeStation_turret]; exact ⟨rfl, rfl⟩
  by_cases hp : (s.station n).prior = some .mounted
  · rw [returnPrior_of_mounted hp]; exact hchange _
  · cases hr : s.fontOfMaster (s.station n).code with
    | none => rw [returnPrior_of_none hp hr]; exact hchange _
    | some r => rw [returnPrior_of_font hp hr, mount_turret]; exact ⟨rfl, rfl⟩

/-! ### PREPARE EXCHANGE -/

/-- A station in an exchange or not yet read (R28). -/
def Station.busy (st : Station) : Bool := st.state == .draining || st.state == .opened || st.state == .verifying

theorem Station.busy_iff (st : Station) : st.busy = true ↔ st.state = .draining ∨ st.state = .opened ∨ st.state = .verifying := by
  simp [Station.busy, or_assoc]

/-- The state with a station accepted for exchange, before the blocks react (R28). -/
def State.preparing (s : State) (n : Nat) : State :=
  ({ s with turret := { s.turret with exchange := some n, cancelPending := false, hatchMark := false } } : State).changeStation n
    fun st => { st with prior := some st.state, state := .draining }

theorem prepareExchange_eq (s : State) (n : Nat) :
    prepareExchangeEffect n s =
      if 7 < n then refuse .range s else if n ∈ s.turret.protection then refuse .shielded s
      else if (s.station n).busy then refuse .state s else if s.turret.stations.any Station.busy then refuse .busy s
      else (s.preparing n, { status := .started }) := by
  simp only [prepareExchangeEffect, List.contains_iff_mem]
  rfl

section
variable {n : Nat}

theorem prepareExchange_range (h : 7 < n) : prepareExchangeEffect n s = refuse .range s := by
  rw [prepareExchange_eq, if_pos h]

theorem prepareExchange_shielded (hn : n ≤ 7) (h : n ∈ s.turret.protection) : prepareExchangeEffect n s = refuse .shielded s := by
  rw [prepareExchange_eq, if_neg (Nat.not_lt.2 hn), if_pos h]

theorem prepareExchange_state (hn : n ≤ 7) (hp : n ∉ s.turret.protection) (h : (s.station n).busy = true) :
    prepareExchangeEffect n s = refuse .state s := by
  rw [prepareExchange_eq, if_neg (Nat.not_lt.2 hn), if_neg hp, if_pos h]

theorem prepareExchange_busy (hn : n ≤ 7) (hp : n ∉ s.turret.protection) (hb : ¬(s.station n).busy = true)
    (h : ∃ st ∈ s.turret.stations, st.busy = true) : prepareExchangeEffect n s = refuse .busy s := by
  rw [prepareExchange_eq, if_neg (Nat.not_lt.2 hn), if_neg hp, if_neg hb, if_pos (List.any_eq_true.2 h)]

theorem prepareExchange_started (hn : n ≤ 7) (hp : n ∉ s.turret.protection) (hb : ¬(s.station n).busy = true)
    (h : ∀ st ∈ s.turret.stations, ¬st.busy = true) :
    prepareExchangeEffect n s = (s.preparing n, { status := .started }) := by
  rw [prepareExchange_eq, if_neg (Nat.not_lt.2 hn), if_neg hp, if_neg hb, if_neg]
  rintro hany
  obtain ⟨st, hst, hbusy⟩ := List.any_eq_true.1 hany
  exact h st hst hbusy

end

/-! ### CANCEL EXCHANGE -/

section
variable {n : Nat}

theorem cancelExchange_range (h : 7 < n) : cancelExchangeEffect n s = refuse .range s := by
  simp [cancelExchangeEffect, h]

theorem cancelExchange_other (hn : n ≤ 7) (h : s.turret.exchange ≠ some n) : cancelExchangeEffect n s = refuse .state s := by
  simp [cancelExchangeEffect, hn, h]

theorem cancelExchange_rotating (hn : n ≤ 7) (hx : s.turret.exchange = some n) (hst : (s.station n).state = .draining) {k : Nat}
    (hm : s.turret.motion = .rotating .exchange k) :
    cancelExchangeEffect n s =
      if s.turret.cancelPending then refuse .state s
      else (s.onTurret fun t => { t with cancelPending := true }, { status := .started }) := by
  simp [cancelExchangeEffect, hn, hx, hst, hm]

theorem cancelExchange_draining (hn : n ≤ 7) (hx : s.turret.exchange = some n) (hst : (s.station n).state = .draining)
    (hm : ∀ k, s.turret.motion ≠ .rotating .exchange k) : cancelExchangeEffect n s = done (s.returnPrior n) := by
  simp only [cancelExchangeEffect, hx, hst, bne_self_eq_false, Bool.false_eq_true, if_false, Nat.not_lt.2 hn]

theorem cancelExchange_opened (hn : n ≤ 7) (hx : s.turret.exchange = some n) (hst : (s.station n).state = .opened) :
    cancelExchangeEffect n s =
      if s.turret.hatchMark then refuse .state s
      else done (((s.onTurret fun t => { t with latchEngaged := true }).endExchange).settleStation n) := by
  simp [cancelExchangeEffect, hn, hx, hst]

theorem cancelExchange_verifying (hn : n ≤ 7) (hx : s.turret.exchange = some n) (hst : (s.station n).state = .verifying) :
    cancelExchangeEffect n s = refuse .state s := by
  simp [cancelExchangeEffect, hn, hx, hst]

end

end

/-- The requests of an exchange, as they are answered (R28, R33 to R35). -/
theorem returnPrior_settles {s : State} {n : Nat} (h8 : s.turret.stations.length = 8) (hn : n < 8) :
    ((s.station n).prior = some .mounted →
      Turned s (s.returnPrior n) n { s.station n with state := .mounted, prior := none } ∧ (s.returnPrior n).fonts = s.fonts) ∧
    ((s.station n).prior ≠ some .mounted →
      (∀ r, s.fontOfMaster (s.station n).code = some r →
        Turned s (s.returnPrior n) n { s.station n with state := .mounted, font := some r.number, prior := none } ∧
        (s.returnPrior n).fonts = s.fonts.map fun x => if x.number = r.number then { x with stationPart := x.stationPart + 1 } else x) ∧
      (s.fontOfMaster (s.station n).code = none →
        Turned s (s.returnPrior n) n { s.station n with state := (s.station n).prior.getD .unknown, prior := none } ∧
        (s.returnPrior n).fonts = s.fonts)) := by
  refine ⟨fun hp => ?_, fun hp => ⟨fun r hr => ?_, fun hr => ?_⟩⟩
  · rw [returnPrior_of_mounted hp]
    exact ⟨changeStation_turned (s := s.endExchange) h8 hn _, by simp⟩
  · rw [returnPrior_of_font hp hr]
    exact ⟨mount_turned (s := s.endExchange) h8 hn _, mount_fonts_eq _ _ _⟩
  · rw [returnPrior_of_none hp hr]
    exact ⟨changeStation_turned (s := s.endExchange) h8 hn _, by simp⟩

theorem settleStation_settles {s : State} {n : Nat} (h8 : s.turret.stations.length = 8) (hn : n < 8) :
    (∀ r, s.fontOfMaster (s.station n).code = some r →
      Turned s (s.settleStation n) n { s.station n with state := .mounted, font := some r.number, prior := none } ∧
      (s.settleStation n).fonts = s.fonts.map fun x => if x.number = r.number then { x with stationPart := x.stationPart + 1 } else x) ∧
    (s.fontOfMaster (s.station n).code = none →
      Turned s (s.settleStation n) n
        { s.station n with state := if (s.station n).code = 4095 then .empty else .unknown, font := none, prior := none } ∧
      (s.settleStation n).fonts = s.fonts) := by
  refine ⟨fun r hr => ?_, fun hr => ?_⟩
  · rw [settleStation_of_font hr]
    exact ⟨mount_turned h8 hn _, mount_fonts_eq _ _ _⟩
  · rw [settleStation_of_none hr]
    exact ⟨changeStation_turned h8 hn _, by simp⟩

/-- Settles O17: the checks of the two requests in their order, the stages of an exchange, and the settling of a station. -/
theorem exchangeRequests : Obligations.ExchangeRequests := by
  unfold Obligations.ExchangeRequests
  intro s tag n ha
  refine ⟨⟨fun hn => ?_, fun hn hp => ?_, fun hn hp hb => ?_, fun hn hp hb hany => ?_, fun hn hp hb hall => ?_⟩,
    ⟨fun hn => ?_, fun hn hx => ?_, fun hn hx => ⟨fun k hst hm => ⟨fun hc => ?_, fun hc => ?_⟩, fun hst hm => ?_, fun hst hh => ?_,
      fun hst hh => ?_, fun hst => ?_⟩⟩, fun h8 hn => ?_⟩
  · exact exec_settled_refused ha rfl rfl (prepareExchange_range hn)
  · exact exec_settled_refused ha rfl rfl (prepareExchange_shielded (s := s.received) hn hp)
  · exact exec_settled_refused ha rfl rfl (prepareExchange_state (s := s.received) hn hp ((Station.busy_iff _).2 hb))
  · refine exec_settled_refused ha rfl rfl (prepareExchange_busy (s := s.received) hn hp (fun h => hb ((Station.busy_iff _).1 h)) ?_)
    obtain ⟨st, hst, h⟩ := hany
    exact ⟨st, hst, (Station.busy_iff _).2 h⟩
  · have he := prepareExchange_started (s := s.received) hn hp (fun h => hb ((Station.busy_iff _).1 h))
      fun st hst h => hall st hst ((Station.busy_iff _).1 h)
    have h := exec_settled (i := .prepareExchange tag n) ha rfl rfl he (by simp [State.preparing, State.received])
    exact h
  · exact exec_settled_refused ha rfl rfl (cancelExchange_range hn)
  · exact exec_settled_refused ha rfl rfl (cancelExchange_other (s := s.received) hn hx)
  · exact exec_settled_refused ha rfl rfl ((cancelExchange_rotating (s := s.received) hn hx hst hm).trans (if_pos hc))
  · exact exec_settled (t := s.received.onTurret fun t => { t with cancelPending := true }) ha rfl rfl
      ((cancelExchange_rotating (s := s.received) hn hx hst hm).trans (if_neg (Bool.eq_false_iff.1 hc))) rfl
  · exact exec_settled ha rfl rfl (cancelExchange_draining (s := s.received) hn hx hst hm) (by simp [State.received])
  · exact exec_settled_refused ha rfl rfl ((cancelExchange_opened (s := s.received) hn hx hst).trans (if_pos hh))
  · exact exec_settled ha rfl rfl
      ((cancelExchange_opened (s := s.received) hn hx hst).trans (if_neg (Bool.eq_false_iff.1 hh))) (by simp [State.received])
  · exact exec_settled_refused ha rfl rfl (cancelExchange_verifying (s := s.received) hn hx hst)
  · obtain ⟨hret1, hret2⟩ := returnPrior_settles h8 hn
    obtain ⟨hset1, hset2⟩ := settleStation_settles h8 hn
    exact ⟨returnPrior_exchange s n, hret1, hret2, hset1, hset2⟩

end Sys2Proof.Machine
end

section
/-! The power-on reset in full, and the queries. -/

namespace Sys2Proof.Machine

open Sys2Proof

/-! ### Power-on reset -/

theorem raiseIf_eq (s : State) (b : Bool) (n : Notice) :
    s.raiseIf b n = s.onLink fun l => { l with summary := l.summary ||| if b then n.mask else 0#24 } := by
  cases b
  · change s = { s with link := { s.link with summary := s.link.summary ||| 0#24 } }
    rw [BitVec.or_zero]
  · rfl

/-- Settles O12: the fields of State.reset, with the readings, and the two causes that the readings may raise. -/
theorem powerOnResetState : Obligations.PowerOnResetState := by
  unfold Obligations.PowerOnResetState
  intro s r
  have hreset : Link.powerOn.summary = 1#24 := by decide
  have hcover : Notice.coverOpen.mask = 0x010000#24 := by decide
  have hpaper : Notice.proofStopped.mask = 0x040000#24 := by decide
  change Host.Outcome.next (powerOnResetEffect r s) = _
  rw [powerOnResetEffect, raiseIf_eq, raiseIf_eq, hcover, hpaper, ← hreset]
  rfl

/-! ### Queries -/

section
variable {s : State} {i : Instr} {tag : Byte} {e : Effect}

/-- A query is answered, and changes no state but for its reply. -/
theorem exec_query (ha : s.accepting) (hs : i.shapeOk = true) (hi : effectOf i = some (tag, e))
    (he : (e s.received).1 = s.received) : exec i s = .next (s.answered (replyOf i tag (e s.received).2)) :=
  exec_answered ha hs hi (Prod.ext he rfl)

end

section
variable (s : State)

theorem queryJob_answer (n : Nat) :
    (queryJobEffect n s).1 = s ∧ (queryJobEffect n s).2.status = .done ∧ (queryJobEffect n s).2.part = false := by
  simp only [queryJobEffect]
  split <;> exact ⟨rfl, rfl, rfl⟩

theorem queryFont_answer (n : Nat) :
    (queryFontEffect n s).1 = s ∧
    (queryFontEffect n s).2.status =
      if n = 0 then .done else if 999 < n then .range else if (s.font n).isSome then .done else .absent := by
  by_cases h0 : n = 0
  · simp [queryFontEffect, h0]
  · by_cases h1 : 999 < n
    · simp [queryFontEffect, h0, h1, refuse]
    · cases hf : s.font n <;> simp [queryFontEffect, h0, h1, hf, refuse]

theorem queryLanguage_answer (n : Nat) :
    (queryLanguageEffect n s).1 = s ∧
    (queryLanguageEffect n s).2.status = if 3 < n then .range else if (s.language n).isSome then .done else .absent := by
  by_cases h1 : 3 < n
  · simp [queryLanguageEffect, h1, refuse]
  · cases hl : s.language n <;> simp [queryLanguageEffect, h1, hl, refuse]

theorem tryWord_answer (n : Nat) (w : List Byte) :
    (tryWordEffect n w s).1 = s ∧
    (tryWordEffect n w s).2.status =
      if n ≤ 3 ∧ w ≠ [] ∧ w.length ≤ 240 ∧ (∀ b ∈ w, isCharCode b = true ∨ b = 0x1F#8) then
        (if (s.job n).composing then .done else .state)
      else .range := by
  have hcond : (n ≤ 3 && !w.isEmpty && w.length ≤ 240 && w.all fun b => isCharCode b || b == 0x1F#8) = true ↔
      n ≤ 3 ∧ w ≠ [] ∧ w.length ≤ 240 ∧ ∀ b ∈ w, isCharCode b = true ∨ b = 0x1F#8 := by
    simp [and_assoc]
  by_cases h : n ≤ 3 ∧ w ≠ [] ∧ w.length ≤ 240 ∧ ∀ b ∈ w, isCharCode b = true ∨ b = 0x1F#8
  · rw [if_pos h]
    simp only [tryWordEffect, hcond.2 h, Bool.not_true, Bool.false_eq_true, if_false]
    cases hc : (s.job n).composing <;> exact ⟨rfl, rfl⟩
  · rw [if_neg h]
    simp only [tryWordEffect, Bool.eq_false_iff.2 (mt hcond.1 h), Bool.not_false, if_true]
    exact ⟨rfl, rfl⟩

theorem queryWord_bySlot_answer (n : Nat) :
    (queryWordEffect (.bySlot n) s).1 = s ∧
    (queryWordEffect (.bySlot n) s).2.status =
      if 4096 ≤ n then .range else if (entryAt s.dict n).isSome then .done else .absent := by
  by_cases h1 : 4096 ≤ n
  · simp [queryWordEffect, nameEntry, Config.dictSlots, h1, refuse]
  · cases hl : entryAt s.dict n <;> simp [queryWordEffect, nameEntry, Config.dictSlots, h1, hl, refuse]

/-- The operands of LIST WORDS that lie in their ranges (R121). -/
def listRangeOk (c l k j d : Nat) : Prop := c ≤ 4096 ∧ (l ≤ 3 ∨ l = 255) ∧ k ≤ 4 ∧ (k = 4 → j ≤ 3 ∧ d ≠ 0)

theorem listWords_range {c l k j d : Nat} (h : ¬listRangeOk c l k j d) : listWordsEffect c l k j d s = refuse .range s := by
  refine if_pos ?_
  have hslots : Config.dictSlots = 4096 := rfl
  simp only [Bool.or_eq_true, Bool.and_eq_true, decide_eq_true_eq, bne_iff_ne, beq_iff_eq]
  unfold listRangeOk at h
  omega

theorem listWords_done {c l k j d : Nat} (h : listRangeOk c l k j d) :
    (listWordsEffect c l k j d s).1 = s ∧ (listWordsEffect c l k j d s).2.status = .done ∧
    ((listWordsEffect c l k j d s).2.part = true ↔
      ∃ e, (s.dict.filter fun e => c ≤ e.slot && listFilter l k j d e)[15]? = some e ∧ e.slot + 1 < 4096) := by
  have hcond : ¬(c > Config.dictSlots || (l > 3 && l != 255) || k > 4 || (k == 4 && (j > 3 || d == 0))) = true := by
    have hslots : Config.dictSlots = 4096 := rfl
    simp only [Bool.or_eq_true, Bool.and_eq_true, decide_eq_true_eq, bne_iff_ne, beq_iff_eq]
    unfold listRangeOk at h
    omega
  simp only [listWordsEffect, if_neg hcond]
  refine ⟨trivial, trivial, ?_⟩
  rw [List.getElem?_take_of_lt (by decide)]
  cases (s.dict.filter fun e => c ≤ e.slot && listFilter l k j d e)[15]? <;> simp
  rfl

theorem queryQueue_summary_answer (n : Nat) :
    (queryQueueEffect (.summary n) s).1 = s ∧
    (63 < n → (queryQueueEffect (.summary n) s).2.status = .range) ∧
    (n ≤ 63 → (queryQueueEffect (.summary n) s).2.status = .done ∧
      ((queryQueueEffect (.summary n) s).2.part = true ↔ n + 32 < s.queue.entries.length)) := by
  by_cases h : 63 < n
  · simp [queryQueueEffect, h, refuse, Nat.not_le.2 h]
  · simp [queryQueueEffect, h]

theorem queryQueue_entry_answer (n g : Nat) :
    (queryQueueEffect (.entry n g) s).1 = s ∧
    (queryQueueEffect (.entry n g) s).2.status =
      (if 239 < g then .range else if (s.queue.find n).isSome then .done else .absent) ∧
    ∀ e : Entry, g ≤ 239 → s.queue.find n = some e →
      ((queryQueueEffect (.entry n g) s).2.part = true ↔ g + 120 < e.body.glyphCount) := by
  by_cases h : 239 < g
  · simp [queryQueueEffect, h, refuse, Nat.not_le.2 h]
  · cases hf : s.queue.find n <;> simp [queryQueueEffect, h, hf, refuse]

end

/-- Settles O13: each query's effect leaves the state as it is, with its status and its PARTIAL flag. -/
theorem queriesChangeNothing : Obligations.QueriesChangeNothing := by
  unfold Obligations.QueriesChangeNothing
  intro s tag ha
  refine ⟨?_, fun n => ?_, ?_, fun n => ?_, fun n => ?_, fun n w hw => ?_, fun n => ?_, fun c l k j d => ?_, fun n => ?_, fun n g => ?_⟩
  · have hdone : ∀ {i : Instr} {e : Effect} (k : Nat) (hs : i.shapeOk = true) (hi : effectOf i = some (tag, e)),
        (e s.received).1 = ({ s with freeCount := k } : State).received → (e s.received).2.status = .done →
        (e s.received).2.clamped = false → (e s.received).2.part = false → ∃ (r : Reply) (k : Nat),
          exec i s = .next (({ s with freeCount := k } : State).answered r) ∧ r.code = codeByte i ∧ r.tag = tag ∧
          r.status = .done ∧ r.clamped = false ∧ r.part = false :=
      fun k hs hi he h1 h2 h3 => ⟨_, k, exec_answered ha hs hi (Prod.ext he rfl), rfl, rfl, h1, h2, h3⟩
    simp only [List.forall_mem_cons]
    refine ⟨hdone s.freeCount rfl rfl rfl rfl rfl rfl, hdone s.freeCount rfl rfl rfl rfl rfl rfl,
      hdone (s.freeCount + 1) rfl rfl rfl rfl rfl rfl,
      hdone (if s.proof.stallTimer then s.freeCount + 1 else s.freeCount) rfl rfl ?_ rfl rfl rfl, by simp⟩
    change (if s.proof.stallTimer then _ else _) = _
    split <;> rfl
  · obtain ⟨h1, h2, h3⟩ := queryJob_answer s.received n
    exact ⟨_, exec_query ha rfl rfl h1, h2, h3⟩
  · exact ⟨_, rfl, exec_answered (i := .queryStations tag) ha rfl rfl rfl⟩
  · obtain ⟨h1, h2⟩ := queryFont_answer s.received n
    exact ⟨_, exec_query ha rfl rfl h1, h2⟩
  · obtain ⟨h1, h2⟩ := queryLanguage_answer s.received n
    exact ⟨_, exec_query ha rfl rfl h1, h2⟩
  · obtain ⟨h1, h2⟩ := tryWord_answer s.received n w
    exact ⟨_, exec_query (i := .tryWord tag n w) ha (by simpa [Instr.shapeOk, countFits] using hw) rfl h1, h2⟩
  · obtain ⟨h1, h2⟩ := queryWord_bySlot_answer s.received n
    exact ⟨_, exec_query ha rfl rfl h1, h2⟩
  · by_cases h : listRangeOk c l k j d
    · obtain ⟨h1, h2, h3⟩ := listWords_done s.received h
      exact ⟨_, exec_query ha rfl rfl h1, ⟨fun _ => h, fun _ => h2⟩, fun hne => absurd h2 hne, fun _ => h3⟩
    · have hr := listWords_range s.received h
      exact ⟨_, exec_refused ha rfl rfl hr, ⟨nofun, fun hok => absurd hok h⟩, fun _ => rfl, nofun⟩
  · obtain ⟨h1, h2, h3⟩ := queryQueue_summary_answer s.received n
    exact ⟨_, exec_query ha rfl rfl h1, h2, h3⟩
  · obtain ⟨h1, h2, h3⟩ := queryQueue_entry_answer s.received n g
    exact ⟨_, exec_query ha rfl rfl h1, h2, h3⟩

end Sys2Proof.Machine
end

section
/-! The strip read: its retry, its verdict, and the pass that steps on. -/

namespace Sys2Proof.Machine

open Sys2Proof

section
variable {s : State}

/-- The code that was read is recorded (R22). -/
def State.withCode (s : State) (n code : Nat) : State :=
  { s with turret := { s.turret with
      read := .none, stations := s.turret.stations.modify n fun st => { st with code := code } } }

/-- The exchange of a station is ended, where it is the exchange station (R32). -/
def State.endExchangeOf (s : State) (n : Nat) : State :=
  if s.turret.exchange = some n then
    { s with turret := { s.turret with exchange := none, cancelPending := false, hatchMark := false } }
  else s

/-- A station is settled by a code (R11). -/
def State.settledBy (s : State) (n code : Nat) : State :=
  match s.fontOfMaster code with
  | some r => s.mount n r.number
  | none => s.changeStation n fun st =>
      { st with state := if code = 4095 then .empty else .unknown, font := none, prior := none }

theorem settleStation_eq_settledBy {n code : Nat} (h : (s.station n).code = code) : s.settleStation n = s.settledBy n code := by
  subst h
  simp only [State.settledBy]
  split
  · next hr => exact settleStation_of_font hr
  · next hr => exact settleStation_of_none hr

theorem endExchangeOf_station (s : State) (n m : Nat) : (s.endExchangeOf n).station m = s.station m := by
  simp only [State.endExchangeOf]
  split <;> rfl

theorem endExchangeOf_fontOfMaster (s : State) (n code : Nat) : (s.endExchangeOf n).fontOfMaster code = s.fontOfMaster code := by
  simp only [State.endExchangeOf]
  split <;> rfl

theorem withCode_station {n : Nat} (h : n < s.turret.stations.length) (code : Nat) : ((s.withCode n code).station n).code = code := by
  have := getD_modify_self (fun st : Station => { st with code := code }) h (d := Station.powerOn)
  simp only [State.station, State.withCode]
  rw [this]

/-- The verdict on a station (R22, R32), before the pass steps on. -/
def State.judged (s : State) (code : Nat) : State :=
  let n := s.turret.hatchStation
  ((s.withCode n code).endExchangeOf n).settledBy n code

theorem verdict_eq (h8 : s.turret.stations.length = 8) (code : Nat) :
    s.verdict code = match (s.judged code).turret.pass with
      | .reading k => (s.judged code).onTurret fun t => { t.rotate .verification ((k + 1) % 8) with pass := .stepping (k + 1) }
      | _ => s.judged code := by
  have hn : s.turret.hatchStation < s.turret.stations.length := h8 ▸ hatchStation_lt s.turret
  have hcode : (((s.withCode s.turret.hatchStation code).endExchangeOf s.turret.hatchStation).station
      s.turret.hatchStation).code = code := by
    rw [endExchangeOf_station, withCode_station hn]
  have hsettled := settleStation_eq_settledBy hcode
  simp only [State.judged, ← hsettled]
  simp only [State.verdict, State.endExchangeOf, beq_iff_eq]
  rfl

theorem settledBy_pass (s : State) (n code : Nat) : (s.settledBy n code).turret.pass = s.turret.pass := by
  simp only [State.settledBy]
  split
  · rw [mount_turret]
  · rw [changeStation_turret]

theorem judged_pass (s : State) (code : Nat) : (s.judged code).turret.pass = s.turret.pass := by
  rw [State.judged, settledBy_pass, State.endExchangeOf]
  split <;> rfl

theorem verdict_of_pass_other (h8 : s.turret.stations.length = 8) (code : Nat) (hp : ∀ k, s.turret.pass ≠ .reading k) :
    s.verdict code = s.judged code := by
  rw [verdict_eq h8, judged_pass]
  split
  · next k hk => exact absurd hk (hp k)
  · rfl

theorem verdict_of_reading (h8 : s.turret.stations.length = 8) (code : Nat) {k : Nat} (hp : s.turret.pass = .reading k) :
    s.verdict code =
      (s.judged code).onTurret fun t => { t.rotate .verification ((k + 1) % 8) with pass := .stepping (k + 1) } := by
  rw [verdict_eq h8, judged_pass, hp]

theorem stripReadComplete_retry {code : Nat} (h : s.turret.read = .first) (hc : code = 0) :
    stripReadCompleteEffect code s = s.onTurret fun t => { t with read := .retry } := by
  simp [stripReadCompleteEffect, h, hc]

theorem stripReadComplete_verdict {code : Nat} (h : s.turret.read = .retry ∨ (s.turret.read = .first ∧ code ≠ 0)) :
    stripReadCompleteEffect code s = s.verdict code := by
  obtain h | ⟨h, hc⟩ := h
  · simp [stripReadCompleteEffect, h]
  · simp [stripReadCompleteEffect, h, hc]

end

/-- Settles O20: the retry of a first read of 0, the verdict of any other, and the step of the pass. -/
theorem stripReadSettlesTheStation : Obligations.StripReadSettlesTheStation := by
  unfold Obligations.StripReadSettlesTheStation
  intro s code
  have hexec : ∀ {t}, stripReadCompleteEffect code s = t → exec (.stripReadComplete code) s = .next (settle s t) := fun h => by
    rw [← h]; rfl
  refine ⟨fun h => hexec ?_, fun h hc => hexec (stripReadComplete_retry h hc), fun h => ?_, fun n f => ⟨rfl, fun k => ?_⟩⟩
  · simp [stripReadCompleteEffect, h]
  · intro n u v h8 w
    have hfont : v.fontOfMaster code = s.fontOfMaster code := endExchangeOf_fontOfMaster u n code
    have hw : s.judged code = w := by
      change v.settledBy n code = w
      rw [State.settledBy, hfont] <;> rfl
    rw [← hw]
    exact ⟨fun hp => hexec ((stripReadComplete_verdict h).trans (verdict_of_pass_other h8 code hp)),
      fun k hk => hexec ((stripReadComplete_verdict h).trans (verdict_of_reading h8 code hk))⟩
  · simp [State.mount, State.onFont]

end Sys2Proof.Machine
end

section
/-! RESET COMPOSITION: what the discarded lines and the removed entries leave of the fonts, the stations and the queue. -/

namespace Sys2Proof.Machine

open Sys2Proof

/-! ### Fonts but for their counts, stations but for their pins and claims -/

theorem map_modify_of_eq {α β : Type} {p : α → β} {f : α → α} (hf : ∀ x, p (f x) = p x) (l : List α) (n : Nat) :
    (l.modify n f).map p = l.map p := by
  refine List.ext_getElem? fun m => ?_
  simp only [List.getElem?_map, List.getElem?_modify]
  split
  · cases l[m]? <;> simp [hf]
  · cases l[m]? <;> rfl

/-- A station but for its pins and claims. -/
def Station.unused (st : Station) : Station := { st with pins := 0, claims := 0 }

/-- What a discarded line and a removed entry leave of the fonts and the stations. -/
structure SameHolders (s t : State) : Prop where
  fonts : t.fonts.map FontRecord.uncounted = s.fonts.map FontRecord.uncounted
  stations : t.turret.stations.map Station.unused = s.turret.stations.map Station.unused
  turret : { t.turret with stations := s.turret.stations } = s.turret

theorem SameHolders.refl (s : State) : SameHolders s s := ⟨rfl, rfl, rfl⟩

theorem SameHolders.trans {s t u : State} (h : SameHolders s t) (h' : SameHolders t u) : SameHolders s u := by
  refine ⟨h'.fonts.trans h.fonts, h'.stations.trans h.stations, ?_⟩
  calc
    { u.turret with stations := s.turret.stations }
      = { ({ u.turret with stations := t.turret.stations } : Turret) with stations := s.turret.stations } := rfl
    _ = { t.turret with stations := s.turret.stations } := by rw [h'.turret]
    _ = s.turret := h.turret

/-- Two states are compared by their fonts and their turrets alone. -/
theorem SameHolders.of_frame {s t s' t' : State} (h : SameHolders s t) (hfs : s'.fonts = s.fonts) (hts : s'.turret = s.turret)
    (hft : t'.fonts = t.fonts) (htt : t'.turret = t.turret) : SameHolders s' t' :=
  ⟨by rw [hfs, hft]; exact h.fonts, by rw [hts, htt]; exact h.stations, by rw [hts, htt]; exact h.turret⟩

theorem foldl_sameHolders {α : Type} {f : State → α → State} (hf : ∀ s a, SameHolders s (f s a)) (l : List α) (s : State) :
    SameHolders s (l.foldl f s) :=
  foldl_invariant (P := SameHolders s) (fun t a h => h.trans (hf t a)) (SameHolders.refl s) l

theorem onFont_sameHolders (s : State) (n : Nat) {g : FontRecord → FontRecord} (hg : ∀ r, (g r).uncounted = r.uncounted) :
    SameHolders s (s.onFont n g) :=
  ⟨map_map_of_eq fun r _ => by split <;> simp [hg], rfl, rfl⟩

theorem onStation_sameHolders (s : State) (n : Nat) {f : Station → Station} (hf : ∀ st, (f st).unused = st.unused) :
    SameHolders s (s.onStation n f) :=
  ⟨rfl, map_modify_of_eq hf _ _, rfl⟩

theorem dropLineRefs_sameHolders (s : State) (l : List Nat) : SameHolders s (s.dropLineRefs l) := by
  rw [State.dropLineRefs]
  exact foldl_sameHolders (fun s n => onFont_sameHolders s n (by exact fun _ => rfl)) l s

theorem dropEntryRefs_sameHolders (s : State) (l : List Nat) : SameHolders s (s.dropEntryRefs l) := by
  rw [State.dropEntryRefs]
  exact foldl_sameHolders (fun s n => onFont_sameHolders s n (by exact fun _ => rfl)) l s

theorem dropClaims_sameHolders (s : State) (l : List Nat) : SameHolders s (s.dropClaims l) := by
  rw [State.dropClaims]
  exact foldl_sameHolders (fun s n => onStation_sameHolders s n (by exact fun _ => rfl)) l s

theorem dropPins_sameHolders (s : State) (l : List Nat) : SameHolders s (s.dropPins l) := by
  rw [State.dropPins]
  exact foldl_sameHolders (fun s n => onStation_sameHolders s n (by exact fun _ => rfl)) l s

theorem discardLine_sameHolders (s : State) (n : Nat) : SameHolders s (s.discardLine n) :=
  ((dropLineRefs_sameHolders s (s.job n).line.fonts).trans (dropClaims_sameHolders _ (s.job n).line.stations)).of_frame
    rfl rfl rfl rfl

theorem removeEntry_sameHolders (s : State) (e : Entry) : SameHolders s (s.removeEntry e) := by
  have h := dropEntryRefs_sameHolders (s.onQueue fun q => { q with entries := q.entries.filter (·.serial != e.serial) }) e.body.fonts
  simp only [State.removeEntry]
  split
  · exact h.of_frame rfl rfl rfl rfl
  · exact (h.trans (dropPins_sameHolders _ e.body.stations)).of_frame rfl rfl rfl rfl

theorem clearQueue_sameHolders (s : State) : SameHolders s s.clearQueue :=
  (foldl_sameHolders removeEntry_sameHolders (s.queue.entries.filter fun e => e.expo != .inFlight) s).of_frame rfl rfl rfl rfl

/-! ### The entries that stay -/

theorem removeAll_entries (l : List Entry) (s : State) :
    (l.foldl State.removeEntry s).queue.entries = s.queue.entries.filter fun e => l.all fun x => e.serial != x.serial := by
  induction l generalizing s with
  | nil => simp
  | cons x l ih =>
    rw [List.foldl_cons, ih, removeEntry_entries, List.filter_filter]
    exact List.filter_congr fun e _ => by rw [List.all_cons, Bool.and_comm]

theorem clearQueue_entries (s : State) :
    s.clearQueue.queue.entries =
      (((s.queue.entries.filter fun e => e.expo != .inFlight).foldl State.removeEntry s).queue.entries.map
        fun e => { e with attributed := false }) := rfl

/-- Where the serials are distinct, the entry in flight alone stays. -/
theorem kept_iff_inFlight {l : List Entry} (h : (l.map (·.serial)).Nodup) {e : Entry} (he : e ∈ l) :
    ((l.filter fun e => e.expo != .inFlight).all fun x => e.serial != x.serial) = decide (e.expo = .inFlight) := by
  have hinj := List.inj_on_of_nodup_map h
  rw [Bool.eq_iff_iff, List.all_eq_true, decide_eq_true_eq]
  constructor
  · intro hall
    by_contra hne
    have := hall e (List.mem_filter.2 ⟨he, bne_iff_ne.2 hne⟩)
    exact absurd rfl (bne_iff_ne.1 this)
  · intro hfl x hx
    obtain ⟨hx, hne⟩ := List.mem_filter.1 hx
    refine bne_iff_ne.2 fun hs => bne_iff_ne.1 hne ?_
    rw [← hinj he hx hs]; exact hfl

/-- An entry that stays was in flight, also where serials coincide. -/
theorem clearQueue_inFlight (s : State) : ∀ e ∈ s.clearQueue.queue.entries, e.expo = .inFlight ∧ e.attributed = false := by
  intro e he
  rw [clearQueue_entries, removeAll_entries] at he
  obtain ⟨x, hx, rfl⟩ := List.mem_map.1 he
  obtain ⟨hx, hall⟩ := List.mem_filter.1 hx
  refine ⟨?_, rfl⟩
  by_contra hne
  have := List.all_eq_true.1 hall x (List.mem_filter.2 ⟨hx, bne_iff_ne.2 hne⟩)
  exact absurd rfl (bne_iff_ne.1 this)

theorem clearQueue_entries_of_nodup {s : State} (h : (s.queue.entries.map (·.serial)).Nodup) :
    s.clearQueue.queue.entries =
      (s.queue.entries.filter fun e => e.expo = .inFlight).map fun e => { e with attributed := false } := by
  rw [clearQueue_entries, removeAll_entries, List.filter_congr fun e he => kept_iff_inFlight h he]

/-! ### The state after the reset -/

/-- The state in which RESET COMPOSITION has discarded the lines and removed the entries. -/
def State.cleared (s : State) : State := ([0, 1, 2, 3].foldl State.discardLine s).clearQueue

/-- An entry whose line has left the print list is NOT TAKEN again (R193). -/
def Entry.withdrawn (list : List PrintLine) (e : Entry) : Entry :=
  if e.proof == .inPrint && !(list.any fun l => l.kind == PrintKind.entry e.serial) then { e with proof := .notTaken } else e

/-- What RESET COMPOSITION makes of the state in which the lines are discarded and the entries removed, before the blocks react
(R204). -/
def State.recomposed (v : State) : State :=
  { v with
    jobs := v.jobs.map fun _ => Job.free
    galleyOrder := [], exposureHead := none, proofHead := none
    engine := { serving := none, pointer := 0 }
    dict := v.dict.filter fun e => !match e.scope with | .job _ _ => true | _ => false
    queue := { v.queue with entries := v.queue.entries.map (Entry.withdrawn v.proof.compositionReset.list) }
    expo := { v.expo with
      state := if v.expo.state == .waitingLamp then .idle else v.expo.state
      flight := v.expo.flight.map fun fl => { fl with attributed := false }, named := none }
    film := { v.film with owner := match v.film.owner with | .job _ _ => .ended | o => o }
    link := { v.link with cause := .composition, summary := v.link.summary ||| Notice.reset.mask }
    proof := { v.proof.compositionReset with head := none, named := none } }

theorem resetComposition_eq (s : State) : resetCompositionEffect s = done s.cleared.recomposed := by
  have hcleared : ([0, 1, 2, 3].foldl State.discardLine s).clearQueue = s.cleared := rfl
  simp only [resetCompositionEffect, hcleared]
  generalize s.cleared = v
  rfl

theorem recomposed_frameBegun (v : State) : v.recomposed.link.frameBegun = v.link.frameBegun := rfl

theorem recomposed_link (v : State) :
    v.recomposed.link = { v.link with cause := .composition, summary := v.link.summary ||| 1#24 } := rfl

theorem recomposed_expo (v : State) :
    v.recomposed.expo = { v.expo with
      state := if v.expo.state = .waitingLamp then .idle else v.expo.state
      flight := v.expo.flight.map fun fl => { fl with attributed := false }, named := none } := by
  simp [State.recomposed]

theorem recomposed_protection {v : State} {t : Turret} (h : { v.turret with stations := t.stations } = t) :
    v.recomposed.turret.protection = t.protection := by
  rw [← h]; rfl

theorem recomposed_holds_reset (v : State) : v.recomposed.link.holds .reset = true :=
  raise_holds_self (v.onLink fun l => { l with cause := .composition }) .reset

section
variable (s : State)

theorem cleared_sameHolders : SameHolders s s.cleared :=
  (foldl_sameHolders discardLine_sameHolders _ s).trans (clearQueue_sameHolders _)

theorem cleared_queue : s.cleared.queue.nextSerial = s.queue.nextSerial := by
  simp [State.cleared]

theorem cleared_entries (h : (s.queue.entries.map (·.serial)).Nodup) :
    s.cleared.queue.entries =
      (s.queue.entries.filter fun e => e.expo = .inFlight).map fun e => { e with attributed := false } := by
  have hq : ([0, 1, 2, 3].foldl State.discardLine s).queue = s.queue := by simp
  rw [State.cleared, clearQueue_entries_of_nodup (by rw [hq]; exact h), hq]

/-- What the lines and the entries leave alone. -/
theorem cleared_keeps :
    s.cleared.jobs.length = s.jobs.length ∧ s.cleared.dict = s.dict ∧ s.cleared.expo = s.expo ∧ s.cleared.film = s.film ∧
    s.cleared.link = s.link ∧ s.cleared.proof = s.proof ∧ s.cleared.house = s.house ∧ s.cleared.houseLocked = s.houseLocked ∧
    s.cleared.galleyGap = s.galleyGap ∧ s.cleared.languages = s.languages ∧ s.cleared.lamp = s.lamp := by
  simp [State.cleared]

theorem compositionReset_list (p : Proof) : p.compositionReset.list = if p.begun then p.list.take 1 else [] := by
  have hfollow : ∀ p : Proof, p.follow.list = p.list := fun p => by
    simp only [Proof.follow]
    (repeat' split) <;> rfl
  rw [Proof.compositionReset]
  split <;> exact hfollow _

theorem compositionReset_gapCount (p : Proof) : p.compositionReset.gapCount = 0 := by
  have hfollow : ∀ p : Proof, p.follow.gapCount = p.gapCount := fun p => by
    simp only [Proof.follow]
    (repeat' split) <;> rfl
  rw [Proof.compositionReset]
  split <;> exact hfollow _

theorem Entry.withdrawn_eq (list : List PrintLine) (e : Entry) :
    e.withdrawn list = { e with
      proof := if e.proof = .inPrint ∧ ∀ l ∈ list, l.kind ≠ .entry e.serial then .notTaken else e.proof } := by
  have hcond : (e.proof == .inPrint && !(list.any fun l => l.kind == PrintKind.entry e.serial)) = true ↔
      e.proof = .inPrint ∧ ∀ l ∈ list, l.kind ≠ .entry e.serial := by
    simp
  rw [Entry.withdrawn]
  by_cases h : e.proof = .inPrint ∧ ∀ l ∈ list, l.kind ≠ .entry e.serial
  · rw [if_pos (hcond.2 h), if_pos h]
  · rw [if_neg (mt hcond.1 h), if_neg h]

theorem jobWords_eq (d : List DictEntry) :
    (d.filter fun e => !match e.scope with | .job _ _ => true | _ => false) = d.filter fun e => e.scope = .house ∨ e.scope = .desk :=
  List.filter_congr fun e _ => by cases e.scope <;> rfl

end

/-- Settles O11: the closed form of the reset, part by part. -/
theorem compositionResetFreesTheJobs : Obligations.CompositionResetFreesTheJobs := by
  unfold Obligations.CompositionResetFreesTheJobs
  intro s tag ha
  obtain ⟨hjobs, hdict, hexpo, hfilm, hlink, hproof, hhouse, hlocked, hgap, hlang, hlamp⟩ := cleared_keeps s.received
  obtain ⟨hfonts, hstations, hturret⟩ := cleared_sameHolders s.received
  have hserial := cleared_queue s.received
  have hentries := cleared_entries s.received
  have hkept := clearQueue_inFlight ([0, 1, 2, 3].foldl State.discardLine s.received)
  change ∀ e ∈ s.received.cleared.queue.entries, _ at hkept
  have hframe : s.received.cleared.recomposed.link.frameBegun = false :=
    (recomposed_frameBegun _).trans (congrArg Link.frameBegun hlink)
  refine ⟨s.received.cleared.recomposed, exec_settled_done ha rfl rfl (resetComposition_eq s.received) hframe, ?_⟩
  clear hframe
  generalize s.received.cleared = v at *
  have hlist : v.recomposed.proof.list = v.proof.compositionReset.list := rfl
  refine ⟨?_, rfl, rfl, rfl, rfl, ?_, fun hnd => ?_, ?_, hserial, ?_, compositionReset_gapCount v.proof, ?_, hfonts, hhouse, hlocked, hgap,
    hlang, hturret, hstations, ?_, recomposed_protection hturret, hlamp, ?_, rfl, recomposed_holds_reset v⟩
  · exact List.map_const' .. |>.trans (by rw [hjobs]; rfl)
  · exact (jobWords_eq v.dict).trans (by rw [hdict]; rfl)
  · rw [hlist]
    change v.queue.entries.map (Entry.withdrawn v.proof.compositionReset.list) = _
    rw [hentries hnd, List.map_map]
    exact List.map_congr_left fun e _ => Entry.withdrawn_eq _ _
  · intro e he
    obtain ⟨x, hx, rfl⟩ := List.mem_map.1 he
    rw [Entry.withdrawn_eq]
    exact hkept x hx
  · exact (compositionReset_list v.proof).trans (by rw [hproof]; rfl)
  · exact (recomposed_expo v).trans (by rw [hexpo]; rfl)
  · rw [recomposed_link, hlink]; rfl
  · change ({ v.film with owner := match v.film.owner with | .job _ _ => .ended | o => o } : Film) = _
    rw [hfilm]; rfl

end Sys2Proof.Machine
end

section
/-! PLACE WORD step by step: the word that is placed, its characters in order, the turret's answer, a glyph placed. -/

namespace Sys2Proof.Machine

open Sys2Proof

section
variable {s : State} {slot : Nat}

/-! ### The step, by the outcome of the placing -/

theorem placeWord_of_none (h : s.serves .place = none) : placeWordEffect s = s := by
  simp [placeWordEffect, h]

/-- What follows the placing of a word (R67, R71, R76, R86). -/
def State.afterPlacing (s : State) (slot : Nat) : Placed → State
  | .finished => (s.onLine slot fun l => { l with placing := none }).afterStep slot
  | .overflow => s.breakAndSet slot
  | .stall r f => ((s.onJob slot fun j => { j with stallFont := f }).setStatus slot (.stalled r)).endTurn slot
  | .paused => s.endTurn slot

theorem placeWord_of_some (h : s.serves .place = some slot) :
    placeWordEffect s = (s.placeNext slot).1.afterPlacing slot (s.placeNext slot).2 := by
  simp only [placeWordEffect, h]
  generalize s.placeNext slot = x
  obtain ⟨t, how⟩ := x
  cases how <;> rfl

theorem exec_placeWord {t : State} (h : placeWordEffect s = t) : exec .placeWord s = .next (settle s t) := by
  rw [← h]; rfl

/-! ### What a line measures depends on its fonts but for their counts -/

/-- Two states in which every font measures the same. -/
abbrev SameFonts (s t : State) : Prop := t.fonts.map FontRecord.uncounted = s.fonts.map FontRecord.uncounted

section
variable {t : State}

theorem font_uncounted (h : SameFonts s t) (n : Nat) :
    (t.font n).map FontRecord.uncounted = (s.font n).map FontRecord.uncounted := by
  have hfind : ∀ l : List FontRecord, (l.find? (·.number == n)).map FontRecord.uncounted =
      (l.map FontRecord.uncounted).find? (·.number == n) := fun l => by
    rw [List.find?_map]; rfl
  rw [State.font, State.font, hfind, hfind, h]

/-- Any value of a record but for its counts is the same in both states. -/
theorem font_map {α : Type} (h : SameFonts s t) (n : Nat) {v : FontRecord → α} (hv : ∀ r, v r.uncounted = v r) :
    (t.font n).map v = (s.font n).map v := by
  have hcomp : v = v ∘ FontRecord.uncounted := funext fun r => (hv r).symm
  rw [hcomp, ← Option.map_map, ← Option.map_map, font_uncounted h]

theorem plainAdvance_congr (h : SameFonts s t) (g : Glyph) : t.plainAdvance g = s.plainAdvance g := by
  rw [State.plainAdvance, State.plainAdvance, State.glyphWidth, State.glyphWidth, font_map h _ fun _ => rfl]

theorem kernedAdvance_congr (h : SameFonts s t) (g k : Glyph) : t.kernedAdvance g k = s.kernedAdvance g k := by
  rw [State.kernedAdvance, State.kernedAdvance, plainAdvance_congr h, font_map h _ fun _ => rfl]

theorem advances_congr (h : SameFonts s t) (gs : List Glyph) : t.advances gs = s.advances gs := by
  induction gs with
  | nil => rfl
  | cons g gs ih =>
    simp only [State.advances, ih, plainAdvance_congr h, kernedAdvance_congr h]

theorem fits_congr (h : SameFonts s t) (p : LineParams) (gs : List Glyph) : t.fits p gs = s.fits p gs := by
  rw [State.fits, State.fits, advances_congr h]

end

/-! ### The word that is placed, and its fit -/

theorem line_onLine (h : slot < s.jobs.length) (f : LineInProgress → LineInProgress) :
    ((s.onLine slot f).job slot).line = f (s.job slot).line := by
  rw [State.onLine, State.job_onJob_self _ _ (by exact h)]

section
variable {l : LineInProgress} {w : Word}

/-- The placing of a word at its beginning. -/
def LineInProgress.placingOf (l : LineInProgress) (w : Word) : Placing := { word := w, upto := 0, start := l.glyphs.length }

theorem beginPlacing_placing {p : Placing} (h : l.placing = some p) : l.beginPlacing = l := by
  simp [LineInProgress.beginPlacing, h]

theorem beginPlacing_carry (hp : l.placing = none) (hc : l.carry = some w) :
    l.beginPlacing = { l with placing := some (l.placingOf w), carry := none, gapDue := !w.cont || l.gapDue } := by
  simp [LineInProgress.beginPlacing, hp, hc, LineInProgress.placingOf]

theorem beginPlacing_ended (hp : l.placing = none) (hc : l.carry = none) (he : l.ended = some w) :
    l.beginPlacing = { l with placing := some (l.placingOf w), ended := none, gapDue := !w.cont || l.gapDue } := by
  simp [LineInProgress.beginPlacing, hp, hc, he, LineInProgress.placingOf]

theorem beginPlacing_ending (hp : l.placing = none) (hc : l.carry = none) (he : l.ended = none) (hd : l.ending.isSome = true)
    (hn : 0 < countChars l.pending) :
    l.beginPlacing = { l with
      placing := some (l.placingOf { items := l.pending, cont := l.pendingCont, hasCont := false })
      pending := [], pendingCont := false, gapDue := !l.pendingCont || l.gapDue } := by
  simp [LineInProgress.beginPlacing, hp, hc, he, hd, hn, LineInProgress.placingOf]

end

/-- The state in which the next word's placing begins (R71). -/
def State.begun (s : State) (slot : Nat) : State := s.onLine slot LineInProgress.beginPlacing

/-- What the placing of a word's remaining items comes to. -/
def State.placed (s : State) (slot : Nat) (p : Placing) : State × List WordItem × Nat × Placed :=
  placeItems slot (p.word.items.drop p.upto) (p.word.items.take p.upto) s

/-- The word's placing recorded: its items that stay, and how far it went. -/
def Placing.record (p : Placing) (items : List WordItem) (upto : Nat) (l : LineInProgress) : LineInProgress :=
  { l with placing := some { p with word := { p.word with items := items }, upto := upto } }

theorem placeNext_state {p : Placing} (hp : ((s.begun slot).job slot).line.placing = some p) :
    (s.placeNext slot).1 =
      ((s.begun slot).placed slot p).1.onLine slot
        (p.record ((s.begun slot).placed slot p).2.1
          ((s.begun slot).placed slot p).2.2.1) := by
  have hp' : ((s.onLine slot LineInProgress.beginPlacing).job slot).line.placing = some p := hp
  simp only [State.placeNext, hp']
  rfl

theorem placeNext_outcome {p : Placing} (hp : ((s.begun slot).job slot).line.placing = some p) :
    (s.placeNext slot).2 =
      (s.placeNext slot).1.judgeFit slot ((s.begun slot).placed slot p).2.2.2 := by
  have hp' : ((s.onLine slot LineInProgress.beginPlacing).job slot).line.placing = some p := hp
  simp only [State.placeNext, hp']
  rfl

theorem judgeFit_of_ne {how : Placed} (h : how ≠ .finished) : s.judgeFit slot how = how := by
  cases how <;> first | rfl | exact absurd rfl h

theorem fits_iff (s : State) (p : LineParams) (gs : List Glyph) :
    s.fits p gs = true ↔ (s.advances gs).sum + ((gapSizes gs).map fun z => p.spaceMin * (z * 5)).sum ≤
        (p.measure - p.effLeft - p.right) * 128 ∧ gs.length ≤ 240 ∧ (runsOf gs).length ≤ 16 := by
  simp only [State.fits, Bool.and_eq_true, decide_eq_true_eq, and_assoc]
  rfl

theorem judgeFit_finished {p : LineParams} (h : (s.job slot).line.params = some p) :
    s.judgeFit slot .finished = if s.fits p (s.job slot).line.glyphs then .finished else .overflow := by
  simp [State.judgeFit, h]

/-- The recording of a placing changes neither the line's glyphs nor its parameters. -/
theorem record_line (s : State) (slot : Nat) (p : Placing) (items : List WordItem) (upto : Nat) :
    ((s.onLine slot (p.record items upto)).job slot).line.glyphs = (s.job slot).line.glyphs ∧
    ((s.onLine slot (p.record items upto)).job slot).line.params = (s.job slot).line.params := by
  by_cases h : slot < s.jobs.length
  · rw [line_onLine h]; exact ⟨rfl, rfl⟩
  · have hj : (s.onLine slot (p.record items upto)).job slot = s.job slot := by
      rw [State.job, State.onLine, State.onJob, List.modify_eq_self (by omega)]; rfl
    rw [hj]; exact ⟨rfl, rfl⟩

theorem placeNext_of_finished {p : Placing} {q : LineParams}
    (hp : ((s.begun slot).job slot).line.placing = some p)
    (hf : ((s.begun slot).placed slot p).2.2.2 = .finished)
    (hq : (((s.begun slot).placed slot p).1.job slot).line.params = some q) :
    (s.placeNext slot).2 =
      if ((s.begun slot).placed slot p).1.fits q
        (((s.begun slot).placed slot p).1.job slot).line.glyphs then .finished else .overflow := by
  rw [placeNext_outcome hp, hf, placeNext_state hp]
  generalize (s.begun slot).placed slot p = r at hq
  obtain ⟨hg, hpar⟩ := record_line r.1 slot p r.2.1 r.2.2.1
  rw [judgeFit_finished (hpar.trans hq), hg, fits_congr (s := r.1) (t := r.1.onLine slot (p.record r.2.1 r.2.2.1)) rfl]

/-! ### The characters of a word in order -/

section
variable {c : Byte} {f z : Nat} {kept rest : List WordItem}

/-- The placing stops before a character. -/
def State.stoppedAt (s : State) (kept : List WordItem) (c : Byte) (f z : Nat) (rest : List WordItem) (how : Placed) :
    State × List WordItem × Nat × Placed :=
  (s, kept ++ .char c f z :: rest, kept.length, how)

theorem placeItems_no_font (h : s.font f = none) :
    placeItems slot (.char c f z :: rest) kept s = s.stoppedAt kept c f z rest (.stall .fontUnavailable f) := by
  rw [placeItems, h]; rfl

theorem placeItems_width_zero {r : FontRecord} (h : s.font f = some r) (hw : r.width c = 0) :
    placeItems slot (.char c f z :: rest) kept s =
      placeItems slot rest kept
        (s.onJob slot fun j => { j with missingChars := bump j.missingChars, line := { j.line with missing := true } }) := by
  simp [placeItems, h, hw]

/-- The character's font and size are those of the line's last glyph (R71). -/
def LineInProgress.joins (l : LineInProgress) (f z : Nat) : Prop := ∃ g ∈ l.glyphs.getLast?, g.font = f ∧ g.size = z

theorem joins_iff (l : LineInProgress) (f z : Nat) :
    (l.glyphs.getLast?.map fun g => g.font == f && g.size == z).getD false = true ↔ l.joins f z := by
  unfold LineInProgress.joins
  cases l.glyphs.getLast? <;> simp

theorem placeItems_paused {r : FontRecord} (h : s.font f = some r) (hw : r.width c ≠ 0) (hg : (s.job slot).line.glyphs = [])
    (hp : s.flowPause = true) (he : (s.job slot).line.ending = none) :
    placeItems slot (.char c f z :: rest) kept s = s.stoppedAt kept c f z rest .paused := by
  simp [placeItems, h, hw, hg, hp, he, State.stoppedAt]

/-- The line takes a further glyph: it is begun, or may be opened (R68). -/
theorem not_paused (h : (s.job slot).line.glyphs ≠ [] ∨ s.flowPause = false ∨ (s.job slot).line.ending.isSome = true) :
    ¬((s.job slot).line.glyphs.isEmpty && s.flowPause && (s.job slot).line.ending.isNone) = true := by
  rcases h with h | h | h
  · simp [h]
  · simp [h]
  · obtain ⟨e, he⟩ := Option.isSome_iff_exists.1 h
    simp [he]

theorem placeItems_overflow {r : FontRecord} (h : s.font f = some r) (hw : r.width c ≠ 0) (hg : (s.job slot).line.glyphs ≠ [])
    (hfull : 240 ≤ (s.job slot).line.glyphs.length ∨
      (¬(s.job slot).line.joins f z ∧ 16 ≤ (runsOf (s.job slot).line.glyphs).length)) :
    placeItems slot (.char c f z :: rest) kept s = s.stoppedAt kept c f z rest .overflow := by
  have hw' : ¬(r.width c == 0) = true := by simpa using hw
  simp only [placeItems, h, if_neg hw', if_neg (not_paused (Or.inl hg)), Config.lineGlyphs, Config.lineRuns, ge_iff_le]
  by_cases hlen : 240 ≤ (s.job slot).line.glyphs.length
  · rw [if_pos hlen]; rfl
  · obtain ⟨hj, hr⟩ := hfull.resolve_left hlen
    have hj' := mt (joins_iff _ _ _).1 hj
    rw [if_neg hlen, if_pos (by simp only [Bool.and_eq_true, Bool.not_eq_true', decide_eq_true_eq]; exact ⟨Bool.eq_false_iff.2 hj', hr⟩)]
    rfl

/-- Within the limits, the character's station decides (R71). -/
theorem placeItems_station {r : FontRecord} (h : s.font f = some r) (hw : r.width c ≠ 0)
    (hopen : (s.job slot).line.glyphs ≠ [] ∨ s.flowPause = false ∨ (s.job slot).line.ending.isSome = true)
    (hlen : (s.job slot).line.glyphs.length < 240)
    (hruns : (s.job slot).line.joins f z ∨ (runsOf (s.job slot).line.glyphs).length < 16) {a : FontAnswer}
    (ha : s.stationFor slot r = a) :
    placeItems slot (.char c f z :: rest) kept s = match a with
      | .station n => placeItems slot rest (kept ++ [.char c f z]) (s.placeGlyph slot c f z n)
      | .changing => s.stoppedAt kept c f z rest (.stall .fontChanging f)
      | .unavailable => s.stoppedAt kept c f z rest (.stall .fontUnavailable f) := by
  have hw' : ¬(r.width c == 0) = true := by simpa using hw
  have hr : ¬((!(((s.job slot).line.glyphs.getLast?.map fun g => g.font == f && g.size == z).getD false)) &&
      decide (16 ≤ (runsOf (s.job slot).line.glyphs).length)) = true := by
    rcases hruns with hj | hr
    · rw [(joins_iff _ _ _).2 hj]; simp
    · simp [Nat.not_le.2 hr]
  simp only [placeItems, h, if_neg hw', if_neg (not_paused hopen), Config.lineGlyphs, Config.lineRuns, ge_iff_le,
    if_neg (Nat.not_le.2 hlen), if_neg hr, ha]
  cases a <;> rfl

theorem stationFor_of_glyph {r : FontRecord} (h : s.font f = some r) {g : Glyph}
    (hg : (s.job slot).line.glyphs.find? (·.font == f) = some g) : s.stationFor slot r = .station g.station := by
  obtain ⟨-, hn⟩ := mem_of_font h
  rw [State.stationFor, hn, hg]

theorem stationFor_of_no_glyph {r : FontRecord} (h : s.font f = some r) (hg : ∀ g ∈ (s.job slot).line.glyphs, g.font ≠ f) :
    s.stationFor slot r = s.askTurret r := by
  obtain ⟨-, hn⟩ := mem_of_font h
  rw [State.stationFor, hn, List.find?_eq_none.2 fun g hm => by simpa using hg g hm]

end

/-! ### The turret's answer (R23) -/

/-- A station that is MOUNTED with a record's number. -/
def Station.mountedWith (r : FontRecord) (st : Station) : Prop := st.state = .mounted ∧ st.font = some r.number

/-- A station in an exchange that has held a record. -/
def Station.leaving (r : FontRecord) (st : Station) : Prop :=
  (st.state = .draining ∧ st.font = some r.number) ∨
  ((st.state = .opened ∨ st.state = .verifying) ∧ st.prior = some .mounted ∧ st.code = r.master)

theorem askTurret_eq (s : State) (r : FontRecord) [DecidablePred (Station.leaving r)] :
    s.askTurret r = match stationsWhere (fun st => st.state == .mounted && st.font == some r.number) s.turret.stations with
      | n :: _ => .station n
      | [] => if ∃ st ∈ s.turret.stations, st.leaving r then .changing else .unavailable := by
  have hany : (s.turret.stations.any fun st =>
      (st.state == .draining && st.font == some r.number) ||
        ((st.state == .opened || st.state == .verifying) && st.prior == some .mounted && st.code == r.master)) = true ↔
      ∃ st ∈ s.turret.stations, st.leaving r := by
    simp [Station.leaving, and_assoc]
  simp only [State.askTurret]
  cases stationsWhere (fun st => st.state == .mounted && st.font == some r.number) s.turret.stations with
  | nil => exact if_congr hany rfl rfl
  | cons n l => rfl

theorem no_station_mounted (s : State) (r : FontRecord) :
    stationsWhere (fun st => st.state == .mounted && st.font == some r.number) s.turret.stations = [] ↔
      ∀ st ∈ s.turret.stations, ¬st.mountedWith r := by
  rw [stationsWhere_eq_nil]
  simp [Station.mountedWith]

theorem askTurret_changing (s : State) (r : FontRecord) :
    s.askTurret r = .changing ↔
      (∀ st ∈ s.turret.stations, ¬st.mountedWith r) ∧ ∃ st ∈ s.turret.stations, st.leaving r := by
  classical
  rw [askTurret_eq, ← no_station_mounted]
  split
  · next hl => simp [hl]
  · next hl =>
    rw [hl]
    by_cases h : ∃ st ∈ s.turret.stations, st.leaving r <;> simp [h]

theorem askTurret_unavailable (s : State) (r : FontRecord) :
    s.askTurret r = .unavailable ↔ ∀ st ∈ s.turret.stations, ¬st.mountedWith r ∧ ¬st.leaving r := by
  classical
  rw [askTurret_eq]
  simp only [forall_and, ← no_station_mounted]
  split
  · next hl => simp [hl]
  · next hl =>
    rw [hl]
    by_cases h : ∃ st ∈ s.turret.stations, st.leaving r <;> simp_all

/-! ### A glyph placed -/

theorem placeGlyph_job_ne (s : State) {slot m : Nat} (hslot : slot < s.jobs.length) (c : Byte) (f z n : Nat) (h : m ≠ slot) :
    (s.placeGlyph slot c f z n).job m = s.job m := by
  rw [placeGlyph_eq s hslot, State.job_onJob_ne _ _ (Ne.symm h)]
  rfl

theorem placeGlyph_fonts (s : State) {slot : Nat} (hslot : slot < s.jobs.length) (c : Byte) (f z n : Nat) :
    (s.placeGlyph slot c f z n).fonts =
      if ∃ g ∈ (s.job slot).line.glyphs, g.font = f then s.fonts
      else s.fonts.map fun r => if r.number = f then { r with linePart := r.linePart + 1 } else r := by
  rw [placeGlyph_eq s hslot]
  by_cases h : ∃ g ∈ (s.job slot).line.glyphs, g.font = f <;> simp [h, State.onFonts, State.onStations, State.onJob]

theorem placeGlyph_stations (s : State) (slot : Nat) (c : Byte) (f z n : Nat) :
    (s.placeGlyph slot c f z n).turret.stations =
      if ∃ g ∈ (s.job slot).line.glyphs, g.station = n then s.turret.stations
      else s.turret.stations.modify n fun st => { st with claims := st.claims + 1 } := by
  have hany : (s.job slot).line.glyphs.any (·.station == n) = true ↔ ∃ g ∈ (s.job slot).line.glyphs, g.station = n := by simp
  have hjob : ∀ u : State, (if (s.job slot).line.glyphs.isEmpty then u.onJob slot fun j => { j with paragraphMark := false } else u).turret =
      u.turret := fun u => by split <;> rfl
  simp only [State.placeGlyph, hjob, State.onLine_turret, hany]
  split
  · split <;> rfl
  · split <;> rfl

theorem placeGlyph_keeps_rest (s : State) (slot : Nat) (c : Byte) (f z n : Nat) :
    (s.placeGlyph slot c f z n).queue = s.queue ∧ (s.placeGlyph slot c f z n).film = s.film ∧
    (s.placeGlyph slot c f z n).expo = s.expo ∧ (s.placeGlyph slot c f z n).engine = s.engine ∧
    (s.placeGlyph slot c f z n).dict = s.dict := by
  simp

end

end Sys2Proof.Machine
end

section
/-! A word of one character on an empty line: its placing, the fit of its line, and the line set OVERSET and offered. -/

namespace Sys2Proof.Machine

open Sys2Proof

section
variable {s : State} {slot : Nat}

/-! ### What ends a step leaves of the job's line -/

/-- A job but for its composition status and its finished flag. -/
def Job.sameBut (j k : Job) : Prop := ∃ (c : CompStatus) (b : Bool), k = { j with status := c, finished := b }

theorem Job.sameBut.refl (j : Job) : j.sameBut j := ⟨j.status, j.finished, rfl⟩

theorem Job.sameBut.trans {j k l : Job} (h : j.sameBut k) (h' : k.sameBut l) : j.sameBut l := by
  obtain ⟨c, b, rfl⟩ := h
  obtain ⟨c', b', rfl⟩ := h'
  exact ⟨c', b', rfl⟩

theorem Job.sameBut.line {j k : Job} (h : j.sameBut k) : k.line = j.line := by
  obtain ⟨c, b, rfl⟩ := h; rfl

theorem Job.sameBut.paragraphMark {j k : Job} (h : j.sameBut k) : k.paragraphMark = j.paragraphMark := by
  obtain ⟨c, b, rfl⟩ := h; rfl

theorem setStatus_job (h : slot < s.jobs.length) (c : CompStatus) :
    (s.setStatus slot c).job slot = { s.job slot with status := c } := by
  have hj : (s.withStatus slot c).job slot = { s.job slot with status := c } :=
    State.job_onJob_self s (fun j => { j with status := c }) h
  by_cases hc : (∃ r, c = .stalled r) ∧ c ≠ (s.job slot).status
  · rw [setStatus_of_change hc.1 hc.2]; exact hj
  · rw [setStatus_of_no_change (by
      by_cases he : c = (s.job slot).status
      · exact Or.inr he
      · exact Or.inl fun r hr => hc ⟨⟨r, hr⟩, he⟩)]
    exact hj

theorem restatus_sameBut (h : slot < s.jobs.length) : (s.job slot).sameBut ((s.restatus slot).job slot) := by
  have hset : ∀ c, (s.job slot).sameBut ((s.setStatus slot c).job slot) := fun c =>
    ⟨c, (s.job slot).finished, setStatus_job h c⟩
  simp only [State.restatus]
  (repeat' split) <;> first | exact Job.sameBut.refl _ | exact hset _

theorem endTurn_sameBut (h : slot < s.jobs.length) : (s.job slot).sameBut ((s.endTurn slot).job slot) :=
  restatus_sameBut (s := s.onEngine _) h

theorem finishComposition_sameBut (h : slot < s.jobs.length) :
    (s.job slot).sameBut ((s.finishComposition slot).job slot) := by
  simp only [State.finishComposition]
  split
  · rw [State.job_onJob_self _ _ (by exact h)]
    exact ⟨(s.job slot).status, true, rfl⟩
  · exact Job.sameBut.refl _

theorem afterStep_sameBut (h : slot < s.jobs.length) : (s.job slot).sameBut ((s.afterStep slot).job slot) := by
  have hfin := finishComposition_sameBut h
  simp only [State.afterStep]
  split
  · exact hfin.trans (endTurn_sameBut (by simpa using h))
  · exact hfin

theorem endTurn_engine (s : State) (slot : Nat) : (s.endTurn slot).engine = { serving := none, pointer := (slot + 1) % 4 } := by
  simp [State.endTurn]

/-- A stall for a font is kept at the end of the turn (R87). -/
theorem endTurn_of_fontStalled (hheld : (s.job slot).line.held = none) (hst : (s.job slot).status = .stalled .fontUnavailable) :
    s.endTurn slot = s.onEngine fun _ => { serving := none, pointer := (slot + 1) % 4 } := by
  have hj : (s.onEngine fun _ => { serving := none, pointer := (slot + 1) % 4 }).job slot = s.job slot := rfl
  rw [State.endTurn, State.restatus, hj]
  simp [hheld, hst]

/-! ### The job whose word is placed -/

theorem serves_place (h : s.serves .place = some slot) : (s.job slot).line.held = none := by
  obtain ⟨-, hw⟩ := Option.filter_eq_some_iff.1 h
  obtain ⟨-, hw⟩ := Bool.and_eq_true_iff.1 hw
  cases hh : (s.job slot).line.held with
  | none => rfl
  | some b => simp [Job.work, hh] at hw

/-- A word of one character. -/
def charWord (c : Byte) (f z : Nat) : Word := { items := [.char c f z], cont := false, hasCont := false }

/-- The placing of a word of one character. -/
def charPlacing (l : LineInProgress) (c : Byte) (f z upto : Nat) : Placing :=
  { word := charWord c f z, upto := upto, start := l.glyphs.length }

theorem begun_line (h : slot < s.jobs.length) {c : Byte} {f z : Nat} (hp : (s.job slot).line.placing = none)
    (hc : (s.job slot).line.carry = none) (he : (s.job slot).line.ended = some (charWord c f z)) :
    ((s.begun slot).job slot).line =
      { (s.job slot).line with placing := some (charPlacing (s.job slot).line c f z 0), ended := none, gapDue := true } := by
  rw [State.begun, line_onLine h, beginPlacing_ended hp hc he]
  rfl

theorem begun_flowPause (s : State) (slot : Nat) : (s.begun slot).flowPause = s.flowPause := by
  have hid : ∀ m, ((s.begun slot).job m).id = (s.job m).id := fun m => by
    simp only [State.begun, State.onLine, State.onJob, State.job, List.getD_eq_getElem?_getD, List.getElem?_modify]
    split
    · cases s.jobs[m]? <;> rfl
    · cases s.jobs[m]? <;> rfl
  have howned : (s.begun slot).ownedBy = s.ownedBy := funext₂ fun n e => by rw [State.ownedBy, State.ownedBy, hid]
  rw [State.flowPause, State.flowPause, howned]
  rfl

/-- What the placing of a word of one character comes to, before it is judged. -/
theorem placed_charWord (h : slot < s.jobs.length) {c : Byte} {f z : Nat} (hp : (s.job slot).line.placing = none)
    (hc : (s.job slot).line.carry = none) (he : (s.job slot).line.ended = some (charWord c f z)) :
    ((s.begun slot).job slot).line.placing = some (charPlacing (s.job slot).line c f z 0) ∧
    (s.begun slot).placed slot (charPlacing (s.job slot).line c f z 0) = placeItems slot [.char c f z] [] (s.begun slot) := by
  rw [begun_line h hp hc he]; exact ⟨rfl, rfl⟩

/-! ### The break of a word of one character -/

theorem ruleCandidates_short (t : LanguageTable) {l : List Nat} (hl : l.length ≤ 1) (a b : Nat) : ruleCandidates t l a b = [] := by
  have hinner : inner l.length = [] := by
    rw [inner, List.drop_eq_nil_iff, List.length_range]; exact hl
  simp [ruleCandidates, hinner]

/-- A word of at most one character has no break, and consults no entry (R95 to R100). -/
theorem analyse_short (s : State) (slot language a b : Nat) {chars : List CoreChar} (h : chars.length ≤ 1) :
    (analyse s slot language a b chars []).candidates = [] ∧ (analyse s slot language a b chars []).entry = none := by
  have hcore : ∀ (p : CoreChar → Bool) (k : Nat), (((chars.drop k).reverse.dropWhile p).reverse).length ≤ 1 := fun p k => by
    rw [List.length_reverse]
    calc (((chars.drop k).reverse.dropWhile p).length)
        ≤ (chars.drop k).reverse.length := (List.dropWhile_sublist p).length_le
      _ ≤ chars.length := by rw [List.length_reverse, List.length_drop]; omega
      _ ≤ 1 := h
  have hinner : ∀ {n}, n ≤ 1 → inner n = [] := fun {n} hn => by
    rw [inner, List.drop_eq_nil_iff, List.length_range]; exact hn
  simp only [analyse, List.isEmpty_nil, Bool.not_true, Bool.false_eq_true, if_false]
  split
  · exact ⟨rfl, rfl⟩
  generalize hn : ((chars.drop (chars.takeWhile fun c => !(letterIndex (s.language language) c != 0)).length).reverse.dropWhile
    fun c => !(letterIndex (s.language language) c != 0)).reverse = core
  have hlen : core.length ≤ 1 := hn ▸ hcore _ _
  split
  · rw [hinner hlen]; exact ⟨rfl, rfl⟩
  · split
    · exact ⟨rfl, rfl⟩
    · have hno : ¬(2 ≤ core.length && core.length ≤ 31) = true := by simp; omega
      rw [if_neg hno]
      dsimp only
      split
      · exact ⟨rfl, rfl⟩
      · exact ⟨ruleCandidates_short _ (by simpa using hlen) _ _, rfl⟩

/-- A glyph that does not fit alone is set alone, OVERSET (R78). -/
theorem breakLine_oneChar (s : State) (slot : Nat) (p : LineParams) {pl : Placing} {c : Byte} {f z : Nat}
    (hw : pl.word = charWord c f z) (hstart : pl.start = 0) (g : Glyph) (hfit : s.fits p [g] = false) :
    s.breakLine slot p pl [g] = (s, { kept := [g], flags := [.overset], carry := none }) := by
  have hmarks : markPositions 0 pl.word.items = [] := by rw [hw]; rfl
  have hchars : (s.wordChars pl.word.items).length ≤ 1 := by rw [hw]; exact le_rfl
  obtain ⟨hcand, hentry⟩ := analyse_short s slot p.language (s.job slot).params.minPrefix (s.job slot).params.minSuffix hchars
  have hlargest : s.largestFit p [g] = 0 := by
    simp [State.largestFit, hfit, List.range_succ]
  have hchoose : ∀ (l : Nat) (base word : List Glyph), s.chooseBreak p (analyse s slot p.language (s.job slot).params.minPrefix
      (s.job slot).params.minSuffix (s.wordChars pl.word.items) []) l (s.wordChars pl.word.items) base word = none := fun l base word => by
    simp [State.chooseBreak, hcand]
  have hcarry : restOf (itemsAfter 1 pl.word.items) pl.word.hasCont = none := by rw [hw]; rfl
  simp only [State.breakLine, hstart, List.take_zero, List.drop_zero, hmarks, hentry]
  simp [hchoose, hlargest, hcarry]

end

end Sys2Proof.Machine
end

section
/-! A word of one character on an empty line: the states it goes through, and PLACE WORD settled. -/

namespace Sys2Proof.Machine

open Sys2Proof

/-! ### What the offer of a line leaves of the job -/

section
variable {s t : State} {slot : Nat}

theorem spacing_congr (h : SameFonts s t) (p : LineParams) (gs : List Glyph) (last overset : Bool) :
    t.spacing p gs last overset = s.spacing p gs last overset := by
  rw [State.spacing, State.spacing, advances_congr h]

theorem lineBody_congr (h : SameFonts s t) (p : LineParams) (gs : List Glyph) (flags : List LineFlag) (last : Bool) :
    t.lineBody p gs flags last = s.lineBody p gs flags last := by
  rw [State.lineBody, State.lineBody, spacing_congr h, advances_congr h]

theorem admits_congr (hq : t.queue = s.queue) (he : t.exposureHead = s.exposureHead) (hp : t.proofHead = s.proofHead) (n : Nat)
    (b : Body) : t.admits n b = s.admits n b := by
  rw [State.admits, State.admits, State.roomNeeded, State.roomNeeded, hq, he, hp]

theorem appended_job (b : Body) (j : Job) : (Job.appended b j).line = j.line ∧ (Job.appended b j).paragraphMark = j.paragraphMark := by
  cases b <;> exact ⟨rfl, rfl⟩

/-- An ending whose line is still to be set stays due at the admission of a line (R79). -/
theorem resumeEnding_of_unset (h : ∀ e, (s.job slot).line.ending = some e → e.lineSet = false) : s.resumeEnding slot = s := by
  simp only [State.resumeEnding]
  split
  · next e he => rw [h e he]; rfl
  · rfl

theorem admitted_line_sameBut (hlt : slot < s.jobs.length) (h : ∀ e, (s.job slot).line.ending = some e → e.lineSet = false)
    (b : LineBody) : ({ s.job slot with line := { (s.job slot).line with held := none } } : Job).sameBut
      ((s.admitted slot (.line b)).job slot) := by
  have hjob : (s.onLine slot fun l => { l with held := none }).job slot =
      { s.job slot with line := { (s.job slot).line with held := none } } := State.job_onJob_self _ _ (by exact hlt)
  have hresume : (s.onLine slot fun l => { l with held := none }).resumeEnding slot = s.onLine slot fun l => { l with held := none } :=
    resumeEnding_of_unset (by rw [hjob]; exact h)
  have hfin := finishComposition_sameBut (s := s.onLine slot fun l => { l with held := none }) (slot := slot) (by simpa using hlt)
  rw [hjob] at hfin
  simp only [State.admitted, hresume]
  generalize hu : (s.onLine slot fun l => { l with held := none }).finishComposition slot = u at hfin
  have hult : slot < u.jobs.length := by rw [← hu]; simpa using hlt
  split
  · have hset : (u.job slot).sameBut ((u.setStatus slot .ready).job slot) := ⟨.ready, (u.job slot).finished, setStatus_job hult _⟩
    exact (hfin.trans hset).trans (restatus_sameBut (by simpa using hult))
  · exact hfin

/-- The line in progress once its line is set, with no carry (R85). -/
def LineInProgress.emptied (l : LineInProgress) : LineInProgress :=
  { l with glyphs := [], params := none, placing := none, missing := false, gapDue := false, carry := none,
           ending := l.ending.map fun e => { e with lineSet := e.lineSet || false } }

theorem setLineWith_eq (s : State) (slot : Nat) (p : LineParams) (gs : List Glyph) (flags : List LineFlag) :
    s.setLineWith slot p gs flags false none =
      (s.onLine slot LineInProgress.emptied).offer slot
        (.line (s.lineBody p gs (flags ++ if (s.job slot).line.missing then [.missing] else []) false)) := rfl

/-- An item that is not admitted is held (R67, R85). -/
theorem offer_held (h : s.admits slot b = false) : s.offer slot b = (s.onLine slot fun l => { l with held := some b }).endTurn slot := by
  simp [State.offer, h]

theorem offer_admitted (h : s.admits slot b = true) :
    s.offer slot b = ((s.appendEntry slot b).admitted slot b).endTurn slot := by
  simp [State.offer, h]

end

/-! ### The glyph of a word of one character -/

section
variable (s : State) (slot : Nat) (c : Byte) (f z n : Nat)

/-- The glyph alone on its line. -/
def onlyGlyph : Glyph := { code := c, font := f, size := z, station := n, gap := false }

/-- The job once its word of one character is placed. -/
def Job.charPlaced (j : Job) : Job :=
  { j with
    paragraphMark := false
    line := { j.line with
      placing := some (charPlacing j.line c f z 1), ended := none, glyphs := [onlyGlyph c f z n], gapDue := false
      params := some j.openLine } }

/-- The state once a word of one character is placed, before it is judged. -/
def State.charPlaced : State :=
  ((s.begun slot).placeGlyph slot c f z n).onLine slot ((charPlacing (s.job slot).line c f z 0).record [.char c f z] 1)

end

section
variable {s : State} {slot : Nat} {c : Byte} {f z n : Nat}

/-- What holds where a turn places a word of one character (R71, R78). -/
structure OneChar (s : State) (slot : Nat) (c : Byte) (f z : Nat) : Prop where
  serves : s.serves .place = some slot
  slot_lt : slot < s.jobs.length
  placing : (s.job slot).line.placing = none
  carry : (s.job slot).line.carry = none
  ended : (s.job slot).line.ended = some (charWord c f z)
  unset : ∀ e, (s.job slot).line.ending = some e → e.lineSet = false

theorem OneChar.line (h : OneChar s slot c f z) : ((s.begun slot).job slot).line =
    { (s.job slot).line with placing := some (charPlacing (s.job slot).line c f z 0), ended := none, gapDue := true } :=
  begun_line h.slot_lt h.placing h.carry h.ended

theorem OneChar.job (h : OneChar s slot c f z) : (s.begun slot).job slot = { s.job slot with line :=
    { (s.job slot).line with placing := some (charPlacing (s.job slot).line c f z 0), ended := none, gapDue := true } } := by
  have hj : (s.begun slot).job slot = { s.job slot with line := (s.job slot).line.beginPlacing } :=
    State.job_onJob_self _ _ (by exact h.slot_lt)
  rw [hj, beginPlacing_ended h.placing h.carry h.ended]
  rfl

theorem OneChar.begun_lt (h : OneChar s slot c f z) : slot < (s.begun slot).jobs.length := by
  simpa [State.begun] using h.slot_lt

/-! #### No record -/

theorem OneChar.placeNext_no_font (h : OneChar s slot c f z) (hf : s.font f = none) :
    s.placeNext slot = ((s.begun slot).onLine slot ((charPlacing (s.job slot).line c f z 0).record [.char c f z] 0),
      .stall .fontUnavailable f) := by
  obtain ⟨hp, hplaced⟩ := placed_charWord h.slot_lt h.placing h.carry h.ended
  have hitems : placeItems slot [.char c f z] [] (s.begun slot) =
      (s.begun slot).stoppedAt [] c f z [] (.stall .fontUnavailable f) := placeItems_no_font (s := s.begun slot) hf
  refine Prod.ext ?_ ?_
  · rw [placeNext_state hp, hplaced, hitems]
    rfl
  · rw [placeNext_outcome hp, hplaced, hitems, judgeFit_of_ne (by simp [State.stoppedAt])]
    rfl

/-! #### A station -/

theorem OneChar.charPlaced_job (h : OneChar s slot c f z) (hg : (s.job slot).line.glyphs = []) :
    (s.charPlaced slot c f z n).job slot = (s.job slot).charPlaced c f z n := by
  have hlt : slot < ((s.begun slot).placeGlyph slot c f z n).jobs.length := by simpa using h.begun_lt
  have hj : (s.charPlaced slot c f z n).job slot =
      { ((s.begun slot).placeGlyph slot c f z n).job slot with
        line := (charPlacing (s.job slot).line c f z 0).record [.char c f z] 1
          (((s.begun slot).placeGlyph slot c f z n).job slot).line } := State.job_onJob_self _ _ (by exact hlt)
  rw [hj, placeGlyph_job _ h.begun_lt, h.job]
  simp [Job.place, Job.charPlaced, Placing.record, hg, onlyGlyph, charPlacing, charWord, Job.openLine]

theorem OneChar.charPlaced_fonts (h : OneChar s slot c f z) (hg : (s.job slot).line.glyphs = []) :
    (s.charPlaced slot c f z n).fonts = s.fonts.map fun x => if x.number = f then { x with linePart := x.linePart + 1 } else x := by
  have hglyphs : ((s.begun slot).job slot).line.glyphs = [] := by rw [h.line]; exact hg
  have hf := placeGlyph_fonts (s.begun slot) h.begun_lt c f z n
  rw [hglyphs, if_neg (by simp)] at hf
  exact hf

theorem OneChar.charPlaced_station (h : OneChar s slot c f z) (hg : (s.job slot).line.glyphs = []) (hn : n < s.turret.stations.length) :
    ((s.charPlaced slot c f z n).station n).claims = (s.station n).claims + 1 := by
  have hglyphs : ((s.begun slot).job slot).line.glyphs = [] := by rw [h.line]; exact hg
  have hst : (s.charPlaced slot c f z n).turret.stations =
      s.turret.stations.modify n fun st => { st with claims := st.claims + 1 } := by
    have := placeGlyph_stations (s.begun slot) slot c f z n
    rw [hglyphs, if_neg (by simp)] at this
    exact this
  rw [State.station, hst, getD_modify_self _ hn]
  rfl

theorem OneChar.charPlaced_sameFonts (h : OneChar s slot c f z) (hg : (s.job slot).line.glyphs = []) :
    SameFonts s (s.charPlaced slot c f z n) := by
  rw [SameFonts, h.charPlaced_fonts hg]
  exact map_map_of_eq fun x _ => by split <;> rfl

theorem charPlaced_keeps (s : State) (slot : Nat) (c : Byte) (f z n : Nat) :
    (s.charPlaced slot c f z n).jobs.length = s.jobs.length ∧ (s.charPlaced slot c f z n).queue = s.queue ∧
    (s.charPlaced slot c f z n).film = s.film ∧ (s.charPlaced slot c f z n).exposureHead = s.exposureHead ∧
    (s.charPlaced slot c f z n).proofHead = s.proofHead := by
  simp [State.charPlaced, State.begun]

theorem OneChar.placeNext (h : OneChar s slot c f z) {r : FontRecord} (hf : s.font f = some r) (hw : r.width c ≠ 0)
    (hg : (s.job slot).line.glyphs = []) (hopen : s.flowPause = false ∨ (s.job slot).line.ending.isSome = true)
    (ha : s.askTurret r = .station n) :
    s.placeNext slot = (s.charPlaced slot c f z n,
      if s.fits (s.job slot).openLine [onlyGlyph c f z n] then .finished else .overflow) := by
  obtain ⟨hp, hplaced⟩ := placed_charWord h.slot_lt h.placing h.carry h.ended
  have hglyphs : ((s.begun slot).job slot).line.glyphs = [] := by rw [h.line]; exact hg
  have hending : ((s.begun slot).job slot).line.ending = (s.job slot).line.ending := by rw [h.line]
  have hstation : (s.begun slot).stationFor slot r = .station n :=
    (stationFor_of_no_glyph (s := s.begun slot) hf (by rw [hglyphs]; simp)).trans ha
  have hitems : placeItems slot [.char c f z] [] (s.begun slot) =
      ((s.begun slot).placeGlyph slot c f z n, [.char c f z], 1, .finished) := by
    rw [placeItems_station (s := s.begun slot) hf hw (Or.inr (by rw [begun_flowPause, hending]; exact hopen)) (by simp [hglyphs])
      (Or.inr (by simp [hglyphs, runsOf])) hstation]
    rfl
  have hstate : (s.placeNext slot).1 = s.charPlaced slot c f z n := by
    rw [placeNext_state hp, hplaced, hitems]
    rfl
  refine Prod.ext hstate ?_
  rw [placeNext_outcome hp, hstate, hplaced, hitems,
    judgeFit_finished (p := (s.job slot).openLine) (by rw [h.charPlaced_job hg]; rfl), h.charPlaced_job hg,
    fits_congr (h.charPlaced_sameFonts hg)]
  rfl

end

end Sys2Proof.Machine
end

section
/-! PLACE WORD settled: the three ends of a word of one character, and the clauses put together. -/

namespace Sys2Proof.Machine

open Sys2Proof

section
variable {s : State} {slot : Nat} {c : Byte} {f z n : Nat}

/-! ### No record: the word waits -/

/-- The state after the word has stalled (R71, R86). -/
def State.charStalled (s : State) (slot : Nat) (c : Byte) (f z : Nat) : State :=
  (((((s.begun slot).onLine slot ((charPlacing (s.job slot).line c f z 0).record [.char c f z] 0)).onJob slot
    fun j => { j with stallFont := f }).setStatus slot (.stalled .fontUnavailable)).endTurn slot)

theorem OneChar.placeWord_no_font (h : OneChar s slot c f z) (hf : s.font f = none) :
    placeWordEffect s = s.charStalled slot c f z := by
  rw [placeWord_of_some h.serves, h.placeNext_no_font hf]
  rfl

/-- A job whose word of one character has stalled, before its status is set. -/
def Job.charWaiting (c : Byte) (f z : Nat) (j : Job) : Job :=
  { j with
    stallFont := f
    line := { j.line with placing := some (charPlacing j.line c f z 0), ended := none, gapDue := true } }

theorem OneChar.charStalled_eq (h : OneChar s slot c f z) : ∃ u : State, u.job slot = (s.job slot).charWaiting c f z ∧
    slot < u.jobs.length ∧ u.fonts = s.fonts ∧ u.queue = s.queue ∧
    s.charStalled slot c f z = (u.setStatus slot (.stalled .fontUnavailable)).onEngine
      fun _ => { serving := none, pointer := (slot + 1) % 4 } := by
  refine ⟨((s.begun slot).onLine slot ((charPlacing (s.job slot).line c f z 0).record [.char c f z] 0)).onJob slot
    fun j => { j with stallFont := f }, ?_, ?_, rfl, rfl, ?_⟩
  · rw [State.job_onJob_self _ _ (by simpa using h.begun_lt), State.onLine, State.job_onJob_self _ _ (by exact h.begun_lt), h.job]
    rfl
  · simpa using h.begun_lt
  · have hlt : slot < (((s.begun slot).onLine slot ((charPlacing (s.job slot).line c f z 0).record [.char c f z] 0)).onJob slot
        fun j => { j with stallFont := f }).jobs.length := by simpa using h.begun_lt
    have hjob : (((s.begun slot).onLine slot ((charPlacing (s.job slot).line c f z 0).record [.char c f z] 0)).onJob slot
        fun j => { j with stallFont := f }).job slot = (s.job slot).charWaiting c f z := by
      rw [State.job_onJob_self _ _ (by simpa using h.begun_lt), State.onLine, State.job_onJob_self _ _ (by exact h.begun_lt), h.job]
      rfl
    rw [State.charStalled]
    refine endTurn_of_fontStalled ?_ ?_
    · rw [setStatus_job hlt, hjob]; exact serves_place h.serves
    · rw [setStatus_job hlt]

theorem OneChar.stalls (h : OneChar s slot c f z) (hf : s.font f = none) :
    ∃ t : State, exec .placeWord s = .next (settle s t) ∧
      (t.job slot).stallFont = f ∧ (t.job slot).line.glyphs = (s.job slot).line.glyphs ∧
      (t.job slot).status = .stalled .fontUnavailable ∧
      ((s.job slot).status ≠ .stalled .fontUnavailable → t.link.holds .jobStalled = true) ∧
      t.engine = { serving := none, pointer := (slot + 1) % 4 } ∧ t.fonts = s.fonts ∧ t.queue = s.queue := by
  refine ⟨s.charStalled slot c f z, exec_placeWord (h.placeWord_no_font hf), ?_⟩
  obtain ⟨u, hj, hlt, hfonts, hq, heq⟩ := h.charStalled_eq
  rw [heq]
  generalize hv : u.setStatus slot (.stalled .fontUnavailable) = v
  have hjob : v.job slot = { (s.job slot).charWaiting c f z with status := .stalled .fontUnavailable } := by
    rw [← hv, setStatus_job hlt, hj]
  have hvj : (v.onEngine fun _ => { serving := none, pointer := (slot + 1) % 4 }).job slot = v.job slot := rfl
  rw [hvj, hjob]
  refine ⟨rfl, rfl, rfl, fun hne => ?_, rfl, ?_, ?_⟩
  · have hne' : CompStatus.stalled .fontUnavailable ≠ (u.job slot).status := by rw [hj]; exact Ne.symm hne
    change v.link.holds .jobStalled = true
    rw [← hv, setStatus_of_change ⟨_, rfl⟩ hne']
    exact raise_holds_self _ _
  · change v.fonts = _
    rw [← hv, ← hfonts]; simp
  · change v.queue = _
    rw [← hv, ← hq]; simp

/-! ### The line fits -/

theorem OneChar.fits (h : OneChar s slot c f z) {r : FontRecord} (hf : s.font f = some r) (hw : r.width c ≠ 0)
    (hg : (s.job slot).line.glyphs = []) (hopen : s.flowPause = false ∨ (s.job slot).line.ending.isSome = true)
    (ha : s.askTurret r = .station n) (hfit : s.fits (s.job slot).openLine [onlyGlyph c f z n] = true) :
    ∃ t : State, placeWordEffect s = t ∧
      ({ (s.job slot).charPlaced c f z n with line := { ((s.job slot).charPlaced c f z n).line with placing := none } } : Job).sameBut
        (t.job slot) ∧
      t.fonts = (s.charPlaced slot c f z n).fonts ∧ t.turret = (s.charPlaced slot c f z n).turret ∧ t.queue = s.queue ∧
      t.film = s.film := by
  obtain ⟨hlen, hq, hfilm, -, -⟩ := charPlaced_keeps s slot c f z n
  have hlt : slot < (s.charPlaced slot c f z n).jobs.length := by rw [hlen]; exact h.slot_lt
  refine ⟨((s.charPlaced slot c f z n).onLine slot fun l => { l with placing := none }).afterStep slot, ?_, ?_, ?_, ?_, ?_, ?_⟩
  · rw [placeWord_of_some h.serves, h.placeNext hf hw hg hopen ha, hfit]
    rfl
  · have hj := afterStep_sameBut (s := (s.charPlaced slot c f z n).onLine slot fun l => { l with placing := none }) (slot := slot)
      (by simpa using hlt)
    rwa [State.onLine, State.job_onJob_self _ _ (by exact hlt), h.charPlaced_job hg] at hj
  · simp
  · simp
  · simp [hq]
  · simp [hfilm]

/-! ### The line does not fit: it is set OVERSET and offered -/

theorem OneChar.overset (h : OneChar s slot c f z) {r : FontRecord} (hf : s.font f = some r) (hw : r.width c ≠ 0)
    (hg : (s.job slot).line.glyphs = []) (hopen : s.flowPause = false ∨ (s.job slot).line.ending.isSome = true)
    (ha : s.askTurret r = .station n) (hfit : s.fits (s.job slot).openLine [onlyGlyph c f z n] = false) :
    placeWordEffect s = ((s.charPlaced slot c f z n).onLine slot LineInProgress.emptied).offer slot
      (.line (s.lineBody (s.job slot).openLine [onlyGlyph c f z n]
        (.overset :: if (s.job slot).line.missing then [.missing] else []) false)) := by
  have hfonts := h.charPlaced_sameFonts (n := n) hg
  have hbreak := breakLine_oneChar (s.charPlaced slot c f z n) slot (s.job slot).openLine
    (pl := charPlacing (s.job slot).line c f z 1) rfl (by simp [charPlacing, hg]) (onlyGlyph c f z n)
    (by rw [fits_congr hfonts]; exact hfit)
  have hjob := h.charPlaced_job (n := n) hg
  rw [placeWord_of_some h.serves, h.placeNext hf hw hg hopen ha, hfit]
  change (s.charPlaced slot c f z n).breakAndSet slot = _
  simp only [State.breakAndSet, hjob, Job.charPlaced, hbreak, leaveLine_self]
  rw [setLineWith_eq, lineBody_congr hfonts, hjob]
  rfl

/-- The job of an emptied line. -/
theorem OneChar.emptied_job (h : OneChar s slot c f z) (hg : (s.job slot).line.glyphs = []) :
    ((s.charPlaced slot c f z n).onLine slot LineInProgress.emptied).job slot =
      { (s.job slot).charPlaced c f z n with line := ((s.job slot).charPlaced c f z n).line.emptied } := by
  obtain ⟨hlen, -⟩ := charPlaced_keeps s slot c f z n
  rw [State.onLine, State.job_onJob_self _ _ (by rw [hlen]; exact h.slot_lt), h.charPlaced_job hg]

/-- An ending due has its last line still to be set. -/
theorem OneChar.emptied_unset (h : OneChar s slot c f z) : ∀ e, ((s.job slot).charPlaced c f z n).line.emptied.ending = some e →
    e.lineSet = false := by
  intro e he
  obtain ⟨e', he', rfl⟩ := Option.map_eq_some_iff.1 he
  rw [h.unset e' he']; rfl

/-- What an offered line leaves of the job: its line is empty, whether it is admitted or held. -/
def Job.lineLeft (k : Job) : Prop :=
  k.paragraphMark = false ∧ k.line.ended = none ∧ k.line.placing = none ∧ k.line.carry = none ∧ k.line.glyphs = []

theorem OneChar.offered (h : OneChar s slot c f z) (hg : (s.job slot).line.glyphs = []) (body : LineBody) {t : State}
    (ht : ((s.charPlaced slot c f z n).onLine slot LineInProgress.emptied).offer slot (.line body) = t) :
    (t.job slot).lineLeft ∧ t.film = s.film ∧ t.engine = { serving := none, pointer := (slot + 1) % 4 } ∧
    (s.admits slot (.line body) = true →
      ∃ e : Entry, t.queue.entries = s.queue.entries ++ [e] ∧
        e.body = .line { body with lineNumber := (s.job slot).lineNumber }) ∧
    (s.admits slot (.line body) = false → (t.job slot).line.held = some (.line body) ∧ t.queue = s.queue) := by
  obtain ⟨hlen, hq, hfilm, hhead, hproof⟩ := charPlaced_keeps s slot c f z n
  have hjob := h.emptied_job (n := n) hg
  have hadmits : ((s.charPlaced slot c f z n).onLine slot LineInProgress.emptied).admits slot (.line body) =
      s.admits slot (.line body) := 
    admits_congr (s := s) (t := (s.charPlaced slot c f z n).onLine slot LineInProgress.emptied) hq hhead hproof _ _
  have hlt : slot < ((s.charPlaced slot c f z n).onLine slot LineInProgress.emptied).jobs.length := by simpa [hlen] using h.slot_lt
  have hunset := h.emptied_unset (n := n)
  have hy : ((s.charPlaced slot c f z n).onLine slot LineInProgress.emptied).queue = s.queue := hq
  have hyf : ((s.charPlaced slot c f z n).onLine slot LineInProgress.emptied).film = s.film := hfilm
  generalize (s.charPlaced slot c f z n).onLine slot LineInProgress.emptied = y at *
  subst ht
  cases had : s.admits slot (.line body) with
  | true =>
    rw [offer_admitted (hadmits.trans had)]
    obtain ⟨hline, hpar⟩ := appended_job (.line body) (y.job slot)
    have hsame : ({ Job.appended (.line body) (y.job slot) with
        line := { (Job.appended (.line body) (y.job slot)).line with held := none } } : Job).sameBut
        ((((y.appendEntry slot (.line body)).admitted slot (.line body)).endTurn slot).job slot) := by
      have hadm := admitted_line_sameBut (s := y.appendEntry slot (.line body)) (slot := slot) (by simpa using hlt)
        (by rw [appendEntry_job y _ hlt, hline, hjob]; exact hunset) body
      rw [appendEntry_job y _ hlt] at hadm
      exact hadm.trans (endTurn_sameBut (by simpa using hlt))
    refine ⟨⟨?_, ?_, ?_, ?_, ?_⟩, by simp [hyf], endTurn_engine _ _, fun _ => ⟨y.newEntry slot (.line body), ?_, ?_⟩, nofun⟩
    · rw [hsame.paragraphMark]; exact hpar.trans (by rw [hjob]; rfl)
    · rw [hsame.line, hline, hjob]; rfl
    · rw [hsame.line, hline, hjob]; rfl
    · rw [hsame.line, hline, hjob]; rfl
    · rw [hsame.line, hline, hjob]; rfl
    · simp [appendEntry_queue, hy]
    · simp only [State.newEntry, hjob]; rfl
  | false =>
    rw [offer_held (hadmits.trans had)]
    have hsame := endTurn_sameBut (s := y.onLine slot fun l => { l with held := some (.line body) }) (slot := slot) (by simpa using hlt)
    rw [State.onLine, State.job_onJob_self _ _ (by exact hlt), hjob] at hsame
    refine ⟨⟨?_, ?_, ?_, ?_, ?_⟩, by simp [hyf], endTurn_engine _ _, nofun, fun _ => ⟨?_, by simp [hy]⟩⟩
    · exact hsame.paragraphMark
    · exact congrArg LineInProgress.ended hsame.line
    · exact congrArg LineInProgress.placing hsame.line
    · exact congrArg LineInProgress.carry hsame.line
    · exact congrArg LineInProgress.glyphs hsame.line
    · exact congrArg LineInProgress.held hsame.line

end

/-! ### The clauses put together -/

theorem placeGlyph_job_eq (s : State) {slot : Nat} (hslot : slot < s.jobs.length) (c : Byte) (f z n : Nat) :
    (s.placeGlyph slot c f z n).job slot = { s.job slot with
      paragraphMark := (s.job slot).paragraphMark && !(s.job slot).line.glyphs.isEmpty
      line := { (s.job slot).line with
        glyphs := (s.job slot).line.glyphs ++
          [{ code := c, font := f, size := z, station := n, gap := (s.job slot).line.gapDue && !(s.job slot).line.glyphs.isEmpty }]
        gapDue := false
        params := if (s.job slot).line.glyphs = [] then some (s.job slot).openLine else (s.job slot).line.params } } := by
  rw [placeGlyph_job s hslot]
  cases hg : (s.job slot).line.glyphs <;> simp [Job.place, hg]

theorem placeGlyph_station (s : State) {slot n : Nat} (hn : n < s.turret.stations.length) (c : Byte) (f z : Nat) :
    ((s.placeGlyph slot c f z n).station n = if ∃ g ∈ (s.job slot).line.glyphs, g.station = n then s.station n
      else { s.station n with claims := (s.station n).claims + 1 }) ∧
    ∀ m, m ≠ n → (s.placeGlyph slot c f z n).station m = s.station m := by
  have hst := placeGlyph_stations s slot c f z n
  by_cases h : ∃ g ∈ (s.job slot).line.glyphs, g.station = n
  · rw [if_pos h] at hst
    rw [if_pos h]
    exact ⟨State.station_turret hst n, fun m _ => State.station_turret hst m⟩
  · rw [if_neg h] at hst
    rw [if_neg h, State.station, hst]
    refine ⟨getD_modify_self _ hn _, fun m hm => ?_⟩
    rw [State.station, hst]
    exact getD_modify_ne _ _ (Ne.symm hm) _

/-- Settles O28: the step by the outcome of its placing, the word, its characters, the turret's answer, a glyph, and a word of one
character on an empty line. -/
theorem placeWordPlacesOrStalls : Obligations.PlaceWordPlacesOrStalls := by
  unfold Obligations.PlaceWordPlacesOrStalls
  refine ⟨fun s => ⟨fun h => ?_, fun slot h => ?_⟩, fun s slot hslot => ?_, fun s slot f z c kept rest => ?_, fun s r => ?_,
    fun s slot f z n c hslot hn => ?_, fun s slot f z c h1 h2 h3 h4 h5 h6 => ?_⟩
  · exact exec_placeWord (placeWord_of_none h)
  · have hstep := placeWord_of_some h
    refine ⟨fun ho => ?_, fun ho => ?_, fun r f ho => ?_, fun ho => ?_⟩ <;>
    · rw [ho] at hstep
      exact exec_placeWord hstep
  · refine ⟨fun p hp => ?_, fun w hp hc => ?_, fun w hp hc he => ?_, fun hp hc he hd hn => ?_, fun p hp => ?_⟩
    · exact (line_onLine hslot _).trans (beginPlacing_placing hp)
    · exact (line_onLine hslot _).trans (beginPlacing_carry hp hc)
    · exact (line_onLine hslot _).trans (beginPlacing_ended hp hc he)
    · exact (line_onLine hslot _).trans (beginPlacing_ending hp hc he hd hn)
    · refine ⟨placeNext_state hp, fun hne => ?_, fun q hfin hq => ?_⟩
      · exact (placeNext_outcome hp).trans (judgeFit_of_ne hne)
      · exact (placeNext_of_finished hp hfin hq).trans (if_congr (fits_iff _ _ _) rfl rfl)
  · refine ⟨rfl, rfl, fun hf => placeItems_no_font hf, fun r hf => ⟨placeItems_width_zero hf, placeItems_paused hf,
      placeItems_overflow hf, fun hw hopen hlen hruns => ⟨fun g hg => ?_, fun hno => ⟨fun n ha => ?_, fun ha => ?_, fun ha => ?_⟩⟩⟩⟩
    · exact placeItems_station hf hw hopen hlen hruns (stationFor_of_glyph hf hg)
    · exact placeItems_station hf hw hopen hlen hruns ((stationFor_of_no_glyph hf hno).trans ha)
    · exact placeItems_station hf hw hopen hlen hruns ((stationFor_of_no_glyph hf hno).trans ha)
    · exact placeItems_station hf hw hopen hlen hruns ((stationFor_of_no_glyph hf hno).trans ha)
  · exact ⟨fun n => askTurret_station, askTurret_changing s r, askTurret_unavailable s r⟩
  · obtain ⟨hq, hfilm, hexpo, hengine, hdict⟩ := placeGlyph_keeps_rest s slot c f z n
    obtain ⟨hst, hother⟩ := placeGlyph_station s (slot := slot) hn c f z
    exact ⟨placeGlyph_job_eq s hslot c f z n, fun m hm => placeGlyph_job_ne s hslot c f z n hm, placeGlyph_fonts s hslot c f z n,
      hst, hother, hq, hfilm, hexpo, hengine, hdict⟩
  · have h : OneChar s slot c f z := ⟨h1, h2, h3, h4, h5, h6⟩
    refine ⟨h.stalls, fun r n hf hw hg hopen ha hn => ?_⟩
    cases hfit : s.fits (s.job slot).openLine [onlyGlyph c f z n] with
    | true =>
      obtain ⟨t, ht, hsame, hfonts, hturret, hq, hfilm⟩ := h.fits hf hw hg hopen ha hfit
      refine ⟨t, exec_placeWord ht, hsame.paragraphMark, congrArg LineInProgress.ended hsame.line,
        congrArg LineInProgress.placing hsame.line, (congrArg LineInProgress.carry hsame.line).trans h4, hfilm,
        fun _ => ⟨congrArg LineInProgress.glyphs hsame.line, congrArg LineInProgress.params hsame.line,
          hfonts.trans (h.charPlaced_fonts hg), ?_, hq⟩, fun hno => absurd (hfit.symm.trans hno) (by decide)⟩
      rw [State.station_turret (congrArg Turret.stations hturret)]
      exact h.charPlaced_station hg hn
    | false =>
      obtain ⟨⟨hpar, hended, hplacing, hcarry, hglyphs⟩, hfilm, hengine, hadmit, hheld⟩ := h.offered hg _ (h.overset hf hw hg hopen ha hfit).symm
      exact ⟨_, exec_placeWord rfl, hpar, hended, hplacing, hcarry, hfilm, fun hyes => absurd (hfit.symm.trans hyes) (by decide),
        fun _ => ⟨hglyphs, hengine, hadmit, hheld⟩⟩

end Sys2Proof.Machine
end

section
/-! What the distributions of R80 and R81 add up to: a share gives out its total, and a capped share does so where its caps are in
proportion to its sizes and the total does not pass them. -/

namespace Sys2Proof.Machine

open Sys2Proof

/-! ### Floors of proportional parts -/

/-- The floors of the parts of a total, at a given whole, against the exact parts. -/
theorem floors_bounds (total whole : Nat) (h : 0 < whole) (sizes : List Nat) :
    whole * (sizes.map fun z => total * z / whole).sum ≤ total * sizes.sum ∧
    total * sizes.sum ≤ whole * ((sizes.map fun z => total * z / whole).sum + sizes.length) := by
  induction sizes with
  | nil => simp
  | cons z sizes ih =>
    obtain ⟨hlow, hhigh⟩ := ih
    have hmod := Nat.div_add_mod (total * z) whole
    have hlt := Nat.mod_lt (total * z) h
    simp only [List.map_cons, List.sum_cons, List.length_cons, Nat.mul_add] at hlow hhigh ⊢
    omega

theorem floors_sum_le {total : Nat} {sizes : List Nat} (h : 0 < sizes.sum) :
    (sizes.map fun z => total * z / sizes.sum).sum ≤ total :=
  Nat.le_of_mul_le_mul_left ((floors_bounds total _ h sizes).1.trans (Nat.mul_comm _ _).le) h

theorem total_le_floors_sum_add_length {total : Nat} {sizes : List Nat} (h : 0 < sizes.sum) :
    total ≤ (sizes.map fun z => total * z / sizes.sum).sum + sizes.length :=
  Nat.le_of_mul_le_mul_left ((Nat.mul_comm _ _).le.trans (floors_bounds total _ h sizes).2) h

/-- The floors of a total within a rate stay within it at every size. -/
theorem floor_le_of_le {total rate whole : Nat} (h : total ≤ rate * whole) (z : Nat) : total * z / whole ≤ rate * z := by
  refine Nat.div_le_of_le_mul ?_
  calc total * z ≤ rate * whole * z := Nat.mul_le_mul_right z h
    _ = whole * (rate * z) := by ring

/-- The floors of a total below the rate stay below it at every size. -/
theorem floor_lt_of_lt {total rate whole z : Nat} (h : total < rate * whole) (hz : 0 < z) : total * z / whole < rate * z := by
  have hwhole : 0 < whole := Nat.pos_of_ne_zero fun h0 => by simp [h0] at h
  rw [Nat.div_lt_iff_lt_mul hwhole]
  calc total * z < rate * whole * z := Nat.mul_lt_mul_of_pos_right h hz
    _ = rate * z * whole := Nat.mul_right_comm _ _ _

theorem sum_pos_of_forall_pos {l : List Nat} (hne : l ≠ []) (h : ∀ z ∈ l, 0 < z) : 0 < l.sum := by
  cases l with
  | nil => exact absurd rfl hne
  | cons z l =>
    have hz := h z (by simp)
    rw [List.sum_cons]
    omega

/-! ### Shares -/

/-- One more for each element before a bound adds as many as there are elements before it. -/
theorem sum_addBefore (r k : Nat) (l : List Nat) :
    ((l.zipIdx k).map fun x => if x.2 < r then x.1 + 1 else x.1).sum = l.sum + min (r - k) l.length := by
  induction l generalizing k with
  | nil => simp
  | cons x l ih =>
    simp only [List.zipIdx_cons, List.map_cons, List.sum_cons, List.length_cons, ih]
    split <;> omega

/-- A share gives out its whole total (R80). -/
theorem share_sum {total : Nat} {sizes : List Nat} (h : 0 < sizes.sum) : (share total sizes).sum = total := by
  have hlow := floors_sum_le (total := total) h
  have hhigh := total_le_floors_sum_add_length (total := total) h
  simp only [share, sum_addBefore, List.length_map]
  omega

/-- A share below a common rate does not pass the rate of any size (R80). -/
theorem share_le_of_lt {total rate : Nat} {sizes : List Nat} (h : total < rate * sizes.sum) {i z : Nat}
    (hz : sizes[i]? = some z) (hpos : 0 < z) : ∀ x ∈ (share total sizes)[i]?, x ≤ rate * z := by
  have hfloor := floor_lt_of_lt h hpos
  intro x hx
  rw [(share_spec total sizes).2 i z hz, Option.mem_some_iff] at hx
  split at hx <;> omega

/-! ### Capped shares -/

/-- Topping up gives out its units until every share stands at its cap (R81). -/
theorem topUp_sum (r : Nat) (l : List (Nat × Nat)) :
    (topUp r l).sum = (l.map Prod.fst).sum + min r (l.countP fun x => x.1 < x.2) := by
  induction l generalizing r with
  | nil => simp [topUp]
  | cons a l ih =>
    obtain ⟨x, cap⟩ := a
    simp only [topUp, List.map_cons, List.sum_cons, List.countP_cons]
    by_cases hc : x < cap <;> by_cases hr : 0 < r <;> simp [hc, hr, ih] <;> omega

theorem cappedShare_proportional {total rate : Nat} {sizes : List Nat} (h : total ≤ rate * sizes.sum) :
    cappedShare total sizes (sizes.map (rate * ·)) =
      topUp (total - (sizes.map fun z => total * z / sizes.sum).sum)
        (sizes.map fun z => (total * z / sizes.sum, rate * z)) := by
  have hlowered : (sizes.zip (sizes.map (rate * ·))).map (fun p => min (total * p.1 / sizes.sum) p.2) =
      sizes.map fun z => total * z / sizes.sum := by
    rw [← List.map_prod_left_eq_zip, List.map_map]
    exact List.map_congr_left fun z _ => Nat.min_eq_left (floor_le_of_le h z)
  simp only [cappedShare, hlowered, ← List.zip_map']

/-- A capped share gives out its whole total, where its caps are in proportion to its sizes and together reach it (R81). -/
theorem cappedShare_sum {total rate : Nat} {sizes : List Nat} (hpos : ∀ z ∈ sizes, 0 < z) (h : total ≤ rate * sizes.sum) :
    (cappedShare total sizes (sizes.map (rate * ·))).sum = total := by
  rw [cappedShare_proportional h, topUp_sum, List.map_map]
  rcases Nat.eq_zero_or_pos sizes.sum with hzero | hsum
  · have hnil : sizes = [] := by
      by_contra hne
      exact (sum_pos_of_forall_pos hne hpos).ne' hzero
    subst hnil
    simp at h ⊢
    exact h.symm
  have hlow := floors_sum_le (total := total) hsum
  have hhigh := total_le_floors_sum_add_length (total := total) hsum
  have hfst : (sizes.map (Prod.fst ∘ fun z => (total * z / sizes.sum, rate * z))).sum =
      (sizes.map fun z => total * z / sizes.sum).sum := rfl
  rw [hfst]
  rcases h.lt_or_eq with hlt | heq
  · have hall : (sizes.map fun z => (total * z / sizes.sum, rate * z)).countP (fun x => x.1 < x.2) = sizes.length := by
      rw [List.countP_map, List.countP_eq_length]
      intro z hz
      simpa using floor_lt_of_lt hlt (hpos z hz)
    rw [hall]
    omega
  · have hexact : (sizes.map fun z => total * z / sizes.sum).sum = total := by
      calc (sizes.map fun z => total * z / sizes.sum).sum = (sizes.map (rate * ·)).sum := by
            refine congrArg List.sum (List.map_congr_left fun z _ => ?_)
            rw [heq, Nat.mul_right_comm, Nat.mul_div_cancel _ hsum]
        _ = total := by rw [List.sum_map_mul_left, List.map_id', heq]
    rw [hexact]
    omega

end Sys2Proof.Machine
end

section
/-! What a line's glyphs measure: widths and kerns of a record, advances, gaps, pairs and runs, glyph by glyph. -/

namespace Sys2Proof.Machine

open Sys2Proof

/-! ### The record's tables -/

theorem width_eq (r : FontRecord) (b : Byte) :
    r.width b =
      if 0x21 ≤ b.toNat ∧ b.toNat ≤ 0x7E then r.widths.getD (b.toNat - 0x21) 0
      else if 0xA0 ≤ b.toNat then r.widths.getD (b.toNat - 0xA0 + 94) 0 else 0 := by
  simp only [FontRecord.width, tableAt, isCharCode_iff, charIndex]
  by_cases hlow : 0x21 ≤ b.toNat ∧ b.toNat ≤ 0x7E
  · rw [if_pos (.inl hlow), if_pos hlow, if_pos hlow.2]
  by_cases hhigh : 0xA0 ≤ b.toNat
  · rw [if_pos (.inr hhigh), if_neg hlow, if_pos hhigh, if_neg (by omega)]
  · rw [if_neg (not_or_intro hlow hhigh), if_neg hlow, if_neg hhigh]

theorem kern_eq_adjust {r : FontRecord} {a b : Byte} {k : KernPair} (hk : k ∈ r.kerns) (hfirst : k.first = a)
    (hsecond : k.second = b) (hone : ∀ x ∈ r.kerns, x.first = a → x.second = b → x = k) : r.kern a b = k.adjust := by
  have hfind : r.kerns.find? (fun k => k.first == a && k.second == b) = some k := by
    cases hf : r.kerns.find? fun k => k.first == a && k.second == b with
    | none => simpa [hfirst, hsecond] using List.find?_eq_none.1 hf k hk
    | some x =>
      have hx := List.find?_some hf
      simp only [Bool.and_eq_true, beq_iff_eq] at hx
      rw [hone x (List.mem_of_find?_eq_some hf) hx.1 hx.2]
  simp [FontRecord.kern, hfind]

theorem kern_eq_zero {r : FontRecord} {a b : Byte} (h : ∀ k ∈ r.kerns, ¬(k.first = a ∧ k.second = b)) : r.kern a b = 0 := by
  have hfind : r.kerns.find? (fun k => k.first == a && k.second == b) = none :=
    List.find?_eq_none.2 fun k hk => by simpa using h k hk
  simp [FontRecord.kern, hfind]

theorem sameRun_iff (g h : Glyph) : sameRun g h = true ↔ g.font = h.font ∧ g.size = h.size := by
  simp [sameRun]

/-! ### Advances -/

section
variable (s : State)

/-- The advance of a glyph before the glyph, if any, that follows it (R73). -/
def advanceBefore (s : State) (g : Glyph) : Option Glyph → Nat
  | some h => if sameRun g h && !h.gap then s.kernedAdvance g h else s.plainAdvance g
  | none => s.plainAdvance g

theorem advances_cons (g : Glyph) (gs : List Glyph) : s.advances (g :: gs) = advanceBefore s g gs.head? :: s.advances gs := by
  cases gs <;> rfl

theorem advances_length (gs : List Glyph) : (s.advances gs).length = gs.length := by
  induction gs with
  | nil => rfl
  | cons g gs ih => rw [advances_cons, List.length_cons, List.length_cons, ih]

theorem advances_getElem? (gs : List Glyph) (k : Nat) :
    (s.advances gs)[k]? = gs[k]?.map fun g => advanceBefore s g gs[k + 1]? := by
  induction gs generalizing k with
  | nil => rfl
  | cons g gs ih =>
    rw [advances_cons]
    cases k with
    | zero => simp [List.head?_eq_getElem?]
    | succ k => simpa using ih k

theorem advanceBefore_kerned {g h : Glyph} {r : FontRecord} (hfont : g.font = h.font) (hsize : g.size = h.size)
    (hgap : h.gap = false) (hr : s.font g.font = some r) :
    advanceBefore s g (some h) =
      (max 0 ((r.width g.code * g.size * 5 : Int) + r.kern g.code h.code * g.size * 5)).toNat := by
  have hcond : (sameRun g h && !h.gap) = true := by rw [(sameRun_iff g h).2 ⟨hfont, hsize⟩, hgap]; rfl
  rw [advanceBefore, if_pos hcond]
  simp only [State.kernedAdvance, State.plainAdvance, State.glyphWidth, hr, Option.map_some, Option.getD_some]
  push_cast
  omega

theorem glyphWidth_eq (g : Glyph) : s.glyphWidth g = match s.font g.font with | some r => r.width g.code | none => 0 := by
  rw [State.glyphWidth]
  cases s.font g.font <;> rfl

theorem advanceBefore_plain {g : Glyph} {next : Option Glyph}
    (hnext : ∀ h, next = some h → g.font ≠ h.font ∨ g.size ≠ h.size ∨ h.gap = true) :
    advanceBefore s g next = s.plainAdvance g := by
  cases next with
  | none => rfl
  | some h =>
    refine if_neg fun hkerned => ?_
    rw [Bool.and_eq_true, sameRun_iff, Bool.not_eq_true'] at hkerned
    obtain ⟨⟨hfont, hsize⟩, hgap⟩ := hkerned
    rcases hnext h rfl with hne | hne | hne
    · exact hne hfont
    · exact hne hsize
    · rw [hgap] at hne; exact Bool.false_ne_true hne

end

/-! ### Gaps, pairs and runs -/

theorem gapSizes_eq (gs : List Glyph) :
    gapSizes gs = ((gs.zip (gs.drop 1)).filter fun x => x.2.gap = true).map fun x => x.1.size := by
  induction gs with
  | nil => rfl
  | cons g gs ih =>
    cases gs with
    | nil => rfl
    | cons h gs =>
      have hstep : gapSizes (g :: h :: gs) = if h.gap then g.size :: gapSizes (h :: gs) else gapSizes (h :: gs) := rfl
      rw [hstep, ih]
      cases hgap : h.gap <;> simp [hgap]

theorem pairSizes_eq (gs : List Glyph) :
    pairSizes gs = ((gs.zip (gs.drop 1)).filter fun x => x.2.gap = false).map fun x => x.1.size := by
  induction gs with
  | nil => rfl
  | cons g gs ih =>
    cases gs with
    | nil => rfl
    | cons h gs =>
      have hstep : pairSizes (g :: h :: gs) = if h.gap then pairSizes (h :: gs) else g.size :: pairSizes (h :: gs) := rfl
      rw [hstep, ih]
      cases hgap : h.gap <;> simp [hgap]

theorem gapSizes_pos {gs : List Glyph} (h : ∀ g ∈ gs, 0 < g.size) : ∀ z ∈ gapSizes gs, 0 < z := by
  intro z hz
  rw [gapSizes_eq] at hz
  obtain ⟨x, hx, rfl⟩ := List.mem_map.1 hz
  exact h _ (List.of_mem_zip (List.mem_of_mem_filter hx)).1

theorem pairSizes_pos {gs : List Glyph} (h : ∀ g ∈ gs, 0 < g.size) : ∀ z ∈ pairSizes gs, 0 < z := by
  intro z hz
  rw [pairSizes_eq] at hz
  obtain ⟨x, hx, rfl⟩ := List.mem_map.1 hz
  exact h _ (List.of_mem_zip (List.mem_of_mem_filter hx)).1

theorem runsOf_cons_cons_length (g h : Glyph) (gs : List Glyph) :
    (runsOf (g :: h :: gs)).length =
      (runsOf (h :: gs)).length + if g.font ≠ h.font ∨ g.size ≠ h.size then 1 else 0 := by
  obtain ⟨r, hr, -⟩ := (runsOf_spec (h :: gs)).2.2.1 h rfl
  obtain ⟨rs, hrs⟩ := List.head?_eq_some_iff.1 hr
  have hstep : runsOf (g :: h :: gs) =
      if sameRun g h then { r with count := r.count + 1 } :: rs
      else { station := g.station, font := g.font, size := g.size, count := 1 } :: r :: rs := by
    rw [runsOf]
    simp only [List.head?_cons, hrs]
  rw [hstep, hrs]
  by_cases hs : g.font = h.font ∧ g.size = h.size
  · rw [if_pos ((sameRun_iff g h).2 hs), if_neg (by tauto)]
    rfl
  · rw [if_neg fun hrun => hs ((sameRun_iff g h).1 hrun), if_pos (by tauto)]
    rfl

theorem runsOf_length (gs : List Glyph) :
    (runsOf gs).length = (if gs = [] then 0 else 1) +
      (gs.zip (gs.drop 1)).countP fun x => x.1.font ≠ x.2.font ∨ x.1.size ≠ x.2.size := by
  induction gs with
  | nil => rfl
  | cons g gs ih =>
    cases gs with
    | nil => rfl
    | cons h gs =>
      rw [runsOf_cons_cons_length, ih]
      simp only [reduceCtorEq, if_false, List.drop_succ_cons, List.drop_zero, List.zip_cons_cons, List.countP_cons,
        decide_eq_true_eq]
      omega

end Sys2Proof.Machine
end

section
/-! The spacing of a line in each mode (R80 to R83), that a justified line fills its width, and the LINE entry it becomes. -/

namespace Sys2Proof.Machine

open Sys2Proof

/-! ### Which distribution a line takes -/

section
variable (s : State) (p : LineParams) (gs : List Glyph)

theorem spacing_overset (last : Bool) : s.spacing p gs last true =
    { gaps := (gapSizes gs).map fun _ => 0, pairs := (pairSizes gs).map fun _ => 0, offset := 0, flags := [] } := rfl

theorem spacing_justifyGaps (hquad : p.quad = .justify) (hgaps : gapSizes gs ≠ []) :
    s.spacing p gs false false = justifyGaps p (p.width - (s.advances gs).sum) (gapSizes gs) (pairSizes gs) := by
  simp [State.spacing, hquad, hgaps]

theorem spacing_justifyWord (hquad : p.quad = .justify) (hgaps : gapSizes gs = []) :
    s.spacing p gs false false = justifyWord p (p.width - (s.advances gs).sum) (pairSizes gs) := by
  simp [State.spacing, hquad, hgaps]

theorem spacing_setRagged (last : Bool) (h : p.quad ≠ .justify ∨ last = true) :
    s.spacing p gs last false = setRagged p p.quad (p.width - (s.advances gs).sum) (gapSizes gs) (pairSizes gs) := by
  rcases h with hquad | rfl
  · simp [State.spacing, hquad]
  · simp [State.spacing]

end

/-! ### Each distribution, case by case -/

section
variable {p : LineParams} {space : Nat} {gaps pairs : List Nat}

theorem spacedFlag_eq (l : List Nat) : spacedFlag l = if ∃ x ∈ l, 0 < x then [LineFlag.letterspaced] else [] := by
  rw [spacedFlag]
  refine if_congr ?_ rfl rfl
  simp

/-- Some gap's share passes its maximum (R80). -/
def someGapPasses (space rate : Nat) (gaps : List Nat) : Prop := ∃ x ∈ (share space gaps).zip (atSizes rate gaps), x.2 < x.1

theorem sharesFit_iff : (((share space gaps).zip (atSizes p.spaceMax gaps)).all fun x => x.1 ≤ x.2) = true ↔
    ¬someGapPasses space p.spaceMax gaps := by
  simp only [List.all_eq_true, decide_eq_true_eq, someGapPasses, not_exists, not_and, Nat.not_lt]

theorem justifyGaps_shares (h : ¬someGapPasses space p.spaceMax gaps) : justifyGaps p space gaps pairs =
    { gaps := share space gaps, pairs := pairs.map fun _ => 0, offset := 0, flags := [] } := by
  rw [justifyGaps, if_pos (sharesFit_iff.2 h)]

theorem justifyGaps_letterspaced (h : someGapPasses space p.spaceMax gaps)
    (hcaps : space - (atSizes p.spaceMax gaps).sum ≤ (atSizes p.letterMax pairs).sum) : justifyGaps p space gaps pairs =
    { gaps := atSizes p.spaceMax gaps
      pairs := cappedShare (space - (atSizes p.spaceMax gaps).sum) pairs (atSizes p.letterMax pairs), offset := 0
      flags := spacedFlag (cappedShare (space - (atSizes p.spaceMax gaps).sum) pairs (atSizes p.letterMax pairs)) } := by
  rw [justifyGaps, if_neg fun hfit => sharesFit_iff.1 hfit h, if_pos hcaps]

theorem justifyGaps_loose (h : someGapPasses space p.spaceMax gaps)
    (hcaps : (atSizes p.letterMax pairs).sum < space - (atSizes p.spaceMax gaps).sum) : justifyGaps p space gaps pairs =
    { gaps := List.zipWith (· + ·) (atSizes p.spaceMax gaps)
        (share (space - (atSizes p.spaceMax gaps).sum - (atSizes p.letterMax pairs).sum) gaps)
      pairs := atSizes p.letterMax pairs, offset := 0, flags := .loose :: spacedFlag (atSizes p.letterMax pairs) } := by
  rw [justifyGaps, if_neg fun hfit => sharesFit_iff.1 hfit h, if_neg hcaps.not_ge]

theorem justifyWord_filled (hpairs : pairs ≠ []) (hcaps : space ≤ (atSizes p.letterMax pairs).sum) :
    justifyWord p space pairs =
      { gaps := [], pairs := cappedShare space pairs (atSizes p.letterMax pairs), offset := 0
        flags := spacedFlag (cappedShare space pairs (atSizes p.letterMax pairs)) } := by
  rw [justifyWord, if_pos (by simp [hpairs, hcaps])]

theorem justifyWord_short (h : pairs = [] ∨ (atSizes p.letterMax pairs).sum < space) :
    justifyWord p space pairs =
      { gaps := [], pairs := atSizes p.letterMax pairs, offset := 0
        flags := .short :: spacedFlag (atSizes p.letterMax pairs) } := by
  rw [justifyWord, if_neg]
  rcases h with rfl | hcaps
  · simp
  · simp [hcaps]

theorem setRagged_shrunk (mode : QuadMode) (h : space < (atSizes p.spaceOpt gaps).sum) : setRagged p mode space gaps pairs =
    { gaps := share space gaps, pairs := pairs.map fun _ => 0, offset := 0, flags := [] } := by
  rw [setRagged, if_pos h]

theorem setRagged_optimum (mode : QuadMode) (h : (atSizes p.spaceOpt gaps).sum ≤ space) :
    setRagged p mode space gaps pairs =
      { gaps := atSizes p.spaceOpt gaps, pairs := pairs.map fun _ => 0, flags := []
        offset := match mode with
          | .right => space - (atSizes p.spaceOpt gaps).sum
          | .center => (space - (atSizes p.spaceOpt gaps).sum) / 2
          | _ => 0 } := by
  rw [setRagged, if_neg h.not_gt]
  cases mode <;> rfl

end

/-! ### A justified line fills its width -/

/-- What the spacing of a line gives out and how many gaps and pairs it has. -/
def Fills (sp : Spacing) (space : Nat) (gaps pairs : List Nat) : Prop :=
  sp.offset = 0 ∧ sp.gaps.sum + sp.pairs.sum = space ∧ sp.gaps.length = gaps.length ∧ sp.pairs.length = pairs.length

section
variable {p : LineParams} {space : Nat} {gaps pairs : List Nat}

theorem atSizes_eq_rate (wu : Nat) (sizes : List Nat) : atSizes wu sizes = sizes.map (wu * 5 * ·) :=
  List.map_congr_left fun z _ => by rw [Nat.mul_comm z 5, Nat.mul_assoc]

theorem atSizes_length (wu : Nat) (sizes : List Nat) : (atSizes wu sizes).length = sizes.length := List.length_map _

theorem atSizes_sum (wu : Nat) (sizes : List Nat) : (atSizes wu sizes).sum = wu * 5 * sizes.sum := by
  rw [atSizes_eq_rate, List.sum_map_mul_left, List.map_id']

theorem cappedShare_atSizes_sum {total wu : Nat} {sizes : List Nat} (hpos : ∀ z ∈ sizes, 0 < z)
    (h : total ≤ (atSizes wu sizes).sum) : (cappedShare total sizes (atSizes wu sizes)).sum = total := by
  rw [atSizes_sum] at h
  rw [atSizes_eq_rate]
  exact cappedShare_sum hpos h

theorem cappedShare_atSizes_length (total wu : Nat) (sizes : List Nat) :
    (cappedShare total sizes (atSizes wu sizes)).length = sizes.length :=
  (cappedShare_spec total sizes _ (atSizes_length wu sizes).symm).1

/-- Where a gap's share passes its maximum, the space reaches all the maximums together. -/
theorem maxes_sum_le_of_someGapPasses {wu : Nat} (hpos : ∀ z ∈ gaps, 0 < z) (h : someGapPasses space wu gaps) :
    (atSizes wu gaps).sum ≤ space := by
  by_contra hlt
  rw [atSizes_sum, Nat.not_le] at hlt
  obtain ⟨⟨x, top⟩, hmem, hpast⟩ := h
  obtain ⟨i, hi⟩ := List.getElem?_of_mem hmem
  rw [List.getElem?_zip_eq_some, atSizes_eq_rate, List.getElem?_map] at hi
  obtain ⟨hx, htop⟩ := hi
  obtain ⟨z, hz, rfl⟩ := Option.map_eq_some_iff.1 htop
  exact (share_le_of_lt hlt hz (hpos z (List.mem_of_getElem? hz)) x hx).not_gt hpast

theorem zipWith_add_sum (l m : List Nat) (h : l.length = m.length) : (List.zipWith (· + ·) l m).sum = l.sum + m.sum := by
  induction l generalizing m with
  | nil => simp [List.eq_nil_of_length_eq_zero h.symm]
  | cons x l ih =>
    cases m with
    | nil => simp at h
    | cons y m =>
      have hlm := ih m (by simpa using h)
      simp only [List.zipWith_cons_cons, List.sum_cons, hlm]
      omega

theorem justifyGaps_fills (hne : gaps ≠ []) (hgaps : ∀ z ∈ gaps, 0 < z) (hpairs : ∀ z ∈ pairs, 0 < z) :
    Fills (justifyGaps p space gaps pairs) space gaps pairs := by
  have hsum := sum_pos_of_forall_pos hne hgaps
  by_cases hpast : someGapPasses space p.spaceMax gaps
  · have hmaxes := maxes_sum_le_of_someGapPasses hgaps hpast
    by_cases hcaps : space - (atSizes p.spaceMax gaps).sum ≤ (atSizes p.letterMax pairs).sum
    · rw [justifyGaps_letterspaced hpast hcaps]
      refine ⟨rfl, ?_, atSizes_length _ _, cappedShare_atSizes_length _ _ _⟩
      simp only [cappedShare_atSizes_sum hpairs hcaps]
      omega
    · rw [justifyGaps_loose hpast (Nat.not_le.1 hcaps)]
      have hlen (total : Nat) : (atSizes p.spaceMax gaps).length = (share total gaps).length := by
        rw [atSizes_length, (share_spec total gaps).1]
      refine ⟨rfl, ?_, ?_, atSizes_length _ _⟩
      · simp only [zipWith_add_sum _ _ (hlen _), share_sum hsum]
        omega
      · rw [List.length_zipWith, ← hlen, Nat.min_self, atSizes_length]
  · rw [justifyGaps_shares hpast]
    exact ⟨rfl, by simp [share_sum hsum], (share_spec _ _).1, List.length_map _⟩

theorem justifyWord_fills (hpairs : ∀ z ∈ pairs, 0 < z) (hshort : LineFlag.short ∉ (justifyWord p space pairs).flags) :
    Fills (justifyWord p space pairs) space [] pairs := by
  by_cases h : pairs = [] ∨ (atSizes p.letterMax pairs).sum < space
  · rw [justifyWord_short h] at hshort
    exact absurd (List.mem_cons_self ..) hshort
  · rw [not_or, Nat.not_lt] at h
    obtain ⟨hne, hcaps⟩ := h
    rw [justifyWord_filled hne hcaps]
    exact ⟨rfl, by simp [cappedShare_atSizes_sum hpairs hcaps], rfl, cappedShare_atSizes_length _ _ _⟩

end

theorem spacing_fills {s : State} {p : LineParams} {gs : List Glyph} (hquad : p.quad = .justify)
    (hsize : ∀ g ∈ gs, 0 < g.size) (hshort : LineFlag.short ∉ (s.spacing p gs false false).flags) :
    Fills (s.spacing p gs false false) (p.width - (s.advances gs).sum) (gapSizes gs) (pairSizes gs) := by
  by_cases hgaps : gapSizes gs = []
  · rw [spacing_justifyWord s p gs hquad hgaps] at hshort ⊢
    rw [hgaps]
    exact justifyWord_fills (pairSizes_pos hsize) hshort
  · rw [spacing_justifyGaps s p gs hquad hgaps]
    exact justifyGaps_fills hgaps (gapSizes_pos hsize) (pairSizes_pos hsize)

/-! ### The entry -/

/-- A glyph of the entry stands at the rounded sum of the indent, the offset and what stands before it (R84, R85). -/
theorem lineBody_glyph (s : State) (p : LineParams) (gs : List Glyph) (flags : List LineFlag) (last : Bool) {k : Nat} {g : Glyph}
    (hk : gs[k]? = some g) :
    let sp := s.spacing p gs last (decide (LineFlag.overset ∈ flags))
    let before := ((gs.take (k + 1)).drop 1).countP Glyph.gap
    let stands := ((s.advances gs).take k).sum + (sp.gaps.take before).sum + (sp.pairs.take (k - before)).sum
    (s.lineBody p gs flags last).glyphs[k]? = some (g.code, (p.effLeft * 128 + sp.offset + stands + 64) / 128) := by
  intro sp before stands
  have hsp : s.spacing p gs last (flags.contains .overset) = sp := by rw [List.contains_eq_mem]
  simp only [State.lineBody, hsp]
  exact (placeAt_spec gs (s.advances gs) sp.gaps sp.pairs _).2 k g hk

theorem lineBody_flags (s : State) (p : LineParams) (gs : List Glyph) (flags : List LineFlag) (last : Bool) :
    (s.lineBody p gs flags last).flags = flags ++ (s.spacing p gs last (decide (LineFlag.overset ∈ flags))).flags := by
  simp only [State.lineBody, List.contains_eq_mem]

/-! ### The statement -/

/-- The clauses about one line's glyphs (R71, R73, R74). -/
theorem lineMeasures (s : State) (gs : List Glyph) :
    let width := fun g : Glyph => match s.font g.font with | some r => r.width g.code | none => 0
    ∀ k g, gs[k]? = some g →
      (∀ h r, gs[k + 1]? = some h → g.font = h.font → g.size = h.size → h.gap = false → s.font g.font = some r →
        (s.advances gs)[k]? =
          some (max 0 ((r.width g.code * g.size * 5 : Int) + r.kern g.code h.code * g.size * 5)).toNat) ∧
      ((∀ h, gs[k + 1]? = some h → g.font ≠ h.font ∨ g.size ≠ h.size ∨ h.gap = true) →
        (s.advances gs)[k]? = some (width g * g.size * 5)) := by
  intro width k g hk
  refine ⟨fun h r hnext hfont hsize hgap hr => ?_, fun hnext => ?_⟩
  · rw [advances_getElem?, hk, Option.map_some, hnext, advanceBefore_kerned s hfont hsize hgap hr]
  · rw [advances_getElem?, hk, Option.map_some, advanceBefore_plain s hnext, State.plainAdvance, glyphWidth_eq] <;> rfl

/-- Settles O30: each distribution case by case, with the totals of a share and of a capped share for the filled line. -/
theorem justifiedLinesFillTheMeasure : Obligations.JustifiedLinesFillTheMeasure := by
  unfold Obligations.JustifiedLinesFillTheMeasure
  refine ⟨share_spec, cappedShare_spec, width_eq, fun s gs => ?_, fun s p gs => ?_⟩
  · exact ⟨fun r a b => ⟨fun k hk hfirst hsecond hone => kern_eq_adjust hk hfirst hsecond hone, kern_eq_zero⟩,
      advances_length s gs, lineMeasures s gs, gapSizes_eq gs, pairSizes_eq gs, runsOf_length gs⟩
  intro natural room gaps pairs opts maxes caps spaced
  have hspaced : spaced = spacedFlag := funext fun l => (spacedFlag_eq l).symm
  refine ⟨?_, rfl, fun hquad hgaps => ?_, fun hquad hgaps => ?_,
    fun last hragged hfit => ?_, spacing_overset s p gs, fun flags last => ?_⟩
  case refine_1 =>
    intro hquad hsize hfit sp hshort
    obtain ⟨hoffset, hsum, hglen, hplen⟩ := spacing_fills hquad hsize hshort
    refine ⟨hoffset, ?_, hglen, hplen⟩
    calc natural + sp.gaps.sum + sp.pairs.sum = natural + (p.width - natural) := by rw [Nat.add_assoc]; exact congrArg _ hsum
      _ = p.width := Nat.add_sub_cancel' hfit
  case refine_2 =>
    intro first excess letters past
    rw [spacing_justifyGaps s p gs hquad hgaps, hspaced]
    exact ⟨justifyGaps_shares, justifyGaps_letterspaced, justifyGaps_loose⟩
  case refine_3 =>
    intro letters
    rw [spacing_justifyWord s p gs hquad hgaps, hspaced]
    exact ⟨justifyWord_filled, justifyWord_short⟩
  case refine_4 =>
    intro free
    rw [spacing_setRagged s p gs last hragged]
    refine ⟨fun hlt => setRagged_shrunk p.quad (Nat.sub_lt_left_of_lt_add hfit hlt), fun hle => ?_⟩
    refine (setRagged_optimum p.quad (Nat.le_sub_of_add_le' hle)).trans ?_
    cases p.quad <;> rfl
  case refine_5 =>
    obtain ⟨hcount, hneighbours, -, hglyphs⟩ := runsOf_spec gs
    exact ⟨rfl, rfl, rfl, rfl, rfl, lineBody_flags s p gs flags last, hcount, hneighbours, hglyphs,
      (placeAt_spec gs _ _ _ _).1, fun k g hk => lineBody_glyph s p gs flags last hk⟩

end Sys2Proof.Machine
end

section
/-! The turret under the exposure's ends, the film's moves and the lamp: the records of its stations and its line-open condition
change alone (R25, R27). -/

namespace Sys2Proof.Machine

open Sys2Proof

/-- The turret without its station records, whose number it keeps, and without the line-open condition. -/
def Turret.mechanism (t : Turret) : Turret × Nat :=
  ({ t with stations := [], lineOpen := false, lineEndDue := false }, t.stations.length)

theorem mechanism_fields {t u : Turret} (h : t.mechanism = u.mechanism) :
    t.position = u.position ∧ t.motion = u.motion ∧ t.protection = u.protection ∧ t.hatchOpen = u.hatchOpen ∧
    t.read = u.read ∧ t.stations.length = u.stations.length := by
  simp only [Turret.mechanism, Prod.mk.injEq, Turret.mk.injEq] at h
  tauto

variable (s : State)

@[simp] theorem mechanism_lineEnd (t : Turret) : t.lineEnd.mechanism = t.mechanism := by
  simp only [Turret.lineEnd]; split <;> rfl

@[simp] theorem mechanism_lineOpen (t : Turret) (b c : Bool) :
    ({ t with lineOpen := b, lineEndDue := c } : Turret).mechanism = t.mechanism := rfl

/-- The entry released has its exposure done, and so no pins (R25, R138). -/
theorem releaseIfDone_turret (k : Nat) : (s.releaseIfDone k).turret = s.turret := by
  cases h : s.queue.find k with
  | none => rw [releaseIfDone_of_none h]
  | some e =>
    cases hr : e.releasable with
    | false => rw [releaseIfDone_of_kept h hr]
    | true => rw [releaseIfDone_of_releasable h hr]; rfl

@[simp] theorem mechanism_exposureDone (k : Nat) (a b : Bool) : (s.exposureDone k a b).turret.mechanism = s.turret.mechanism := by
  cases h : s.queue.find k with
  | none => rw [exposureDone_of_none h]
  | some e =>
    rw [exposureDone_of_some h, releaseIfDone_turret]
    simp [Turret.mechanism, State.exposureReported, State.onStations, State.onTurret]

@[simp] theorem mechanism_lineDone (fl : Flight) : (s.lineDone fl).turret.mechanism = s.turret.mechanism := by
  simp [State.lineDone]

@[simp] theorem mechanism_abandon (fl : Flight) (a b : Bool) : (s.abandon fl a b).turret.mechanism = s.turret.mechanism := by
  simp [State.abandon]

@[simp] theorem mechanism_operationEnd (fl : Flight) (a b : Bool) :
    (s.operationEnd fl a b).turret.mechanism = s.turret.mechanism := by
  simp only [State.operationEnd]; split <;> simp

@[simp] theorem mechanism_undispatch (fl : Flight) : (s.undispatch fl).turret.mechanism = s.turret.mechanism := by
  simp [State.undispatch]

@[simp] theorem mechanism_leadEnd (fl : Flight) : (s.leadEnd fl).turret.mechanism = s.turret.mechanism := by
  simp only [State.leadEnd]; split <;> simp

@[simp] theorem mechanism_moveVerified : s.moveVerified.turret.mechanism = s.turret.mechanism := by
  simp only [State.moveVerified]; (repeat' split) <;> simp

@[simp] theorem mechanism_tellJam (m : Mover) : (s.tellJam m).turret.mechanism = s.turret.mechanism := by
  simp only [State.tellJam]; split <;> simp

@[simp] theorem mechanism_moveJam : s.moveJam.turret.mechanism = s.turret.mechanism := by simp [State.moveJam]

@[simp] theorem mechanism_beginMove (m : Mover) (n : Nat) (b : Bool) : (s.beginMove m n b).turret.mechanism = s.turret.mechanism := by
  simp only [State.beginMove]; (repeat' split) <;> simp

theorem mechanism_driveStop (r : Nat) : (driveStopEffect r s).turret.mechanism = s.turret.mechanism := by
  simp only [driveStopEffect]; (repeat' split) <;> simp

theorem mechanism_filmPresentChange (b : Bool) : (filmPresentChangeEffect b s).turret.mechanism = s.turret.mechanism := by
  simp only [filmPresentChangeEffect]; split <;> simp

theorem mechanism_cutterTimeout : (cutterTimeoutEffect s).turret.mechanism = s.turret.mechanism := by
  simp only [cutterTimeoutEffect]; split <;> simp

@[simp] theorem mechanism_putInFlight (e : Entry) (g : Option Nat) : (s.putInFlight e g).turret.mechanism = s.turret.mechanism := by
  simp only [State.putInFlight]; (repeat' split) <;> simp

theorem mechanism_dispatch : (dispatchEffect s).turret.mechanism = s.turret.mechanism := by
  simp only [dispatchEffect]; (repeat' split) <;> simp

@[simp] theorem mechanism_exposureEvent (a b : Bool) : (s.exposureEvent a b).turret.mechanism = s.turret.mechanism := by
  simp only [State.exposureEvent]; split <;> simp

theorem mechanism_feedAndCut : (feedAndCutEffect s).1.turret.mechanism = s.turret.mechanism := by
  simp only [feedAndCutEffect]; (repeat' split) <;> simp [refuse]

theorem mechanism_coverOpened : (coverOpenedEffect s).turret.mechanism = s.turret.mechanism := by simp [coverOpenedEffect]

@[simp] theorem mechanism_faultLamp (r : LampFault) : (s.faultLamp r).turret.mechanism = s.turret.mechanism := by
  simp [State.faultLamp]

@[simp] theorem mechanism_judgeLamp : s.judgeLamp.turret.mechanism = s.turret.mechanism := by
  simp only [State.judgeLamp]; (repeat' split) <;> simp

@[simp] theorem mechanism_lampReady : s.lampReady.turret.mechanism = s.turret.mechanism := by simp [State.lampReady]

@[simp] theorem mechanism_takeSample (x : Nat) : (s.takeSample x).turret.mechanism = s.turret.mechanism := by
  simp only [State.takeSample]; (repeat' split) <;> simp

theorem mechanism_ignitionExpiry : (ignitionExpiryEffect s).turret.mechanism = s.turret.mechanism := by
  simp only [ignitionExpiryEffect]; (repeat' split) <;> simp

theorem mechanism_recoveryExpiry : (recoveryExpiryEffect s).turret.mechanism = s.turret.mechanism := by
  simp only [recoveryExpiryEffect]; split <;> simp

theorem mechanism_validityExpiry : (validityExpiryEffect s).turret.mechanism = s.turret.mechanism := by
  simp only [validityExpiryEffect]; split <;> simp

@[simp] theorem mechanism_nextGlyph (fl : Flight) : (s.nextGlyph fl).turret.mechanism = s.turret.mechanism := by
  simp only [State.nextGlyph]; (repeat' split) <;> simp

theorem mechanism_flashComplete (x : Nat) : (flashCompleteEffect x s).turret.mechanism = s.turret.mechanism := by
  simp only [flashCompleteEffect]; (repeat' split) <;> simp

theorem mechanism_setLamp (w f n : Nat) : (setLampEffect w f n s).1.turret.mechanism = s.turret.mechanism := by
  simp only [setLampEffect]; split <;> simp [refuse, done]

@[simp] theorem mechanism_judgeEconomy (before : State) : (before.judgeEconomy s).turret.mechanism = s.turret.mechanism := by
  simp only [State.judgeEconomy]; (repeat' split) <;> simp

end Sys2Proof.Machine
end

section
/-! Which slots are not FREE, under every operation on the jobs. -/

namespace Sys2Proof.Machine

open Sys2Proof

/-- Slot by slot, whether the job context is not FREE (R40). -/
def State.occupied (s : State) : List Bool := s.jobs.map fun j => j.state != .free

section
variable {s t : State}

theorem occupied_congr (h : t.jobs = s.jobs) : t.occupied = s.occupied := congrArg (List.map _) h

theorem occupied_getD (s : State) (n : Nat) : s.occupied.getD n false = ((s.job n).state != .free) := by
  simp only [State.occupied, State.job, List.getD_eq_getElem?_getD, List.getElem?_map]
  cases s.jobs[n]? <;> rfl

theorem occupied_length (s : State) : s.occupied.length = s.jobs.length := List.length_map _

theorem galleyOk_iff (s : State) : GalleyOk s ↔
    s.occupied.length = 4 ∧ s.galleyOrder.Nodup ∧ ∀ n, n ∈ s.galleyOrder ↔ n < 4 ∧ s.occupied.getD n false = true := by
  simp only [GalleyOk, occupied_length, occupied_getD, bne_iff_ne]

end

section
variable (s : State)

/-- A change of a job that neither opens nor frees its slot. -/
theorem occupied_onJob_at (n : Nat) {f : Job → Job}
    (h : ((f (s.job n)).state != .free) = ((s.job n).state != .free)) : (s.onJob n f).occupied = s.occupied := by
  refine List.ext_getElem? fun m => ?_
  simp only [State.occupied, State.onJob, List.getElem?_map, List.getElem?_modify]
  by_cases hmn : n = m
  · subst hmn
    cases hj : s.jobs[n]? with
    | none => rfl
    | some j => simpa [State.job, List.getD_eq_getElem?_getD, hj] using h
  · simp [hmn]

@[simp] theorem occupied_onJob (n : Nat) {f : Job → Job} (h : ∀ j, (f j).state = j.state) :
    (s.onJob n f).occupied = s.occupied := occupied_onJob_at s n (by rw [h])

@[simp] theorem occupied_onLine (n : Nat) (f : LineInProgress → LineInProgress) : (s.onLine n f).occupied = s.occupied :=
  occupied_onJob s n fun _ => rfl

@[simp] theorem occupied_onLink (f : Link → Link) : (s.onLink f).occupied = s.occupied := rfl
@[simp] theorem occupied_onTurret (f : Turret → Turret) : (s.onTurret f).occupied = s.occupied := rfl
@[simp] theorem occupied_onEngine (f : Engine → Engine) : (s.onEngine f).occupied = s.occupied := rfl
@[simp] theorem occupied_onStation (n : Nat) (f : Station → Station) : (s.onStation n f).occupied = s.occupied := rfl
@[simp] theorem occupied_onFont (n : Nat) (f : FontRecord → FontRecord) : (s.onFont n f).occupied = s.occupied := rfl
@[simp] theorem occupied_raise (n : Notice) : (s.raise n).occupied = s.occupied := rfl
@[simp] theorem occupied_raiseIf (b : Bool) (n : Notice) : (s.raiseIf b n).occupied = s.occupied := occupied_congr (by simp)

/-! ### Jobs stalled for a font, and the turret -/

@[simp] theorem occupied_setStatus (n : Nat) (c : CompStatus) : (s.setStatus n c).occupied = s.occupied := by
  simp only [State.setStatus]; split <;> simp

@[simp] theorem occupied_reask (n : Nat) : (s.reask n).occupied = s.occupied := by
  simp only [State.reask]; (repeat' split) <;> simp

@[simp] theorem occupied_reaskAll : s.reaskAll.occupied = s.occupied := by simp [reaskAll_eq]

@[simp] theorem occupied_changeStation (n : Nat) (f : Station → Station) : (s.changeStation n f).occupied = s.occupied := by
  simp [State.changeStation]

@[simp] theorem occupied_mount (n k : Nat) : (s.mount n k).occupied = s.occupied := by simp [State.mount]

@[simp] theorem occupied_settleStation (n : Nat) : (s.settleStation n).occupied = s.occupied := by
  simp only [State.settleStation]; split <;> simp

@[simp] theorem occupied_endExchange : s.endExchange.occupied = s.occupied := rfl

@[simp] theorem occupied_releaseHatch (n : Nat) : (s.releaseHatch n).occupied = s.occupied := by
  simp only [State.releaseHatch]; split <;> simp

@[simp] theorem occupied_returnPrior (n : Nat) : (s.returnPrior n).occupied = s.occupied := by
  simp only [State.returnPrior]; (repeat' split) <;> simp

@[simp] theorem occupied_beginPositioning (n : Nat) : (s.beginPositioning n).occupied = s.occupied := by
  simp only [State.beginPositioning]; split <;> simp

theorem occupied_rotationArrival : (rotationArrivalEffect s).occupied = s.occupied := by
  simp only [rotationArrivalEffect, State.beginRead]; (repeat' split) <;> simp

theorem occupied_hatchClosed : (hatchClosedEffect s).occupied = s.occupied := by
  simp only [hatchClosedEffect, State.beginRead]; (repeat' split) <;> simp

@[simp] theorem occupied_verdict (code : Nat) : (s.verdict code).occupied = s.occupied := by
  simp only [State.verdict]; (repeat' split) <;> simp

theorem occupied_stripReadComplete (code : Nat) : (stripReadCompleteEffect code s).occupied = s.occupied := by
  simp only [stripReadCompleteEffect]; (repeat' split) <;> simp

theorem occupied_prepareExchange (n : Nat) : (prepareExchangeEffect n s).1.occupied = s.occupied := by
  simp only [prepareExchangeEffect]; (repeat' split) <;> simp [refuse]

theorem occupied_cancelExchange (n : Nat) : (cancelExchangeEffect n s).1.occupied = s.occupied := by
  simp only [cancelExchangeEffect]; (repeat' split) <;> simp [refuse, done]

theorem occupied_mountAll (l : List Nat) (k : Nat) : (l.foldl (fun u n => u.mount n k) s).occupied = s.occupied :=
  foldl_keeps (P := State.occupied) (fun u n => occupied_mount u n k) s l

theorem occupied_defineFont (d : FontDef) : (defineFontEffect d s).1.occupied = s.occupied := by
  simp only [defineFontEffect]
  split
  · rfl
  split
  · rfl
  split
  · rfl
  split
  · rfl
  simp only [occupied_reaskAll, occupied_mountAll]
  exact occupied_congr rfl

/-! ### Lines, entries and turns -/

@[simp] theorem occupied_discardLine (n : Nat) : (s.discardLine n).occupied = s.occupied :=
  (occupied_onLine _ n _).trans (occupied_congr (by simp))

@[simp] theorem occupied_appendEntry (n : Nat) (b : Body) : (s.appendEntry n b).occupied = s.occupied :=
  (occupied_congr (appendEntry_jobs s n b)).trans (occupied_onJob s n (Job.appended_state b))

@[simp] theorem occupied_restatus (n : Nat) : (s.restatus n).occupied = s.occupied := by
  simp only [State.restatus]; (repeat' split) <;> simp

@[simp] theorem occupied_finishComposition (n : Nat) : (s.finishComposition n).occupied = s.occupied := by
  simp only [State.finishComposition]; split <;> simp

@[simp] theorem occupied_endTurn (n : Nat) : (s.endTurn n).occupied = s.occupied := by simp [State.endTurn]

@[simp] theorem occupied_afterStep (n : Nat) : (s.afterStep n).occupied = s.occupied := by
  simp only [State.afterStep]; split <;> simp

theorem occupied_takeByte : (takeByteEffect s).occupied = s.occupied := by
  simp only [takeByteEffect]
  split
  · rfl
  · refine (occupied_afterStep _ _).trans (occupied_onJob s _ fun j => ?_)
    obtain ⟨-, -, -, hstate, -⟩ := (Job.sameHold_applyByte s.house j).trans (Job.sameHold_exhaust _)
    exact hstate

@[simp] theorem occupied_placeGlyph (n : Nat) (c : Byte) (f z k : Nat) : (s.placeGlyph n c f z k).occupied = s.occupied := by
  simp only [State.placeGlyph]; (repeat' split) <;> simp

@[simp] theorem occupied_placeItems (n : Nat) (items kept : List WordItem) :
    (placeItems n items kept s).1.occupied = s.occupied := by
  induction items generalizing kept s with
  | nil => rfl
  | cons x items ih =>
    cases x with
    | mark => exact ih s _
    | char c f z =>
      simp only [placeItems]
      (repeat' split) <;> simp [ih]

@[simp] theorem occupied_placeNext (n : Nat) : (s.placeNext n).1.occupied = s.occupied := by
  simp only [State.placeNext]; split <;> simp

@[simp] theorem occupied_leaveLine (old kept : List Glyph) : (s.leaveLine old kept).occupied = s.occupied :=
  occupied_congr (by simp)

@[simp] theorem occupied_breakLine (n : Nat) (p : LineParams) (pl : Placing) (gs : List Glyph) :
    (s.breakLine n p pl gs).1.occupied = s.occupied := occupied_congr (by simp)

@[simp] theorem occupied_completeEnding (n : Nat) (e : Ending) : (s.onJob n (Job.completeEnding e)).occupied = s.occupied :=
  occupied_onJob s n fun _ => rfl

@[simp] theorem occupied_resumeEnding (n : Nat) : (s.resumeEnding n).occupied = s.occupied := by
  simp only [State.resumeEnding]; (repeat' split) <;> simp

@[simp] theorem occupied_admitted (n : Nat) (b : Body) : (s.admitted n b).occupied = s.occupied := by
  simp only [State.admitted]; (repeat' split) <;> simp

@[simp] theorem occupied_offer (n : Nat) (b : Body) : (s.offer n b).occupied = s.occupied := by
  simp only [State.offer]; split <;> simp

@[simp] theorem occupied_setLineWith (n : Nat) (p : LineParams) (kept : List Glyph) (flags : List LineFlag) (last : Bool)
    (carry : Option Word) : (s.setLineWith n p kept flags last carry).occupied = s.occupied := by
  simp [State.setLineWith]

@[simp] theorem occupied_breakAndSet (n : Nat) : (s.breakAndSet n).occupied = s.occupied := by
  simp only [State.breakAndSet]; split <;> simp

@[simp] theorem occupied_carryEnding (n : Nat) : (s.carryEnding n).occupied = s.occupied := by
  simp only [State.carryEnding]; (repeat' split) <;> simp

theorem occupied_placeWord : (placeWordEffect s).occupied = s.occupied := by
  simp only [placeWordEffect]; (repeat' split) <;> simp

theorem occupied_setLine : (setLineEffect s).occupied = s.occupied := by
  simp only [setLineEffect]; (repeat' split) <;> simp

theorem occupied_offerWaiting {t : State} (h : s.offerWaiting = some t) : t.occupied = s.occupied := by
  obtain ⟨n, -, hn⟩ := List.exists_of_findSome?_eq_some h
  split at hn
  · simp at hn
  · split at hn
    · obtain rfl := Option.some.inj hn
      split <;> simp
    · simp at hn

/-! ### Requests on jobs -/

theorem occupied_sendText (n : Nat) (text : List Byte) : (sendTextEffect n text s).1.occupied = s.occupied := by
  simp only [sendTextEffect]; (repeat' split) <;> simp [refuse]

/-- A job that closes was ACTIVE, and its slot stays taken (R49). -/
theorem occupied_closeJob (n id : Nat) : (closeJobEffect n id s).1.occupied = s.occupied := by
  simp only [closeJobEffect]
  split
  · rfl
  split
  · rfl
  next h =>
  simp only [Bool.or_eq_true, bne_iff_ne, ne_eq, not_or, not_not] at h
  refine ((occupied_restatus _ n).trans (occupied_finishComposition _ n)).trans (occupied_onJob_at s n ?_)
  obtain ⟨-, -, -, hstate, -⟩ := Job.sameHold_exhaust { s.job n with state := .closing }
  rw [hstate, h.1]
  rfl

@[simp] theorem occupied_offerMark (n : Nat) : (s.offerMark n).occupied = s.occupied := by
  simp only [State.offerMark]; split <;> simp

@[simp] theorem occupied_testLow : s.testLow.occupied = s.occupied := rfl
@[simp] theorem occupied_recomputeHeads : s.recomputeHeads.occupied = s.occupied := rfl

/-- A job that is aborted was composing, and its slot stays taken (R51). -/
theorem occupied_abortJob (n id : Nat) : (abortJobEffect n id s).1.occupied = s.occupied := by
  simp only [abortJobEffect]
  split
  · rfl
  split
  · rfl
  next h =>
  simp only [Bool.or_eq_true, not_or, Bool.not_eq_true', Bool.not_eq_false, Job.composing, beq_iff_eq] at h
  obtain ⟨hstate, -⟩ := h
  generalize hu : retireWhere _ (List.foldl State.cancelEntry (s.discardLine n) _) = u
  have hocc : u.occupied = s.occupied := by
    rw [← hu]; exact (occupied_congr (by simp)).trans (occupied_discardLine s n)
  have hjob : ∀ f : Job → Job, (∀ j, (f j).state = .aborting) → (u.onJob n f).occupied = s.occupied := fun f hf => by
    refine (occupied_onJob_at u n ?_).trans hocc
    rw [hf, ← occupied_getD, hocc, occupied_getD]
    rcases hstate with h | h <;> rw [h] <;> rfl
  simp only [done, occupied_offerMark, occupied_recomputeHeads, occupied_testLow]
  split <;> exact hjob _ fun _ => rfl

end

end Sys2Proof.Machine
end

section
/-! The four slots with the galley order list, the shapes of the tables and the engine's slot numbers, under every command
(R37, R40, R43, R65). -/

namespace Sys2Proof.Machine

open Sys2Proof

/-- R65: the pointer and the slot served are slot numbers. -/
def EngineOk (s : State) : Prop := s.engine.pointer < 4 ∧ ∀ n ∈ s.engine.serving, n < 4

/-- What O56 says of a state. -/
def TableOk (s : State) : Prop := GalleyOk s ∧ ShapeOk s

/-- The galley order list and the tables, as far as `TableOk` speaks of them. -/
def State.tables (s : State) : List Nat × Nat × List Nat × Nat :=
  (s.galleyOrder, s.turret.stations.length, s.turret.protection, s.languages.length)

section
variable {s t : State}

theorem tableOk_iff (s : State) : TableOk s ↔
    GalleyOk s ∧ EngineOk s ∧ s.turret.stations.length = 8 ∧ s.turret.protection.Nodup ∧
    (∀ n ∈ s.turret.protection, n < 8) ∧ s.languages.length = 4 := by
  simp only [TableOk, ShapeOk, EngineOk]
  tauto

theorem TableOk.galleyOk (h : TableOk s) : GalleyOk s := h.1
theorem TableOk.engineOk (h : TableOk s) : EngineOk s := ((tableOk_iff s).1 h).2.1

/-- The galley order list and the slots may change together. -/
theorem TableOk.of_galley (h : TableOk s) (hgalley : GalleyOk t) (ht : t.turret = s.turret) (hl : t.languages = s.languages)
    (heng : EngineOk t) : TableOk t := by
  obtain ⟨-, -, hrest⟩ := (tableOk_iff s).1 h
  exact (tableOk_iff t).2 ⟨hgalley, heng, by rw [ht, hl]; exact hrest⟩

theorem TableOk.of_frame (h : TableOk s) (hocc : t.occupied = s.occupied) (htab : t.tables = s.tables) (heng : EngineOk t) :
    TableOk t := by
  obtain ⟨hgalley, -, hrest⟩ := (tableOk_iff s).1 h
  simp only [State.tables, Prod.mk.injEq] at htab
  obtain ⟨hgo, hst, hprot, hlang⟩ := htab
  refine (tableOk_iff t).2 ⟨(galleyOk_iff t).2 ?_, heng, by rw [hst, hprot, hlang]; exact hrest⟩
  rw [hocc, hgo]
  exact (galleyOk_iff s).1 hgalley

theorem EngineOk.of_eq (h : EngineOk s) (he : t.engine = s.engine) : EngineOk t := by
  simpa only [EngineOk, he] using h

theorem TableOk.of_kept (h : TableOk s) (hocc : t.occupied = s.occupied) (htab : t.tables = s.tables)
    (heng : t.engine = s.engine) : TableOk t := h.of_frame hocc htab (h.engineOk.of_eq heng)

theorem TableOk.of_mechanism (h : TableOk s) (hjobs : t.jobs = s.jobs) (hmech : t.turret.mechanism = s.turret.mechanism)
    (hgo : t.galleyOrder = s.galleyOrder) (hlang : t.languages = s.languages) (heng : t.engine = s.engine) : TableOk t := by
  obtain ⟨-, -, hprot, -, -, hlen⟩ := mechanism_fields hmech
  exact h.of_kept (occupied_congr hjobs) (by simp only [State.tables, hgo, hlang, hprot, hlen]) heng

/-! ### The engine -/

/-- The engine is IDLE, its pointer past a slot (R67). -/
theorem engineOk_past {n : Nat} (h : t.engine = { serving := none, pointer := (n + 1) % 4 }) : EngineOk t := by
  simp only [EngineOk, h]
  exact ⟨Nat.mod_lt _ (by decide), nofun⟩

theorem engineOk_endTurn (s : State) (n : Nat) : EngineOk (s.endTurn n) := engineOk_past (n := n) (by simp [State.endTurn])

theorem EngineOk.afterStep (h : EngineOk s) (he : t.engine = s.engine) (n : Nat) : EngineOk (t.afterStep n) := by
  simp only [State.afterStep]
  split
  · exact engineOk_endTurn _ n
  · exact h.of_eq ((by simp : (t.finishComposition n).engine = t.engine).trans he)

theorem engineOk_offer (s : State) (n : Nat) (b : Body) : EngineOk (s.offer n b) := by
  simp only [State.offer]
  split <;> exact engineOk_endTurn _ n

theorem EngineOk.breakAndSet (h : EngineOk s) (he : t.engine = s.engine) (n : Nat) : EngineOk (t.breakAndSet n) := by
  simp only [State.breakAndSet]
  split
  · exact engineOk_offer _ n _
  · exact h.of_eq he

theorem EngineOk.carryEnding (h : EngineOk s) (n : Nat) : EngineOk (s.carryEnding n) := by
  simp only [State.carryEnding]
  split
  · split
    · exact h
    · split
      · exact h
      · exact engineOk_offer _ n _
  · split
    · exact h.afterStep (by simp) n
    · exact engineOk_offer _ n _
  · exact h

theorem EngineOk.takeByte (h : EngineOk s) : EngineOk (takeByteEffect s) := by
  simp only [takeByteEffect]
  split
  · exact h
  · exact h.afterStep (by simp) _

theorem EngineOk.placeWord (h : EngineOk s) : EngineOk (placeWordEffect s) := by
  simp only [placeWordEffect]
  split
  · exact h
  · split
    · exact h.afterStep (by simp) _
    · exact h.breakAndSet (by simp) _
    · exact engineOk_endTurn _ _
    · exact engineOk_endTurn _ _

theorem EngineOk.setLine (h : EngineOk s) : EngineOk (setLineEffect s) := by
  simp only [setLineEffect]
  split
  · split
    · exact h.breakAndSet (by simp) _
    · exact h
  · exact h.carryEnding _
  · exact h

theorem EngineOk.chooseTurn (h : EngineOk s) {t : State} (ht : s.chooseTurn = some t) : EngineOk t := by
  simp only [State.chooseTurn] at ht
  split at ht
  · exact absurd ht (by simp)
  · obtain ⟨n, hn, rfl⟩ := Option.map_eq_some_iff.1 ht
    obtain ⟨k, -, rfl⟩ := List.mem_map.1 (List.mem_of_find?_eq_some hn)
    refine ⟨h.1, fun m hm => ?_⟩
    obtain rfl : (s.engine.pointer + k) % 4 = m := by simpa using hm
    exact Nat.mod_lt _ (by decide)

theorem EngineOk.abortJob (h : EngineOk s) (n id : Nat) : EngineOk (abortJobEffect n id s).1 := by
  simp only [abortJobEffect]
  split
  · exact h
  split
  · exact h
  dsimp only [done]
  split
  · exact engineOk_past (n := n) (by simp)
  · exact h.of_eq (by simp)

/-! ### A job opened, a job returned to FREE -/

theorem GalleyOk.openJob (h : GalleyOk s) (n id : Nat) (p : OpenParams) : GalleyOk (openJobEffect n id p s).1 := by
  simp only [openJobEffect]
  split
  · exact h
  next hrange =>
  split
  · exact h
  split
  · exact h
  next hfree =>
  obtain ⟨h4, hnd, hmem⟩ := h
  have hn : n < 4 := by simp at hrange; omega
  have hout : n ∉ s.galleyOrder := fun hin => ((hmem n).1 hin).2 (by simpa using hfree)
  refine ⟨by simpa using h4, List.nodup_append.2 ⟨hnd, by simp, fun a ha b hb hab => hout (List.mem_singleton.1 hb ▸ hab ▸ ha)⟩, fun m => ?_⟩
  change m ∈ s.galleyOrder ++ [n] ↔ m < 4 ∧ ((s.onJob n _).job m).state ≠ .free
  rw [List.mem_append, List.mem_singleton, hmem]
  by_cases hmn : n = m
  · subst hmn
    rw [State.job_onJob_self s _ (h4 ▸ hn)]
    simp [hn]
  · rw [State.job_onJob_ne s _ hmn]
    simp [Ne.symm hmn]

theorem freeJob_galleyOrder (s : State) (n : Nat) : (s.freeJob n).galleyOrder = s.galleyOrder.filter (· != n) := by
  simp only [State.freeJob]; split <;> rfl

theorem GalleyOk.freeJob (h : GalleyOk s) {n : Nat} (hn : n ∈ s.galleyOrder) : GalleyOk (s.freeJob n) := by
  obtain ⟨h4, hnd, hmem⟩ := h
  have hlt : n < s.jobs.length := h4 ▸ ((hmem n).1 hn).1
  have hjob : ∀ m, ((s.freeJob n).job m).state = if m = n then .free else (s.job m).state := fun m => by
    obtain ⟨f, hf, hfree⟩ : ∃ f : Job → Job, (s.freeJob n).jobs = s.jobs.modify n f ∧ ∀ j, (f j).state = .free := by
      simp only [State.freeJob]
      split <;> exact ⟨_, rfl, fun _ => rfl⟩
    have hj : (s.freeJob n).job m = (s.onJob n f).job m := by simp only [State.job, State.onJob, hf]
    rw [hj]
    split
    next hmn => rw [hmn, State.job_onJob_self s f hlt, hfree]
    next hmn => rw [State.job_onJob_ne s f (Ne.symm hmn)]
  refine ⟨by simpa using h4, by rw [freeJob_galleyOrder]; exact hnd.filter _, fun m => ?_⟩
  rw [freeJob_galleyOrder, hjob, List.mem_filter, hmem, bne_iff_ne]
  by_cases hmn : m = n <;> simp [hmn]

/-! ### The closing part of a step -/

theorem TableOk.react (h : TableOk s) (ht : s.react = some t) : TableOk t := by
  simp only [State.react] at ht
  rcases orElse_cases ht with ht | ht
  · obtain ⟨n, hn, rfl⟩ := Option.map_eq_some_iff.1 ht
    exact h.of_galley (h.galleyOk.freeJob (List.mem_of_find?_eq_some hn)) (by simp) (by simp) (h.engineOk.of_eq (by simp))
  rcases orElse_cases ht with ht | ht
  · exact h.of_kept (occupied_congr (by simp [reactHeads_keeps ht])) (by simp [State.tables, reactHeads_keeps ht])
      (by simp [reactHeads_keeps ht])
  rcases orElse_cases ht with ht | ht
  · exact h.of_kept (occupied_offerWaiting s ht) (by simp [State.tables, offerWaiting_keeps ht]) (by simp [offerWaiting_keeps ht])
  rcases orElse_cases ht with ht | ht
  · exact h.of_frame (occupied_congr (by simp [chooseTurn_keeps ht])) (by simp [State.tables, chooseTurn_keeps ht])
      (h.engineOk.chooseTurn ht)
  rcases orElse_cases ht with ht | ht
  · exact h.of_kept (occupied_congr (by simp [reactProof_keeps ht])) (by simp [State.tables, reactProof_keeps ht])
      (by simp [reactProof_keeps ht])
  rcases orElse_cases ht with ht | ht
  · exact h.of_kept (occupied_congr (by simp [reactLamp_keeps ht])) (by simp [State.tables, reactLamp_keeps ht])
      (by simp [reactLamp_keeps ht])
  rcases orElse_cases ht with ht | ht
  · exact h.of_kept (occupied_congr (by simp [reactRun_keeps ht])) (by simp [State.tables, reactRun_keeps ht])
      (by simp [reactRun_keeps ht])
  rcases orElse_cases ht with ht | ht
  · have hocc : t.occupied = s.occupied := by
      obtain ⟨n, -, rfl⟩ := Option.map_eq_some_iff.1 ht
      exact occupied_beginPositioning s n
    exact h.of_kept hocc (by simp [State.tables, reactExchange_keeps ht]) (by simp [reactExchange_keeps ht])
  · exact h.of_kept (occupied_congr (by simp [reactSend_keeps ht])) (by simp [State.tables, reactSend_keeps ht])
      (by simp [reactSend_keeps ht])

theorem TableOk.reactAll (n : Nat) (h : TableOk s) : TableOk (reactAll n s) := by
  induction n generalizing s with
  | zero => exact h
  | succ n ih =>
    simp only [Machine.reactAll]
    split
    · exact h
    · next ht => exact ih (h.react ht)

theorem TableOk.settle (h : TableOk s) (before : State) : TableOk (settle before s) := by
  have h' : TableOk (before.judgeEconomy (Machine.reactAll 100 s)) :=
    (h.reactAll 100).of_mechanism (by simp) (by simp) (by simp) (by simp) (by simp)
  exact h'

/-! ### Every command -/

theorem TableOk.event (h : TableOk s) {i : Instr} {f : State → State} (hv : eventOf i = some f) : TableOk (f s) := by
  have hkept : ∀ {g : State → State}, (g s).occupied = s.occupied → (g s).tables = s.tables → (g s).engine = s.engine →
      TableOk (settledEvent g s) := fun hocc htab heng => (h.of_kept hocc htab heng).settle s
  have hturn : ∀ {g : State → State}, (g s).occupied = s.occupied → (g s).tables = s.tables → EngineOk (g s) →
      TableOk (settledEvent g s) := fun hocc htab heng => (h.of_frame hocc htab heng).settle s
  have hmech : ∀ {g : State → State}, (g s).turret.mechanism = s.turret.mechanism → (g s).jobs = s.jobs →
      (g s).galleyOrder = s.galleyOrder → (g s).languages = s.languages → (g s).engine = s.engine →
      TableOk (settledEvent g s) := fun hm hj hgo hl he => (h.of_mechanism hj hm hgo hl he).settle s
  cases i with
  | powerOnReset r => cases hv; exact ⟨(freshState_powerOnReset r s).galleyOk, (freshState_powerOnReset r s).shapeOk⟩
  | rotationArrival => cases hv; exact hkept (occupied_rotationArrival s) (by simp [State.tables]) (by simp)
  | hatchClosed => cases hv; exact hkept (occupied_hatchClosed s) (by simp [State.tables]) (by simp)
  | stripReadComplete c => cases hv; exact hkept (occupied_stripReadComplete s c) (by simp [State.tables]) (by simp)
  | takeByte => cases hv; exact hturn (occupied_takeByte s) (by simp [State.tables]) h.engineOk.takeByte
  | placeWord => cases hv; exact hturn (occupied_placeWord s) (by simp [State.tables]) h.engineOk.placeWord
  | setLine => cases hv; exact hturn (occupied_setLine s) (by simp [State.tables]) h.engineOk.setLine
  | dispatch => cases hv; exact hmech (mechanism_dispatch s) (by simp) (by simp) (by simp) (by simp)
  | flashComplete x => cases hv; exact hmech (mechanism_flashComplete s x) (by simp) (by simp) (by simp) (by simp)
  | photocellSample x => cases hv; exact hmech (mechanism_takeSample s x) (by simp) (by simp) (by simp) (by simp)
  | ignitionTimerExpiry => cases hv; exact hmech (mechanism_ignitionExpiry s) (by simp) (by simp) (by simp) (by simp)
  | recoveryTimerExpiry => cases hv; exact hmech (mechanism_recoveryExpiry s) (by simp) (by simp) (by simp) (by simp)
  | validityTimerExpiry => cases hv; exact hmech (mechanism_validityExpiry s) (by simp) (by simp) (by simp) (by simp)
  | driveStop x => cases hv; exact hmech (mechanism_driveStop s x) (by simp) (by simp) (by simp) (by simp)
  | filmPresentChange b => cases hv; exact hmech (mechanism_filmPresentChange s b) (by simp) (by simp) (by simp) (by simp)
  | cutterTimeout => cases hv; exact hmech (mechanism_cutterTimeout s) (by simp) (by simp) (by simp) (by simp)
  | coverOpened => cases hv; exact hmech (mechanism_coverOpened s) (by simp) (by simp) (by simp) (by simp)
  | discardQuietTimeout | attnThrottleExpiry | lineExposedDelayExpiry | lineExposedAbsoluteExpiry | indexFound | hatchOpened
  | carriageArrival | coverClosed | xoffReceived | xonReceived | stallTimerExpiry | paperOut | paperPresent =>
    cases hv; exact h.of_kept (occupied_congr (by simp)) (by simp [State.tables]) (by simp)
  | _ => cases hv <;> exact hkept (occupied_congr (by simp)) (by simp [State.tables]) (by simp)

theorem TableOk.setStationProtection (h : TableOk s) (l : List Nat) : TableOk (setStationProtectionEffect l s).1 := by
  simp only [setStationProtectionEffect]
  split
  · exact h
  split
  · exact h
  next hl =>
  simp only [Bool.not_eq_true', Bool.not_eq_false, Bool.and_eq_true, List.all_eq_true, decide_eq_true_eq,
    noRepeats_iff_nodup] at hl
  obtain ⟨hgalley, hst, -, -, hrest⟩ := h
  exact ⟨hgalley, hst, hl.2, fun n hn => Nat.lt_succ_of_le (hl.1 n hn), hrest⟩

theorem TableOk.resetComposition (h : TableOk s) : TableOk (resetCompositionEffect s).1 := by
  obtain ⟨h4, -, -⟩ := h.galleyOk
  have hocc : (resetCompositionEffect s).1.occupied = List.replicate 4 false := by
    obtain ⟨hlen, -⟩ := cleared_keeps s
    rw [resetComposition_eq, ← h4, ← hlen]
    simp [done, State.recomposed, State.occupied, Job.free]
  refine (tableOk_iff _).2 ⟨(galleyOk_iff _).2 ⟨by simp [hocc], ?_, fun n => ?_⟩, ?_, by simpa using ((tableOk_iff s).1 h).2.2⟩
  · rw [resetComposition_eq]; exact List.nodup_nil
  · rw [hocc, getD_replicate_self, resetComposition_eq]
    simp [done, State.recomposed]
  · rw [resetComposition_eq]; exact engineOk_past (n := 3) rfl

theorem defineLanguage_languages (n : Nat) (d : LanguageDef) :
    (defineLanguageEffect n d s).1.languages.length = s.languages.length := by
  simp only [defineLanguageEffect]
  (repeat' split) <;> simp [refuse, done]

theorem TableOk.request (h : TableOk s) {i : Instr} {tag : Byte} {e : Effect} (he : effectOf i = some (tag, e)) :
    TableOk (e s).1 := by
  have hkept : ∀ {g : Effect}, (g s).1.occupied = s.occupied → (g s).1.tables = s.tables → (g s).1.engine = s.engine →
      TableOk (settled g s).1 := fun hocc htab heng => (h.of_kept hocc htab heng).settle s
  cases i with
  | resetComposition tag => cases he; exact h.resetComposition.settle s
  | defineFont tag d => cases he; exact hkept (occupied_defineFont s d) (by simp [State.tables]) (by simp)
  | prepareExchange tag n => cases he; exact hkept (occupied_prepareExchange s n) (by simp [State.tables]) (by simp)
  | cancelExchange tag n => cases he; exact hkept (occupied_cancelExchange s n) (by simp [State.tables]) (by simp)
  | setStationProtection tag l => cases he; exact h.setStationProtection l
  | openJob tag n id p =>
    cases he
    exact (h.of_galley (h.galleyOk.openJob n id p) (by simp) (by simp) (h.engineOk.of_eq (by simp))).settle s
  | sendText tag n text => cases he; exact hkept (occupied_sendText s n text) (by simp [State.tables]) (by simp)
  | closeJob tag n id => cases he; exact hkept (occupied_closeJob s n id) (by simp [State.tables]) (by simp)
  | abortJob tag n id =>
    cases he
    exact (h.of_frame (occupied_abortJob s n id) (by simp [State.tables]) (h.engineOk.abortJob n id)).settle s
  | setLamp tag w f n =>
    cases he
    exact (h.of_mechanism (by simp) (mechanism_setLamp s w f n) (by simp) (by simp) (by simp)).settle s
  | feedAndCut tag =>
    cases he
    exact (h.of_mechanism (by simp) (mechanism_feedAndCut s) (by simp) (by simp) (by simp)).settle s
  | defineLanguage tag n d =>
    cases he
    exact h.of_kept (occupied_congr (by simp)) (by simp [State.tables, defineLanguage_languages]) (by simp)
  | setProof tag enable rate =>
    cases he
    have hset : TableOk (setProofEffect enable rate s).1 :=
      h.of_kept (occupied_congr (by simp)) (by simp [State.tables]) (by simp)
    exact hset.settle s
  | setQueueMarks | holdExposure | releaseExposure | lampOff | loadFilm =>
    cases he; exact hkept (occupied_congr (by simp)) (by simp [State.tables]) (by simp)
  | _ => cases he <;> exact h.of_kept (occupied_congr (by simp)) (by simp [State.tables]) (by simp)

theorem tableOk_kept : Kept TableOk where
  link h _ := h
  request h he := h.request he
  event h hv := h.event hv

end

/-- Settles O56: the slots, the galley order list and the tables are kept by every request's effect, by every event and by what the
link does. -/
theorem everyCommandKeepsTheGalleyOrder : Obligations.EveryCommandKeepsTheGalleyOrder := by
  unfold Obligations.EveryCommandKeepsTheGalleyOrder
  exact fun _ _ _ hg hs hx => tableOk_kept.exec ⟨hg, hs⟩ hx

end Sys2Proof.Machine
end

section
/-! The house lock, and what it bars: the house style, the station protection and the language tables (R37, R54, R55, R92). -/

namespace Sys2Proof.Machine

open Sys2Proof

theorem houseOk_iff (h : HouseStyle) :
    houseOk h = true ↔
      h.spaceFloor ≤ 127 ∧ 1 ≤ h.spaceCeiling ∧ h.spaceCeiling ≤ 127 ∧ h.spaceFloor ≤ h.spaceCeiling ∧ h.letterCeiling ≤ 8 ∧
      2 ≤ h.prefixFloor ∧ h.prefixFloor ≤ 6 ∧ 2 ≤ h.suffixFloor ∧ h.suffixFloor ≤ 6 ∧ 1 ≤ h.ladderCeiling ∧
      h.ladderCeiling ≤ 9 ∧ 50 ≤ h.sizeLow ∧ h.sizeLow ≤ h.sizeHigh ∧ h.sizeHigh ≤ 720 ∧ 900 ≤ h.measureLow ∧
      h.measureLow ≤ h.measureHigh ∧ h.measureHigh ≤ 13500 := by
  simp only [houseOk, Bool.and_eq_true, decide_eq_true_eq, and_assoc]

theorem languageOk_iff (t : LanguageDef) :
    languageOk t = true ↔
      (∀ x ∈ t.letterMap, x ≤ 48) ∧ (∀ v ∈ t.vowels, 1 ≤ v ∧ v ≤ 48) ∧ t.vowels.Nodup ∧ t.rules.length ≤ 48 ∧
      (∀ r ∈ t.rules,
        2 ≤ r.letters.length ∧ r.letters.length ≤ 8 ∧ (∀ x ∈ r.letters, 1 ≤ x ∧ x ≤ 48) ∧ 1 ≤ r.grade ∧ r.grade ≤ 3) ∧
      (t.rules.map fun r => (r.suffix, r.letters)).Nodup := by
  simp only [languageOk, Bool.and_eq_true, decide_eq_true_eq, List.all_eq_true, noRepeats_iff_nodup, and_assoc]

theorem protectionOk_iff (l : List Nat) : (l.all (· ≤ 7) && noRepeats l) = true ↔ (∀ n ∈ l, n ≤ 7) ∧ l.Nodup := by
  simp only [Bool.and_eq_true, List.all_eq_true, decide_eq_true_eq, noRepeats_iff_nodup]

section
variable (s : State)

/-! ### SET HOUSE STYLE -/

theorem setHouseStyle_locked (hl : s.houseLocked = true) (h : HouseStyle) : setHouseStyleEffect h s = refuse .locked s := by
  simp [setHouseStyleEffect, hl]

theorem setHouseStyle_range {h : HouseStyle} (hl : s.houseLocked = false) (hh : houseOk h = false) :
    setHouseStyleEffect h s = refuse .range s := by
  simp [setHouseStyleEffect, hl, hh]

theorem setHouseStyle_done {h : HouseStyle} (hl : s.houseLocked = false) (hh : houseOk h = true) :
    setHouseStyleEffect h s = done { s with house := h } := by
  simp [setHouseStyleEffect, hl, hh]

/-! ### SET STATION PROTECTION -/

theorem setStationProtection_locked (hl : s.houseLocked = true) (l : List Nat) :
    setStationProtectionEffect l s = refuse .locked s := by
  simp [setStationProtectionEffect, hl]

theorem setStationProtection_range {l : List Nat} (hl : s.houseLocked = false) (h : ¬((∀ n ∈ l, n ≤ 7) ∧ l.Nodup)) :
    setStationProtectionEffect l s = refuse .range s := by
  rw [← protectionOk_iff, Bool.not_eq_true] at h
  simp [setStationProtectionEffect, hl, h]

theorem setStationProtection_done {l : List Nat} (hl : s.houseLocked = false) (h : (∀ n ∈ l, n ≤ 7) ∧ l.Nodup) :
    setStationProtectionEffect l s = done { s with turret := { s.turret with protection := l } } := by
  rw [← protectionOk_iff] at h
  simp [setStationProtectionEffect, hl, h, State.onTurret]

/-! ### DEFINE LANGUAGE -/

theorem defineLanguage_locked (hl : s.houseLocked = true) (n : Nat) (t : LanguageDef) :
    defineLanguageEffect n t s = refuse .locked s := by
  simp [defineLanguageEffect, hl]

theorem defineLanguage_range {n : Nat} {t : LanguageDef} (hl : s.houseLocked = false) (h : 3 < n ∨ languageOk t = false) :
    defineLanguageEffect n t s = refuse .range s := by
  have hbad : (decide (n ≤ 3) && languageOk t) = false := by
    rcases h with h | h <;> simp [h]
  simp [defineLanguageEffect, hl, hbad]

theorem defineLanguage_done {n : Nat} {t : LanguageDef} (hl : s.houseLocked = false) (hn : n ≤ 3) (ht : languageOk t = true) :
    defineLanguageEffect n t s = done { s with
      languages := s.languages.set n (some { letterMap := t.letterMap, vowels := t.vowels, rules := t.rules }) } := by
  simp [defineLanguageEffect, hl, hn, ht]

theorem shapeOk_setStationProtection {l : List Nat} (h : l.length < 256) (tag : Byte) :
    (Instr.setStationProtection tag l).shapeOk = true := by
  simpa [Instr.shapeOk, countFits] using h

end

/-- Settles O25: each request has one lemma per answer, and the lock is asked before the ranges. -/
theorem requestsUnderTheHouseLock : Obligations.RequestsUnderTheHouseLock := by
  unfold Obligations.RequestsUnderTheHouseLock
  refine ⟨houseOk_iff, languageOk_iff, fun s tag ha => ⟨?_, fun h => ?_, fun l hlen => ?_, fun n t => ?_⟩⟩
  case refine_1 => exact exec_answered (t := { s with houseLocked := true }) (a := { status := .done }) ha rfl rfl rfl
  case refine_2 =>
    exact ⟨fun hl => exec_refused ha rfl rfl (setHouseStyle_locked s.received hl h),
      fun hl hh => exec_refused ha rfl rfl (setHouseStyle_range s.received hl hh),
      fun hl hh => exec_answered (t := { s with house := h }) ha rfl rfl (setHouseStyle_done s.received hl hh)⟩
  case refine_3 =>
    have hs := shapeOk_setStationProtection hlen tag
    exact ⟨fun hl => exec_refused ha hs rfl (setStationProtection_locked s.received hl l),
      fun hl h => exec_refused ha hs rfl (setStationProtection_range s.received hl h),
      fun hl hr hd => exec_answered (t := { s with turret := { s.turret with protection := l } }) ha hs rfl
        (setStationProtection_done s.received hl ⟨hr, hd⟩)⟩
  case refine_4 =>
    intro i hs
    exact ⟨fun hl => exec_refused ha hs rfl (defineLanguage_locked s.received hl n t),
      fun hl h => exec_refused ha hs rfl (defineLanguage_range s.received hl h),
      fun hl hn ht => exec_answered (t := { s with languages := s.languages.set n (some ⟨t.letterMap, t.vowels, t.rules⟩) })
        ha hs rfl (defineLanguage_done s.received hl hn ht)⟩

end Sys2Proof.Machine
end

section
/-! The hatch's events: HATCH OPENED and HATCH CLOSED (R31, R36). -/

namespace Sys2Proof.Machine

open Sys2Proof

section
variable {s : State}

theorem hatchOpened_marks {n : Nat} (hx : s.turret.exchange = some n) (hst : (s.station n).state = .opened)
    (hl : s.turret.latchEngaged = false) :
    hatchOpenedEffect s = { s with turret := { s.turret with hatchOpen := true, hatchMark := true } } := by
  simp [hatchOpenedEffect, hx, hst, hl, State.onTurret]

theorem hatchOpened_unmarked
    (h : ∀ n, s.turret.exchange = some n → (s.station n).state ≠ .opened ∨ s.turret.latchEngaged = true) :
    hatchOpenedEffect s = { s with turret := { s.turret with hatchOpen := true } } := by
  cases hx : s.turret.exchange with
  | none => simp [hatchOpenedEffect, hx, State.onTurret]
  | some n =>
    have hno : ((s.station n).state == .opened && !s.turret.latchEngaged) = false := by
      rcases h n hx with h | h <;> simp [h]
    simp [hatchOpenedEffect, hx, hno, State.onTurret]

/-- The closure the verification pass waits for (R36). -/
theorem hatchClosed_starts_pass (hp : s.turret.pass = .waitHatch) :
    hatchClosedEffect s =
      { s with turret := { s.turret with hatchOpen := false, latchEngaged := true, pass := .seeking } } := by
  simp [hatchClosedEffect, hp, State.onTurret]

/-- The closure after an opening (R31). -/
theorem hatchClosed_verifies {n : Nat} (hp : s.turret.pass ≠ .waitHatch) (hx : s.turret.exchange = some n)
    (hst : (s.station n).state = .opened) (hm : s.turret.hatchMark = true) :
    hatchClosedEffect s =
      (({ s with turret := { s.turret with hatchOpen := false, latchEngaged := true } } : State).changeStation n fun st =>
        { st with state := .verifying }).beginRead := by
  have hrest : (s.turret.pass == .waitHatch) = false := by simpa using hp
  have hmark : (((s.onTurret fun t => { t with hatchOpen := false }).station n).state == .opened && s.turret.hatchMark) = true := by
    change ((s.station n).state == .opened && s.turret.hatchMark) = true
    simp [hst, hm]
  simp only [hatchClosedEffect, State.onTurret_turret, hrest, hx, hmark, Bool.false_eq_true, if_false, if_true]
  simp only [State.onTurret, hx]

/-- Any other closure is recorded alone. -/
theorem hatchClosed_records (hp : s.turret.pass ≠ .waitHatch)
    (h : ∀ n, s.turret.exchange = some n → (s.station n).state ≠ .opened ∨ s.turret.hatchMark = false) :
    hatchClosedEffect s = { s with turret := { s.turret with hatchOpen := false } } := by
  have hrest : (s.turret.pass == .waitHatch) = false := by simpa using hp
  cases hx : s.turret.exchange with
  | none => simp [hatchClosedEffect, hrest, hx, State.onTurret]
  | some n =>
    have hno : (((s.onTurret fun t => { t with hatchOpen := false }).station n).state == .opened && s.turret.hatchMark) = false := by
      change ((s.station n).state == .opened && s.turret.hatchMark) = false
      rcases h n hx with h | h <;> simp [h]
    simp only [hatchClosedEffect, State.onTurret_turret, hrest, hx, hno, Bool.false_eq_true, if_false]
    simp only [State.onTurret, hx]

end

/-- Settles O19: each event has one lemma per case of the mark, the latch and the pass. -/
theorem hatchEventsMarkAndVerify : Obligations.HatchEventsMarkAndVerify := by
  unfold Obligations.HatchEventsMarkAndVerify
  intro s
  have hopen : exec .hatchOpened s = .next (hatchOpenedEffect s) := rfl
  have hclose : exec .hatchClosed s = .next (settle s (hatchClosedEffect s)) := rfl
  rw [hopen, hclose]
  refine ⟨fun n hx hst hl => ?_, fun h => ?_, fun hp => ?_, fun hp => ⟨fun n hx hst hm => ?_, fun h => ?_⟩⟩
  · rw [hatchOpened_marks hx hst hl]
  · rw [hatchOpened_unmarked h]
  · rw [hatchClosed_starts_pass hp]
  · rw [hatchClosed_verifies hp hx hst hm]
    exact ⟨State.changeStation _ n _, by simp only [State.beginRead, State.onTurret], rfl⟩
  · rw [hatchClosed_records hp h]

end Sys2Proof.Machine
end

section
/-! The turret's rotations: what begins them, and what an arrival does (R20, R26, R27, R29, R30, R34, R36). -/

namespace Sys2Proof.Machine

open Sys2Proof

/-! ### Rotations and selections -/

theorem rotate_eq {t : Turret} (p : Purpose) {target : Nat} (hp : t.position < 8) (ht : target < 8) :
    t.rotate p target = { t with
      motion := .rotating p target
      ascending := decide ((target + 8 - t.position) % 8 ≤ (t.position + 8 - target) % 8) } := by
  have hdir : (target + 8 - t.position) % 8 ≤ 4 ↔ (target + 8 - t.position) % 8 ≤ (t.position + 8 - target) % 8 := by omega
  simp only [Turret.rotate, ascendingTo, hdir]

theorem locked_iff (t : Turret) : t.locked = true ↔ ∃ st ∈ t.stations, st.state = .opened ∨ st.state = .verifying := by
  simp [Turret.locked]

section
variable {s : State} {fl : Flight} {r : Run}

theorem select_rotating {p : Purpose} {k : Nat} (h : s.turret.motion = .rotating p k) : s.select fl r = none := by
  simp [State.select, h]

theorem select_here (hm : s.turret.motion = .atRest) (hp : s.turret.position = r.station) :
    s.select fl r = some { s with expo := { s.expo with state := .selecting, flight := some { fl with selecting := false } } } := by
  simp [State.select, hm, hp, State.onExpo]

theorem select_rotates (hm : s.turret.motion = .atRest) (hp : s.turret.position ≠ r.station) (hl : s.turret.locked = false) :
    s.select fl r = some { s with
      turret := s.turret.rotate .exposure r.station, expo := { s.expo with state := .selecting } } := by
  simp [State.select, hm, hp, hl, State.onExpo, State.onTurret]

theorem select_waits (hm : s.turret.motion = .atRest) (hp : s.turret.position ≠ r.station) (hl : s.turret.locked = true) :
    s.select fl r = if s.expo.state = .waitingTurret then none
      else some { s with expo := { s.expo with state := .waitingTurret } } := by
  simp [State.select, hm, hp, hl, State.onExpo]

/-! ### Exchange positioning -/

theorem positioningDue_iff (s : State) (n : Nat) :
    s.turret.positioningDue = some n ↔
      s.turret.exchange = some n ∧ (s.station n).state = .draining ∧ (s.station n).pins = 0 ∧ (s.station n).claims = 0 ∧
      s.turret.cancelPending = false ∧ s.turret.lineOpen = false ∧ s.turret.motion = .atRest := by
  cases hx : s.turret.exchange with
  | none => simp [Turret.positioningDue, hx]
  | some m =>
    simp only [Turret.positioningDue, hx, Option.ite_none_right_eq_some, Bool.and_eq_true, beq_iff_eq, Bool.not_eq_true',
      Option.some.injEq, State.station]
    constructor
    · rintro ⟨⟨⟨⟨⟨⟨h1, h2⟩, h3⟩, h4⟩, h5⟩, h6⟩, rfl⟩
      exact ⟨rfl, h1, h2, h3, h4, h5, h6⟩
    · rintro ⟨rfl, h1, h2, h3, h4, h5, h6⟩
      exact ⟨⟨⟨⟨⟨⟨h1, h2⟩, h3⟩, h4⟩, h5⟩, h6⟩, rfl⟩

theorem beginPositioning_rotates {n : Nat} (h : s.turret.position ≠ (n + 4) % 8) :
    s.beginPositioning n = { s with turret := s.turret.rotate .exchange ((n + 4) % 8) } := by
  simp [State.beginPositioning, h, State.onTurret]

theorem beginPositioning_releases {n : Nat} (h : s.turret.position = (n + 4) % 8) : s.beginPositioning n = s.releaseHatch n := by
  simp [State.beginPositioning, h]

/-! ### The hatch is released -/

/-- The hatch released, before its station opens. -/
def State.unlatched (s : State) : State := s.onTurret fun t => { t with latchEngaged := false, hatchMark := false }

theorem releaseHatch_of_mounted {n k : Nat} (hp : (s.station n).prior = some .mounted) (hf : (s.station n).font = some k) :
    s.releaseHatch n =
      ((s.unlatched.onFont k fun r => { r with stationPart := r.stationPart - 1 }).raise .hatchReady).changeStation n fun st =>
        { st with state := .opened, font := none } := by
  simp only [State.releaseHatch, hp, hf, State.unlatched]

theorem releaseHatch_of_other {n : Nat} (hp : (s.station n).prior ≠ some .mounted) :
    s.releaseHatch n = (s.unlatched.raise .hatchReady).changeStation n fun st => { st with state := .opened, font := none } := by
  simp only [State.releaseHatch, State.unlatched]
  split
  · next h _ => exact absurd h hp
  · rfl

/-- However the station's record is given up, its hatch is released and the station opened (R30). -/
theorem releaseHatch_opens (s : State) (n : Nat) :
    ∃ v : State, v.turret = { s.turret with latchEngaged := false, hatchMark := false } ∧
      s.releaseHatch n = (v.raise .hatchReady).changeStation n fun st => { st with state := .opened, font := none } := by
  simp only [State.releaseHatch]
  split
  · exact ⟨State.onFont _ _ _, rfl, rfl⟩
  · exact ⟨State.onTurret _ _, rfl, rfl⟩

theorem releaseHatch_station {n : Nat} (hn : n < s.turret.stations.length) :
    (s.releaseHatch n).station n = { s.station n with state := .opened, font := none, changed := true } ∧
    (s.releaseHatch n).turret.latchEngaged = false ∧ (s.releaseHatch n).turret.hatchMark = false ∧
    (s.releaseHatch n).turret.motion = s.turret.motion ∧ (s.releaseHatch n).link.holds .hatchReady = true ∧
    (s.releaseHatch n).link.holds .stationChanged = true := by
  obtain ⟨v, hv, hrel⟩ := releaseHatch_opens s n
  have hlen : n < (v.raise .hatchReady).turret.stations.length := by simpa [hv] using hn
  rw [hrel]
  refine ⟨?_, by simp [hv], by simp [hv], by simp [hv], ?_, ?_⟩
  · rw [State.station, changeStation_turret, station_of_modify _ hlen]
    simp [State.station, hv]
  · exact reaskAll_holds (raise_holds (raise_holds_self v .hatchReady) .stationChanged)
  · exact reaskAll_holds (raise_holds_self _ .stationChanged)

/-! ### Arrivals -/

theorem rotationArrival_atRest (h : s.turret.motion = .atRest) : rotationArrivalEffect s = s := by
  simp [rotationArrivalEffect, h]

theorem rotationArrival_exposure {target : Nat} (h : s.turret.motion = .rotating .exposure target) :
    rotationArrivalEffect s = { s with turret := { s.turret with
      position := target, motion := .atRest, lineOpen := s.turret.lineOpen && !s.turret.lineEndDue, lineEndDue := false } } := by
  simp [rotationArrivalEffect, h, State.onTurret]

/-- The turret at rest at its target. -/
def State.arrivedAt (s : State) (target : Nat) : State :=
  { s with turret := { s.turret with position := target, motion := .atRest } }

theorem rotationArrival_cancelled {target n : Nat} (h : s.turret.motion = .rotating .exchange target)
    (hx : s.turret.exchange = some n) (hc : s.turret.cancelPending = true) :
    rotationArrivalEffect s = (s.arrivedAt target).returnPrior n := by
  simp only [rotationArrivalEffect, h, State.onTurret_turret, hx, hc, if_true]
  rfl

theorem rotationArrival_releases {target n : Nat} (h : s.turret.motion = .rotating .exchange target)
    (hx : s.turret.exchange = some n) (hc : s.turret.cancelPending = false) :
    rotationArrivalEffect s = (s.arrivedAt target).releaseHatch n := by
  simp only [rotationArrivalEffect, h, State.onTurret_turret, hx, hc, Bool.false_eq_true, if_false]
  rfl

theorem rotationArrival_reads {target k : Nat} (h : s.turret.motion = .rotating .verification target)
    (hp : s.turret.pass = .stepping k) (hk : k < 8) :
    rotationArrivalEffect s = { s with turret := { s.turret with position := target, pass := .reading k, read := .first } } := by
  simp [rotationArrivalEffect, h, hp, hk, State.beginRead, State.onTurret]

theorem rotationArrival_home {target k : Nat} (h : s.turret.motion = .rotating .verification target)
    (hp : s.turret.pass = .stepping k) (hk : 8 ≤ k) :
    rotationArrivalEffect s =
      { s with turret := { s.turret with position := target, motion := .atRest, pass := .none } } := by
  simp [rotationArrivalEffect, h, hp, Nat.not_lt.2 hk, State.onTurret]

theorem indexFound_starts (h : s.turret.pass = .seeking) :
    indexFoundEffect s = { s with turret := { s.turret with
      position := 0, motion := .rotating .verification 0, pass := .reading 0, read := .first } } := by
  simp [indexFoundEffect, h, State.beginRead, State.onTurret]

theorem indexFound_ignored (h : s.turret.pass ≠ .seeking) : indexFoundEffect s = s := by
  simp [indexFoundEffect, h]

end

/-- Settles O18: the arrival has one lemma per purpose, a selection one per row of R26, and positioning one per position. -/
theorem rotationArrivalDoesItsPurpose : Obligations.RotationArrivalDoesItsPurpose := by
  unfold Obligations.RotationArrivalDoesItsPurpose
  intro s target
  have harrive : exec .rotationArrival s = .next (settle s (rotationArrivalEffect s)) := rfl
  have hindex : exec .indexFound s = .next (indexFoundEffect s) := rfl
  rw [harrive, hindex]
  refine ⟨fun h => by rw [rotationArrival_atRest h], fun h => by rw [rotationArrival_exposure h], fun n h hx => ?_,
    fun k h hp => ⟨fun hk => by rw [rotationArrival_reads h hp hk], fun hk => by rw [rotationArrival_home h hp hk]⟩,
    fun h => by rw [indexFound_starts h], fun h => by rw [indexFound_ignored h], fun t p hp ht => rotate_eq p hp ht,
    fun fl r => ⟨fun p k => select_rotating, fun hm => ⟨select_here hm, select_rotates hm, select_waits hm⟩⟩,
    locked_iff s.turret, fun n => ⟨positioningDue_iff s n, beginPositioning_rotates, fun hp hn => ?_⟩⟩
  · refine ⟨fun hc => by rw [rotationArrival_cancelled h hx hc]; rfl, fun hc => ?_⟩
    rw [rotationArrival_releases h hx hc]
    exact ⟨fun k hprior hfont => by rw [releaseHatch_of_mounted (s := s.arrivedAt target) hprior hfont]; rfl,
      fun hprior => by rw [releaseHatch_of_other (s := s.arrivedAt target) hprior]; rfl⟩
  · simp only [beginPositioning_releases hp]
    exact releaseHatch_station hn

end Sys2Proof.Machine
end

section
/-! What the closing part does to the link and to the font records: causes join the summary, and counts change (R8, R200). -/

namespace Sys2Proof.Machine

open Sys2Proof

/-- The link but for causes that have joined its summary, and the font records but for their counts. -/
structure Recounted (s t : State) : Prop where
  link : ∃ x, t.link = { s.link with summary := s.link.summary ||| x }
  fonts : SameFonts s t

theorem Recounted.of_eq {s t : State} (hl : t.link = s.link) (hf : t.fonts = s.fonts) : Recounted s t :=
  ⟨⟨0, by simp [hl]⟩, by rw [SameFonts, hf]⟩

theorem Recounted.refl (s : State) : Recounted s s := .of_eq rfl rfl

theorem Recounted.trans {s t u : State} (h : Recounted s t) (h' : Recounted t u) : Recounted s u := by
  obtain ⟨⟨x, hx⟩, hf⟩ := h
  obtain ⟨⟨y, hy⟩, hf'⟩ := h'
  exact ⟨⟨x ||| y, by rw [hy, hx, BitVec.or_assoc]⟩, hf'.trans hf⟩

/-- What comes before leaves the link and the records alone. -/
theorem Recounted.after {s t u : State} (h : Recounted t u) (hl : t.link = s.link) (hf : t.fonts = s.fonts) : Recounted s u :=
  (Recounted.of_eq hl hf).trans h

/-- What follows leaves the link and the records alone. -/
theorem Recounted.then {s t u : State} (h : Recounted s t) (hl : u.link = t.link) (hf : u.fonts = t.fonts) : Recounted s u :=
  h.trans (.of_eq hl hf)

theorem recounted_of_fonts {s t : State} (hl : t.link = s.link) (hf : SameFonts s t) : Recounted s t :=
  ⟨⟨0, by simp [hl]⟩, hf⟩

/-! ### What the relation says of a summary -/

theorem Recounted.but_summary {s t : State} (h : Recounted s t) : { t.link with summary := s.link.summary } = s.link := by
  obtain ⟨⟨x, hx⟩, -⟩ := h
  rw [hx]

theorem Recounted.summary_kept {s t : State} (h : Recounted s t) : s.link.summary &&& t.link.summary = s.link.summary := by
  obtain ⟨⟨x, hx⟩, -⟩ := h
  rw [hx]
  exact BitVec.eq_of_getLsbD_eq fun i _ => by simpa using Or.inl

section
variable (s : State)

/-! ### Causes raised -/

theorem recounted_raise (n : Notice) : Recounted s (s.raise n) := ⟨⟨n.mask, rfl⟩, rfl⟩

theorem recounted_raiseIf (b : Bool) (n : Notice) : Recounted s (s.raiseIf b n) := by
  cases b
  · exact .refl s
  · exact recounted_raise s n

theorem recounted_setStatus (n : Nat) (c : CompStatus) : Recounted s (s.setStatus n c) := by
  have hjob : Recounted s (s.onJob n fun j => { j with status := c }) := .of_eq rfl rfl
  simp only [State.setStatus]
  split
  · exact hjob.trans (recounted_raiseIf _ _ _)
  · exact hjob

theorem recounted_reask (n : Nat) : Recounted s (s.reask n) := by
  simp only [State.reask]
  split
  · split <;> exact recounted_setStatus s n _
  · exact .refl s

theorem recounted_reaskAll : Recounted s s.reaskAll :=
  foldl_invariant (P := Recounted s) (fun t n h => h.trans (recounted_reask t n)) (.refl s) [0, 1, 2, 3]

theorem recounted_changeStation (n : Nat) (f : Station → Station) : Recounted s (s.changeStation n f) := by
  have hstation : Recounted s (s.onStation n fun st => { f st with changed := true }) := .of_eq rfl rfl
  exact (hstation.trans (recounted_raise _ .stationChanged)).trans (recounted_reaskAll _)

theorem recounted_restatus (n : Nat) : Recounted s (s.restatus n) := by
  simp only [State.restatus]
  (repeat' split) <;> first | exact .refl s | exact recounted_setStatus s n _

/-! ### Counts changed -/

theorem recounted_releaseHatch (n : Nat) : Recounted s (s.releaseHatch n) := by
  have hunlatched : Recounted s s.unlatched := .of_eq rfl rfl
  by_cases hmounted : (s.station n).prior = some .mounted ∧ ∃ k, (s.station n).font = some k
  · obtain ⟨hp, k, hf⟩ := hmounted
    rw [releaseHatch_of_mounted hp hf]
    have hcounted : Recounted s (s.unlatched.onFont k fun r => { r with stationPart := r.stationPart - 1 }) :=
      recounted_of_fonts rfl (map_map_of_eq fun r _ => by split <;> rfl)
    exact (hcounted.trans (recounted_raise _ _)).trans (recounted_changeStation _ n _)
  · have hother : s.releaseHatch n =
        (s.unlatched.raise .hatchReady).changeStation n fun st => { st with state := .opened, font := none } := by
      simp only [State.releaseHatch, State.unlatched]
      split
      · next k hp hf => exact absurd ⟨hp, k, hf⟩ hmounted
      · rfl
    rw [hother]
    exact (hunlatched.trans (recounted_raise _ _)).trans (recounted_changeStation _ n _)

theorem recounted_beginPositioning (n : Nat) : Recounted s (s.beginPositioning n) := by
  simp only [State.beginPositioning]
  split
  · exact recounted_releaseHatch s n
  · exact .of_eq rfl rfl

theorem recounted_appendEntry (n : Nat) (b : Body) : Recounted s (s.appendEntry n b) := by
  refine ⟨?_, ?_⟩
  · rw [appendEntry_link]
    split
    · exact (recounted_raise s .queueHigh).link
    · exact (Recounted.refl s).link
  · rw [SameFonts, appendEntry_fonts]
    exact map_map_of_eq fun r _ => by split <;> rfl

theorem recounted_admitted (n : Nat) (b : Body) : Recounted s (s.admitted n b) := by
  have hstep : ∀ u : State, u.link = s.link → u.fonts = s.fonts →
      Recounted s (if (u.job n).status == .stalled .queueFull then (u.setStatus n .ready).restatus n else u) := by
    intro u hl hf
    have hu : Recounted s u := .of_eq hl hf
    split
    · exact (hu.trans (recounted_setStatus u n _)).trans (recounted_restatus _ n)
    · exact hu
  simp only [State.admitted]
  split <;> exact hstep _ (by simp) (by simp)

theorem recounted_exposureDone (k : Nat) (a b : Bool) : Recounted s (s.exposureDone k a b) := by
  have hrelease : ∀ u : State, u.fonts = s.fonts → SameFonts s (u.releaseIfDone k) := by
    intro u hu
    cases h : u.queue.find k with
    | none => rw [releaseIfDone_of_none h, SameFonts, hu]
    | some e =>
      cases hr : e.releasable with
      | false => rw [releaseIfDone_of_kept h hr, SameFonts, hu]
      | true =>
        rw [releaseIfDone_of_releasable h hr, SameFonts, ← hu]
        exact map_map_of_eq fun r _ => by split <;> rfl
  refine recounted_of_fonts (by simp) ?_
  cases h : s.queue.find k with
  | none => rw [exposureDone_of_none h]
  | some e => rw [exposureDone_of_some h]; exact hrelease _ rfl

theorem recounted_freeJob (n : Nat) : Recounted s (s.freeJob n) := by
  have hlink : (s.freeJob n).link = (s.raise .jobDrained).link := by
    simp only [State.freeJob]
    split <;> rfl
  have hfonts : (s.freeJob n).fonts = (s.raise .jobDrained).fonts := by
    simp only [State.freeJob]
    split <;> rfl
  exact (recounted_raise s .jobDrained).then hlink hfonts

/-! ### The lamp's faults -/

theorem recounted_abandon (fl : Flight) (a b : Bool) : Recounted s (s.abandon fl a b) :=
  (recounted_exposureDone s fl.serial true false).trans ((recounted_raise _ .lineSpoiled).after rfl rfl)

theorem recounted_exposureEvent (a b : Bool) : Recounted s (s.exposureEvent a b) := by
  simp only [State.exposureEvent]
  split <;> first | exact .of_eq rfl rfl | exact recounted_abandon s _ a b

theorem recounted_faultLamp (r : LampFault) : Recounted s (s.faultLamp r) :=
  ((recounted_raise _ .lampFault).trans (recounted_exposureEvent _ _ _)).after rfl rfl

theorem recounted_judgeLamp : Recounted s s.judgeLamp := by
  have hweak : ∀ b, Recounted s ((s.onLamp fun l => { l with weak := l.judgeWeak }).raiseIf b .lampWeak) :=
    fun b => (recounted_raiseIf _ b _).after rfl rfl
  simp only [State.judgeLamp]
  split
  · split
    · exact (hweak _).trans (recounted_faultLamp _ _)
    · exact hweak _
  · exact .refl s

theorem recounted_judgeEconomy (before : State) : Recounted s (before.judgeEconomy s) := by
  simp only [State.judgeEconomy]
  split
  · exact .of_eq rfl rfl
  · split
    · exact (recounted_judgeLamp _).after rfl rfl
    · exact .refl s
  · exact .refl s

end

/-! ### The closing part -/

section
variable {s t : State}

theorem recounted_offerWaiting (h : s.offerWaiting = some t) : Recounted s t := by
  obtain ⟨n, -, hn⟩ := List.exists_of_findSome?_eq_some h
  split at hn
  · simp at hn
  · split at hn
    · obtain rfl := Option.some.inj hn
      split
      · exact recounted_appendEntry s n _
      · exact (recounted_appendEntry s n _).trans (recounted_admitted _ n _)
    · simp at hn

theorem recounted_react (h : s.react = some t) : Recounted s t := by
  simp only [State.react] at h
  rcases orElse_cases h with h | h
  · obtain ⟨n, -, rfl⟩ := Option.map_eq_some_iff.1 h
    exact recounted_freeJob s n
  rcases orElse_cases h with h | h
  · exact .of_eq (by simp [reactHeads_keeps h]) (by simp [reactHeads_keeps h])
  rcases orElse_cases h with h | h
  · exact recounted_offerWaiting h
  rcases orElse_cases h with h | h
  · exact .of_eq (by simp [chooseTurn_keeps h]) (by simp [chooseTurn_keeps h])
  rcases orElse_cases h with h | h
  · exact .of_eq (by simp [reactProof_keeps h]) (by simp [reactProof_keeps h])
  rcases orElse_cases h with h | h
  · exact .of_eq (by simp [reactLamp_keeps h]) (by simp [reactLamp_keeps h])
  rcases orElse_cases h with h | h
  · exact .of_eq (by simp [reactRun_keeps h]) (by simp [reactRun_keeps h])
  rcases orElse_cases h with h | h
  · obtain ⟨n, -, rfl⟩ := Option.map_eq_some_iff.1 h
    exact recounted_beginPositioning s n
  · exact .of_eq (by simp [reactSend_keeps h]) (by simp [reactSend_keeps h])

/-- What every reaction leaves, the reactions of a closing part leave. -/
theorem reactAll_invariant {P : State → Prop} (hP : ∀ {u v : State}, u.react = some v → P u → P v) (n : Nat) (h : P s) :
    P (reactAll n s) := by
  induction n generalizing s with
  | zero => exact h
  | succ n ih =>
    simp only [reactAll]
    split
    · exact h
    · next hr => exact ih (hP hr h)

theorem recounted_settle (before s : State) : Recounted s (settle before s) := by
  have hreact : Recounted s (reactAll 100 s) :=
    reactAll_invariant (P := Recounted s) (fun hr h => h.trans (recounted_react hr)) 100 (.refl s)
  have hjudged := hreact.trans (recounted_judgeEconomy _ before)
  exact hjudged.then rfl rfl

end

end Sys2Proof.Machine
end

section
/-! What each reaction of the closing part waits for, and what it does (R26, R44, R50, R66, R68, R132, R134, R135, R144, R145, R148,
R181, R188). -/

namespace Sys2Proof.Machine

open Sys2Proof

section
variable {s : State} {n : Nat}

/-! ### The entries of a job -/

theorem ownedBy_iff {e : Entry} : s.ownedBy n e = true ↔ e.attributed = true ∧ e.slot = n ∧ e.jobId = (s.job n).id := by
  simp [State.ownedBy, and_assoc]

theorem ownedBy_all_iff {p : Entry → Bool} :
    (s.queue.entries.all fun e => !s.ownedBy n e || p e) = true ↔
      ∀ e ∈ s.queue.entries, e.attributed = true ∧ e.slot = n ∧ e.jobId = (s.job n).id → p e = true := by
  simp only [List.all_eq_true, Bool.or_eq_true, Bool.not_eq_true', ← Bool.not_eq_true, ownedBy_iff, imp_iff_not_or]

theorem freeable_iff :
    s.freeable n = true ↔
      (((s.job n).state = .closing ∧ (s.job n).finished = true) ∨ ((s.job n).state = .aborting ∧ (s.job n).markPending = false)) ∧
      ∀ e ∈ s.queue.entries, ¬(e.attributed = true ∧ e.slot = n ∧ e.jobId = (s.job n).id) := by
  simp only [State.freeable, Bool.and_eq_true, Bool.or_eq_true, Bool.not_eq_true', beq_iff_eq, List.any_eq_false, ownedBy_iff]

theorem exposureComplete_iff :
    s.exposureComplete n = true ↔
      (((s.job n).state = .closing ∧ (s.job n).finished = true) ∨ (s.job n).state = .aborting) ∧
      ∀ e ∈ s.queue.entries, e.attributed = true ∧ e.slot = n ∧ e.jobId = (s.job n).id → e.expo = .done := by
  simp only [State.exposureComplete, Bool.and_eq_true, Bool.or_eq_true, beq_iff_eq, ownedBy_all_iff]

theorem proofingComplete_iff :
    s.proofingComplete n = true ↔
      (s.job n).params.policy = .none ∨
      ((((s.job n).state = .closing ∧ (s.job n).finished = true) ∨
          ((s.job n).state = .aborting ∧ (s.job n).markPending = false)) ∧
        ∀ e ∈ s.queue.entries, e.attributed = true ∧ e.slot = n ∧ e.jobId = (s.job n).id → e.proof = .done) := by
  simp only [State.proofingComplete, Bool.and_eq_true, Bool.or_eq_true, Bool.not_eq_true', beq_iff_eq, ownedBy_all_iff]

/-! ### The entries named -/

/-- The oldest entry of a slot that passes a test, by its serial (R135). -/
theorem oldest_iff {p : Entry → Bool} {k : Nat} :
    ((s.queue.entries.find? fun e => s.ownedBy n e && p e).map (·.serial)) = some k ↔
      ∃ older e newer, s.queue.entries = older ++ e :: newer ∧ e.serial = k ∧
        (e.attributed = true ∧ e.slot = n ∧ e.jobId = (s.job n).id) ∧ p e = true ∧
        ∀ x ∈ older, ¬((x.attributed = true ∧ x.slot = n ∧ x.jobId = (s.job n).id) ∧ p x = true) := by
  simp only [Option.map_eq_some_iff, List.find?_eq_some_iff_append, Bool.and_eq_true, Bool.not_eq_true', ← Bool.not_eq_true,
    ownedBy_iff]
  constructor
  · rintro ⟨e, ⟨⟨hmine, hp⟩, older, newer, hsplit, holder⟩, hk⟩
    exact ⟨older, e, newer, hsplit, hk, hmine, hp, holder⟩
  · rintro ⟨older, e, newer, hsplit, hk, hmine, hp, holder⟩
    exact ⟨e, ⟨⟨hmine, hp⟩, older, newer, hsplit, holder⟩, hk⟩

theorem nextForExposure_iff (h : s.exposureHead = some n) (k : Nat) :
    s.nextForExposure = some k ↔
      ∃ older e newer, s.queue.entries = older ++ e :: newer ∧ e.serial = k ∧
        (e.attributed = true ∧ e.slot = n ∧ e.jobId = (s.job n).id) ∧ e.expo = .waiting ∧
        ∀ x ∈ older, ¬((x.attributed = true ∧ x.slot = n ∧ x.jobId = (s.job n).id) ∧ x.expo = .waiting) := by
  simp only [State.nextForExposure, h, Option.bind_some, oldest_iff, beq_iff_eq]

theorem nextForProof_iff (h : s.proofHead = some n) (k : Nat) :
    s.nextForProof = some k ↔
      ∃ older e newer, s.queue.entries = older ++ e :: newer ∧ e.serial = k ∧
        (e.attributed = true ∧ e.slot = n ∧ e.jobId = (s.job n).id) ∧ e.proof = .notTaken ∧
        ∀ x ∈ older, ¬((x.attributed = true ∧ x.slot = n ∧ x.jobId = (s.job n).id) ∧ x.proof = .notTaken) := by
  simp only [State.nextForProof, h, Option.bind_some, oldest_iff, beq_iff_eq]

/-! ### The engine's choice -/

theorem eligible_iff :
    s.eligible n = true ↔
      ((s.job n).state = .active ∨ ((s.job n).state = .closing ∧ (s.job n).finished = false)) ∧ (s.job n).status = .ready ∧
      (s.flowPause = true → (s.job n).line.glyphs ≠ [] ∨ (s.job n).line.ending ≠ none) := by
  have hpause : (!s.flowPause || !(s.job n).line.glyphs.isEmpty || (s.job n).line.ending.isSome) = true ↔
      (s.flowPause = true → (s.job n).line.glyphs ≠ [] ∨ (s.job n).line.ending ≠ none) := by
    simp [← Option.isSome_iff_ne_none, or_assoc, imp_iff_not_or]
  have hcomposing : ((s.job n).composing && !((s.job n).state == .closing && (s.job n).finished)) = true ↔
      (s.job n).state = .active ∨ ((s.job n).state = .closing ∧ (s.job n).finished = false) := by
    cases hs : (s.job n).state <;> simp [Job.composing, hs]
  simp only [State.eligible]
  rw [Bool.and_eq_true, Bool.and_eq_true, hcomposing, hpause, beq_iff_eq, and_assoc]

theorem flowPause_iff :
    s.flowPause = true ↔
      s.queue.highWater = true ∧ ∀ n, s.exposureHead = some n → ∃ e ∈ s.queue.entries, s.ownedBy n e = true := by
  cases h : s.exposureHead <;> simp [State.flowPause, h]

/-- The slots from the pointer on, in the order in which a turn is offered (R66). -/
theorem turnOrder_find_iff {p : Nat → Bool} {pointer n : Nat} :
    ([0, 1, 2, 3].map fun k => (pointer + k) % 4).find? p = some n ↔
      ∃ k, k < 4 ∧ p ((pointer + k) % 4) = true ∧ (∀ m, m < k → p ((pointer + m) % 4) = false) ∧ n = (pointer + k) % 4 := by
  have hrange : [0, 1, 2, 3] = List.range 4 := rfl
  rw [hrange, List.find?_map, Option.map_eq_some_iff]
  simp only [List.find?_range_eq_some, List.mem_range, Function.comp_apply, Bool.not_eq_true']
  constructor
  · rintro ⟨k, ⟨hp, hk, hm⟩, rfl⟩
    exact ⟨k, hk, hp, hm, rfl⟩
  · rintro ⟨k, hk, hp, hm, rfl⟩
    exact ⟨k, ⟨hp, hk, hm⟩, rfl⟩

theorem chooseTurn_iff {u : State} :
    s.chooseTurn = some u ↔
      s.engine.serving = none ∧ ∃ k, k < 4 ∧ s.eligible ((s.engine.pointer + k) % 4) = true ∧
        (∀ m, m < k → s.eligible ((s.engine.pointer + m) % 4) = false) ∧
        u = { s with engine := { s.engine with serving := some ((s.engine.pointer + k) % 4) } } := by
  cases hs : s.engine.serving with
  | some n => simp [State.chooseTurn, hs]
  | none =>
    simp only [State.chooseTurn, hs, Option.map_eq_some_iff, turnOrder_find_iff, true_and]
    constructor
    · rintro ⟨n, ⟨k, hk, hp, hm, rfl⟩, rfl⟩
      exact ⟨k, hk, hp, hm, rfl⟩
    · rintro ⟨k, hk, hp, hm, rfl⟩
      exact ⟨_, ⟨k, hk, hp, hm, rfl⟩, rfl⟩

theorem chooseTurn_none (h : s.chooseTurn = none) (hs : s.engine.serving = none) (hn : n < 4) : s.eligible n = false := by
  simp only [State.chooseTurn, hs, Option.map_eq_none_iff, List.find?_eq_none, List.mem_map, Bool.not_eq_true] at h
  refine h n ⟨(n + 3 * (s.engine.pointer % 4)) % 4, ?_, by omega⟩
  have : (n + 3 * (s.engine.pointer % 4)) % 4 < 4 := Nat.mod_lt _ (by decide)
  simp only [List.mem_cons, List.not_mem_nil, or_false]
  omega

/-! ### Jobs freed, heads, waiting items -/

theorem freeJob_eq (hn : n < s.jobs.length) :
    s.freeJob n =
      (({ s with
        galleyOrder := s.galleyOrder.filter (fun m => m ≠ n)
        dict := if (s.job n).state = .closing then s.dict.filter (fun e => !isJobWord n (s.job n).id e) else s.dict
        film := { s.film with owner := if s.film.owner = .job n (s.job n).id then .ended else s.film.owner }
        jobs := s.jobs.set n { Job.free with
          id := (s.job n).id, lineNumber := (s.job n).lineNumber, consecutive := (s.job n).consecutive
          linesSet := (s.job n).linesSet, hyphenated := (s.job n).hyphenated, looseLines := (s.job n).looseLines
          missingChars := (s.job n).missingChars, ignoredBytes := (s.job n).ignoredBytes
          clampedCodes := (s.job n).clampedCodes } } : State).raise .jobDrained) := by
  have hset : ∀ f : Job → Job, s.jobs.modify n f = s.jobs.set n (f (s.job n)) := fun f => by
    rw [List.modify_eq_set_getElem?, List.getElem?_eq_getElem hn, State.job, List.getD_eq_getElem _ _ hn]; rfl
  have hfilter : s.galleyOrder.filter (· != n) = s.galleyOrder.filter fun m => m ≠ n :=
    List.filter_congr fun m _ => by simp [bne, beq_eq_decide]
  simp only [State.freeJob, State.onJob, State.onFilm, beq_iff_eq]
  split
  · simp only [hset, hfilter, retireWhere_jobs, retireWhere_galleyOrder]; rfl
  · simp only [hset, hfilter]

theorem reactFree_none (h : s.reactFree = none) (hn : n ∈ s.galleyOrder) : s.freeable n = false := by
  simp only [State.reactFree, Option.map_eq_none_iff, List.find?_eq_none, Bool.not_eq_true] at h
  exact h n hn

theorem reactHeads_none (h : s.reactHeads = none) :
    s.exposureHead = s.headForExposure ∧ s.proofHead = s.headForProof ∧ s.expo.named = s.nextForExposure ∧
    s.proof.named = s.nextForProof := by
  simp only [State.reactHeads] at h
  split at h
  · next hsame =>
    simp only [Bool.and_eq_true, beq_iff_eq] at hsame
    obtain ⟨⟨⟨⟨hexpo, hproof⟩, hnamed⟩, -⟩, htaken⟩ := hsame
    have hexpo' : s.headForExposure = s.exposureHead := hexpo
    have hproof' : s.headForProof = s.proofHead := hproof
    refine ⟨hexpo'.symm, hproof'.symm, ?_, ?_⟩
    · rw [← hnamed]; simp only [State.recomputeHeads, hexpo', hproof']; rfl
    · rw [← htaken]; simp only [State.recomputeHeads, hexpo', hproof']; rfl
  · simp at h

/-- What a waiting item that finds room does is a function of the first slot that has one (R132). -/
theorem offerWaiting_eq :
    s.offerWaiting =
      (s.galleyOrder.find? fun n => ((s.job n).waiting.map (s.admits n)).getD false).bind fun n =>
        (s.job n).waiting.map fun b =>
          if (s.job n).markPending then s.appendEntry n b else (s.appendEntry n b).admitted n b := by
  simp only [State.offerWaiting]
  induction s.galleyOrder with
  | nil => rfl
  | cons n rest ih =>
    rw [List.findSome?_cons, List.find?_cons]
    cases hw : (s.job n).waiting with
    | none => simpa using ih
    | some b => cases ha : s.admits n b <;> simp [hw, ha, ih]

theorem offerWaiting_none (h : s.offerWaiting = none) (hn : n ∈ s.galleyOrder) {b : Body} (hb : (s.job n).waiting = some b) :
    s.admits n b = false := by
  simp only [State.offerWaiting, List.findSome?_eq_none_iff] at h
  have hslot := h n hn
  rw [hb] at hslot
  simpa using hslot

/-! ### The lamp, the run and the printer -/

/-- A LINE is named for exposure (R144). -/
def State.lineNamed (s : State) : Bool := ((s.expo.named.bind s.queue.find).map fun e => e.body.kind == .line).getD false

theorem lineNamed_iff : s.lineNamed = true ↔ ∃ e, s.expo.named.bind s.queue.find = some e ∧ e.body.kind = .line := by
  unfold State.lineNamed
  cases s.expo.named.bind s.queue.find <;> simp

theorem reactLamp_of_idle (h : s.expo.state = .idle) :
    s.reactLamp =
      if s.lineNamed && s.film.state == .atRest && s.lamp.state != .ready then
        some { s with expo := { s.expo with state := .waitingLamp } }
      else none := by
  simp only [State.reactLamp, h]; rfl

theorem reactLamp_of_waitingLamp (h : s.expo.state = .waitingLamp) :
    s.reactLamp = if s.lineNamed then none else some { s with expo := { s.expo with state := .idle } } := by
  simp only [State.reactLamp, h]; rfl

theorem reactLamp_of_other (hi : s.expo.state ≠ .idle) (hw : s.expo.state ≠ .waitingLamp) : s.reactLamp = none := by
  simp only [State.reactLamp]

theorem reactLamp_iff {u : State} :
    s.reactLamp = some u ↔
      (s.expo.state = .idle ∧ s.lineNamed = true ∧ s.film.state = .atRest ∧ s.lamp.state ≠ .ready ∧
        u = { s with expo := { s.expo with state := .waitingLamp } }) ∨
      (s.expo.state = .waitingLamp ∧ ¬s.lineNamed = true ∧ u = { s with expo := { s.expo with state := .idle } }) := by
  by_cases hi : s.expo.state = .idle
  · simp [reactLamp_of_idle hi, hi, and_assoc, eq_comm (a := u)]
  · by_cases hw : s.expo.state = .waitingLamp
    · simp [reactLamp_of_waitingLamp hw, hw, eq_comm (a := u)]
    · simp [reactLamp_of_other hi hw, hi, hw]

theorem reactLamp_none (h : s.reactLamp = none) :
    (s.expo.state = .idle → s.lineNamed = true → s.film.state = .atRest → s.lamp.state = .ready) ∧
    (s.expo.state = .waitingLamp → s.lineNamed = true) := by
  have hnone : ∀ u, s.reactLamp ≠ some u := fun u => by simp [h]
  refine ⟨fun hidle hline hrest => by_contra fun hlamp => ?_, fun hwait => by_contra fun hline => ?_⟩
  · exact hnone _ (reactLamp_iff.2 (.inl ⟨hidle, hline, hrest, hlamp, rfl⟩))
  · exact hnone _ (reactLamp_iff.2 (.inr ⟨hwait, hline, rfl⟩))

/-- The states in which a run waits for its lens and its station (R148). -/
theorem reactRun_of_run {fl : Flight} {r : Run} (hst : s.expo.state = .selecting ∨ s.expo.state = .waitingTurret)
    (hfl : s.expo.flight = some fl) (hr : s.flightRun fl = some r) :
    s.reactRun =
      if s.expo.lensFor r.size != s.expo.lensTarget then
        some (s.onExpo fun x => { x with lensTarget := x.lensFor r.size })
      else if fl.selecting then s.select fl r
      else if s.expo.lensTarget.isNone && s.turret.motion == .atRest then
        some (s.onExpo fun x => { x with state := .flashing, carriageTarget := some (s.flightX fl) })
      else none := by
  rcases hst with hst | hst <;> simp only [State.reactRun, hst, hfl, hr]

theorem lensFor_settled {x : Exposure} {size : Nat} (h : x.lensFor size = x.lensTarget) : x.lens = some size ∨ x.lensTarget ≠ none := by
  cases ht : x.lensTarget with
  | some n => simp
  | none =>
    left
    simpa [Exposure.lensFor, ht] using h

theorem reactRun_none {fl : Flight} {r : Run} (h : s.reactRun = none)
    (hst : s.expo.state = .selecting ∨ s.expo.state = .waitingTurret) (hfl : s.expo.flight = some fl)
    (hr : s.flightRun fl = some r) :
    (s.expo.lens = some r.size ∨ s.expo.lensTarget ≠ none) ∧
    (fl.selecting = true → s.select fl r = none) ∧
    (fl.selecting = false → s.expo.lensTarget ≠ none ∨ s.turret.motion ≠ .atRest) := by
  rw [reactRun_of_run hst hfl hr] at h
  split at h
  · simp at h
  · next hlens =>
    refine ⟨lensFor_settled (by simpa using hlens), fun hsel => ?_, fun hsel => ?_⟩
    · rwa [hsel] at h
    · simp only [hsel, Bool.false_eq_true, if_false, Bool.and_eq_true, Option.isNone_iff_eq_none, beq_iff_eq] at h
      split at h
      · simp at h
      · next hbegin => exact Decidable.not_and_iff_not_or_not.1 hbegin

theorem reactProof_none (h : s.reactProof = none) (ht : s.proof.taking = true) (hl : ∀ l ∈ s.proof.list, l.isEntry = false) :
    s.proof.named.bind s.queue.find = none := by
  have hany : s.proof.list.any PrintLine.isEntry = false := by
    rw [List.any_eq_false]; exact fun l hmem => by simp [hl l hmem]
  simpa [State.reactProof, ht, hany] using h

theorem sendNext_fixed {p : Proof} (h : p.sendNext = p) (hflow : p.flowOn = true) (hpaper : p.paperOut = false) (hlist : p.list ≠ []) :
    p.transit ≠ .none := by
  intro ht
  have hbegun : p.sendNext.transit = .counted := by simp [Proof.sendNext, hflow, hpaper, hlist, ht]
  rw [h, ht] at hbegun
  simp at hbegun

theorem reactSend_none (h : s.reactSend = none) : s.proof.sendNext = s.proof := by
  simpa [State.reactSend] using h

end

end Sys2Proof.Machine
end

section
/-! What the closing part of a step leaves as it is, and O6. -/

namespace Sys2Proof.Machine

open Sys2Proof

/-! ### The water marks -/

/-- The water marks (R133). -/
def Queue.marks (q : Queue) : Nat × Nat × Nat × Nat := (q.entryHigh, q.entryLow, q.glyphHigh, q.glyphLow)

theorem marks_eq_iff {p q : Queue} :
    p.marks = q.marks ↔
      p.entryHigh = q.entryHigh ∧ p.entryLow = q.entryLow ∧ p.glyphHigh = q.glyphHigh ∧ p.glyphLow = q.glyphLow := by
  simp only [Queue.marks, Prod.mk.injEq]

section
variable (s : State)

@[simp] theorem marks_releaseIfDone (k : Nat) : (s.releaseIfDone k).queue.marks = s.queue.marks := by simp [Queue.marks]

@[simp] theorem marks_exposureDone (k : Nat) (a b : Bool) : (s.exposureDone k a b).queue.marks = s.queue.marks := by
  cases h : s.queue.find k with
  | none => rw [exposureDone_of_none h]
  | some e => rw [exposureDone_of_some h, marks_releaseIfDone]; rfl

@[simp] theorem marks_abandon (fl : Flight) (a b : Bool) : (s.abandon fl a b).queue.marks = s.queue.marks := by
  simp [State.abandon]

@[simp] theorem marks_exposureEvent (a b : Bool) : (s.exposureEvent a b).queue.marks = s.queue.marks := by
  simp only [State.exposureEvent]; split <;> simp

@[simp] theorem marks_faultLamp (r : LampFault) : (s.faultLamp r).queue.marks = s.queue.marks := by simp [State.faultLamp]

@[simp] theorem marks_judgeLamp : s.judgeLamp.queue.marks = s.queue.marks := by
  simp only [State.judgeLamp]; (repeat' split) <;> simp

@[simp] theorem marks_judgeEconomy (before : State) : (before.judgeEconomy s).queue.marks = s.queue.marks := by
  simp only [State.judgeEconomy]; (repeat' split) <;> simp

end

section
variable {s t : State}

/-! ### What every reaction leaves -/

/-- What the closing part of a step leaves as it is, beside the link and the records. -/
structure Beside (s t : State) : Prop where
  house : t.house = s.house
  houseLocked : t.houseLocked = s.houseLocked
  galleyGap : t.galleyGap = s.galleyGap
  languages : t.languages = s.languages
  dict : t.dict.Sublist s.dict
  film : { t.film with owner := s.film.owner } = s.film
  protection : t.turret.protection = s.turret.protection
  hatchOpen : t.turret.hatchOpen = s.turret.hatchOpen
  read : t.turret.read = s.turret.read
  marks : t.queue.marks = s.queue.marks
  weakLimit : t.lamp.weakLimit = s.lamp.weakLimit
  failLimit : t.lamp.failLimit = s.lamp.failLimit
  index : t.lamp.index = s.lamp.index
  freeCount : t.freeCount = s.freeCount
  pending : t.pending = s.pending

theorem Beside.refl (s : State) : Beside s s := ⟨rfl, rfl, rfl, rfl, .refl _, rfl, rfl, rfl, rfl, rfl, rfl, rfl, rfl, rfl, rfl⟩

theorem Beside.trans {u : State} (h : Beside s t) (h' : Beside t u) : Beside s u where
  house := h'.house.trans h.house
  houseLocked := h'.houseLocked.trans h.houseLocked
  galleyGap := h'.galleyGap.trans h.galleyGap
  languages := h'.languages.trans h.languages
  dict := h'.dict.trans h.dict
  film := by rw [← h.film, ← h'.film]
  protection := h'.protection.trans h.protection
  hatchOpen := h'.hatchOpen.trans h.hatchOpen
  read := h'.read.trans h.read
  marks := h'.marks.trans h.marks
  weakLimit := h'.weakLimit.trans h.weakLimit
  failLimit := h'.failLimit.trans h.failLimit
  index := h'.index.trans h.index
  freeCount := h'.freeCount.trans h.freeCount
  pending := h'.pending.trans h.pending

theorem freeJob_dict (s : State) (n : Nat) : (s.freeJob n).dict.Sublist s.dict := by
  simp only [State.freeJob]
  split
  · exact List.filter_sublist
  · exact .refl _

/-- The dictionary and the water marks under a reaction: the words of the job freed alone leave (R124). -/
theorem react_dict_marks (h : s.react = some t) : t.dict.Sublist s.dict ∧ t.queue.marks = s.queue.marks := by
  have same : t.dict = s.dict ∧ t.queue.marks = s.queue.marks → t.dict.Sublist s.dict ∧ t.queue.marks = s.queue.marks :=
    fun ⟨hd, hm⟩ => ⟨hd ▸ .refl _, hm⟩
  simp only [State.react] at h
  rcases orElse_cases h with h | h
  · obtain ⟨n, -, rfl⟩ := Option.map_eq_some_iff.1 h
    exact ⟨freeJob_dict s n, by simp⟩
  apply same
  rcases orElse_cases h with h | h
  · simp [reactHeads_keeps h]
  rcases orElse_cases h with h | h
  · simp [Queue.marks, offerWaiting_keeps h]
  rcases orElse_cases h with h | h
  · simp [chooseTurn_keeps h]
  rcases orElse_cases h with h | h
  · simp only [State.reactProof] at h
    split at h
    · obtain ⟨e, -, rfl⟩ := Option.map_eq_some_iff.1 h
      exact ⟨rfl, rfl⟩
    · simp at h
  rcases orElse_cases h with h | h
  · simp [reactLamp_keeps h]
  rcases orElse_cases h with h | h
  · simp [reactRun_keeps h]
  rcases orElse_cases h with h | h
  · simp [reactExchange_keeps h]
  · simp [reactSend_keeps h]

theorem beside_react (h : s.react = some t) : Beside s t where
  house := by simp [react_keeps h]
  houseLocked := by simp [react_keeps h]
  galleyGap := by simp [react_keeps h]
  languages := by simp [react_keeps h]
  dict := (react_dict_marks h).1
  film := by simp [react_keeps h]
  protection := by simp [react_keeps h]
  hatchOpen := by simp [react_keeps h]
  read := by simp [react_keeps h]
  marks := (react_dict_marks h).2
  weakLimit := by simp [react_keeps h]
  failLimit := by simp [react_keeps h]
  index := by simp [react_keeps h]
  freeCount := by simp [react_keeps h]
  pending := by simp [react_keeps h]

theorem beside_judgeEconomy (before s : State) : Beside s (before.judgeEconomy s) := by
  obtain ⟨-, -, hprotection, hhatch, hread, -⟩ := mechanism_fields (mechanism_judgeEconomy s before)
  exact
    { house := by simp, houseLocked := by simp, galleyGap := by simp, languages := by simp
      dict := by simp, film := by simp
      protection := hprotection, hatchOpen := hhatch, read := hread
      marks := marks_judgeEconomy s before
      weakLimit := by simp, failLimit := by simp, index := by simp, freeCount := by simp, pending := by simp }

theorem beside_onProof (s : State) (f : Proof → Proof) : Beside s (s.onProof f) :=
  ⟨rfl, rfl, rfl, rfl, .refl _, rfl, rfl, rfl, rfl, rfl, rfl, rfl, rfl, rfl, rfl⟩

theorem beside_settle (before s : State) : Beside s (settle before s) := by
  have hreact : Beside s (reactAll 100 s) :=
    reactAll_invariant (P := Beside s) (fun hr h => h.trans (beside_react hr)) 100 (.refl s)
  exact (hreact.trans (beside_judgeEconomy before _)).trans (beside_onProof _ _)

/-! ### Idle and waiting for the lamp -/

theorem waitsOrIdle_react (h : s.react = some t) (hs : s.expo.state = .idle ∨ s.expo.state = .waitingLamp) :
    t.expo.state = .idle ∨ t.expo.state = .waitingLamp := by
  have same : t.expo.state = s.expo.state → t.expo.state = .idle ∨ t.expo.state = .waitingLamp := fun he => by rwa [he]
  simp only [State.react] at h
  rcases orElse_cases h with h | h
  · exact same (by simp [reactFree_keeps h])
  rcases orElse_cases h with h | h
  · exact same (by simp [reactHeads_keeps h])
  rcases orElse_cases h with h | h
  · exact same (by simp [offerWaiting_keeps h])
  rcases orElse_cases h with h | h
  · exact same (by simp [chooseTurn_keeps h])
  rcases orElse_cases h with h | h
  · exact same (by simp [reactProof_keeps h])
  rcases orElse_cases h with h | h
  · rcases reactLamp_iff.1 h with ⟨-, -, -, -, rfl⟩ | ⟨-, -, rfl⟩
    · exact .inr rfl
    · exact .inl rfl
  rcases orElse_cases h with h | h
  · rcases hs with hs | hs <;> simp [State.reactRun, hs] at h
  rcases orElse_cases h with h | h
  · exact same (by simp [reactExchange_keeps h])
  · exact same (by simp [reactSend_keeps h])

/-! ### Nothing is left due -/

/-- What holds of a state in which no reaction is due. -/
theorem nothingDue (h : t.react = none) :
    (∀ n ∈ t.galleyOrder, t.freeable n = false) ∧
    t.exposureHead = t.headForExposure ∧ t.proofHead = t.headForProof ∧
    t.expo.named = t.nextForExposure ∧ t.proof.named = t.nextForProof ∧
    (∀ n ∈ t.galleyOrder, ∀ b, (t.job n).waiting = some b → t.admits n b = false) ∧
    (t.engine.serving = none → ∀ n, n < 4 → t.eligible n = false) ∧
    (t.proof.taking = true → (∀ l ∈ t.proof.list, l.isEntry = false) → t.proof.named.bind t.queue.find = none) ∧
    t.turret.positioningDue = none ∧
    (t.proof.flowOn = true → t.proof.paperOut = false → t.proof.list ≠ [] → t.proof.transit ≠ .none) ∧
    ((t.expo.state = .idle → t.lineNamed = true → t.film.state = .atRest → t.lamp.state = .ready) ∧
      (t.expo.state = .waitingLamp → t.lineNamed = true)) := by
  obtain ⟨hfree, hheads, hwaiting, hturn, hproof, hlamp, -, hexchange, hsend⟩ := react_none h
  obtain ⟨hexpo, hproofHead, hnamed, htaken⟩ := reactHeads_none hheads
  exact ⟨fun _ hn => reactFree_none hfree hn, hexpo, hproofHead, hnamed, htaken,
    fun _ hn _ hb => offerWaiting_none hwaiting hn hb, fun hs _ hn => chooseTurn_none hturn hs hn, reactProof_none hproof,
    Option.map_eq_none_iff.1 hexchange, sendNext_fixed (reactSend_none hsend), reactLamp_none hlamp⟩

/-- Settles O6: a closing part ends with no reaction due, which is what each of them waits for, and every reaction, like the lamp's
judgement after them, stays within the frame. -/
theorem closingPartFrame : Obligations.ClosingPartFrame := by
  intro before s
  have hrecounted := recounted_settle before s
  have hbeside := beside_settle before s
  obtain ⟨hentryHigh, hentryLow, hglyphHigh, hglyphLow⟩ := marks_eq_iff.1 hbeside.marks
  refine ⟨fun hjobs => ?_, fun n hn => ⟨freeable_iff, freeJob_eq hn⟩,
    fun n => ⟨exposureComplete_iff, proofingComplete_iff, nextForExposure_iff, nextForProof_iff, eligible_iff⟩,
    fun h => by simp [State.nextForExposure, h], fun h => by simp [State.nextForProof, h], fun _ => chooseTurn_iff,
    fun _ => ?_, flowPause_iff, offerWaiting_eq, hrecounted.but_summary, hrecounted.summary_kept, hrecounted.fonts,
    hbeside.house, hbeside.houseLocked, hbeside.galleyGap, hbeside.languages, hbeside.dict, hbeside.film, hbeside.protection,
    hbeside.hatchOpen, hbeside.read, hentryHigh, hentryLow, hglyphHigh, hglyphLow, hbeside.weakLimit, hbeside.failLimit,
    hbeside.index, hbeside.freeCount, hbeside.pending⟩
  · have hnone := reactAll_settles hjobs
    obtain ⟨hfree, hexpo, hproof, hnamed, htaken, hwaiting, hturn, htake, hexchange, hsend, hlamp⟩ := nothingDue hnone
    obtain ⟨-, -, -, -, -, -, hrun, -, -⟩ := react_none hnone
    simp only [lineNamed_iff] at hlamp
    exact ⟨hfree, hexpo, hproof, hnamed, htaken, hwaiting, hturn, htake, hexchange, hsend, hlamp,
      reactAll_invariant (P := fun u => u.expo.state = .idle ∨ u.expo.state = .waitingLamp) waitsOrIdle_react 100,
      fun fl r hst hfl hr => reactRun_none hrun hst hfl hr, rfl⟩
  · simp only [← lineNamed_iff]
    exact reactLamp_iff

end

end Sys2Proof.Machine
end

section
/-! The end of a flash: its sample, the next glyph, the next run, the end of the line (R148, R149, R151, R152, R157, R203), and O40. -/

namespace Sys2Proof.Machine

open Sys2Proof

section
variable {s t : State} {fl : Flight} {b : LineBody} {r : Run}

/-! ### The sample of a flash -/

theorem judgeLamp_kept (h : s.lamp.state = .ready) (hl : s.lamp.failLimit ≤ s.lamp.index) :
    s.judgeLamp = ({ s with lamp := { s.lamp with weak := s.lamp.judgeWeak } } : State).raiseIf
      (!s.lamp.weak && s.lamp.judgeWeak) .lampWeak := by
  have hfail : ¬s.lamp.index < s.lamp.failLimit := Nat.not_lt.2 hl
  simp [State.judgeLamp, h, hfail, State.onLamp]

theorem judgeLamp_fails (h : s.lamp.state = .ready) (hl : s.lamp.index < s.lamp.failLimit) :
    s.judgeLamp = (({ s with lamp := { s.lamp with weak := s.lamp.judgeWeak } } : State).raiseIf
      (!s.lamp.weak && s.lamp.judgeWeak) .lampWeak).faultLamp .output := by
  simp [State.judgeLamp, h, hl, State.onLamp]

theorem takeSample_valid {sample : Nat} (h : s.lamp.state = .ready) (hv : 1 ≤ sample ∧ sample ≤ 4094) :
    s.takeSample sample = (s.onLamp fun l => { l with index := foldIndex l.index sample, invalid := 0 }).judgeLamp := by
  simp [State.takeSample, h, hv]

theorem takeSample_invalid {sample : Nat} (h : s.lamp.state = .ready) (hv : ¬(1 ≤ sample ∧ sample ≤ 4094)) :
    s.takeSample sample =
      let t := s.onLamp fun l => { l with invalid := min 3 (l.invalid + 1) }
      if 3 ≤ t.lamp.invalid then t.faultLamp .sensor else t := by
  have hv' : (decide (1 ≤ sample) && decide (sample ≤ 4094)) = false := by simpa using hv
  simp [State.takeSample, h, hv']

/-- A sample that leaves a READY lamp READY is valid and folds to the fail limit or above, or is at most the second invalid one
running (R157, R158). -/
theorem takeSample_ready {sample : Nat} (h : s.lamp.state = .ready)
    (hkept : (1 ≤ sample ∧ sample ≤ 4094) ∧ s.lamp.failLimit ≤ (7 * s.lamp.index + sample + 4) / 8 ∨
      ¬(1 ≤ sample ∧ sample ≤ 4094) ∧ s.lamp.invalid < 2) :
    ∃ (l : Lamp) (weaker : Bool), s.takeSample sample = ({ s with lamp := l } : State).raiseIf weaker .lampWeak ∧
      l.state = .ready ∧
      (1 ≤ sample ∧ sample ≤ 4094 → l.index = (7 * s.lamp.index + sample + 4) / 8 ∧ l.invalid = 0) ∧
      (¬(1 ≤ sample ∧ sample ≤ 4094) → l = { s.lamp with invalid := s.lamp.invalid + 1 }) := by
  rcases hkept with ⟨hvalid, hlimit⟩ | ⟨hvalid, hfew⟩
  · rw [takeSample_valid h hvalid]
    exact ⟨_, _, judgeLamp_kept h hlimit, h, fun _ => ⟨rfl, rfl⟩, fun hn => absurd hvalid hn⟩
  · have hmin : min 3 (s.lamp.invalid + 1) = s.lamp.invalid + 1 := by omega
    have hthird : ¬3 ≤ s.lamp.invalid + 1 := by omega
    refine ⟨{ s.lamp with invalid := s.lamp.invalid + 1 }, false, ?_, h, fun hv => absurd hv hvalid, fun _ => rfl⟩
    simp [takeSample_invalid h hvalid, hmin, hthird, State.onLamp, State.raiseIf]

/-- A sample that faults a READY lamp is valid and folds below the fail limit, or is the third invalid one running (R157, R158). -/
theorem takeSample_faults {sample : Nat} (h : s.lamp.state = .ready)
    (hfault : (1 ≤ sample ∧ sample ≤ 4094) ∧ (7 * s.lamp.index + sample + 4) / 8 < s.lamp.failLimit ∨
      ¬(1 ≤ sample ∧ sample ≤ 4094) ∧ 2 ≤ s.lamp.invalid) :
    ∃ (l : Lamp) (weaker : Bool) (why : LampFault),
      s.takeSample sample = (({ s with lamp := l } : State).raiseIf weaker .lampWeak).faultLamp why ∧
      (1 ≤ sample ∧ sample ≤ 4094 →
        why = .output ∧ l.index = (7 * s.lamp.index + sample + 4) / 8 ∧ l.invalid = 0) ∧
      (¬(1 ≤ sample ∧ sample ≤ 4094) → why = .sensor ∧ l.index = s.lamp.index ∧ l.invalid = 3) := by
  rcases hfault with ⟨hvalid, hlimit⟩ | ⟨hvalid, hmany⟩
  · rw [takeSample_valid h hvalid]
    exact ⟨_, _, _, judgeLamp_fails h hlimit, fun _ => ⟨rfl, rfl, rfl⟩, fun hn => absurd hvalid hn⟩
  · have hmin : min 3 (s.lamp.invalid + 1) = 3 := by omega
    refine ⟨{ s.lamp with invalid := 3 }, false, .sensor, ?_, fun hv => absurd hv hvalid, fun _ => ⟨rfl, rfl, rfl⟩⟩
    simp [takeSample_invalid h hvalid, hmin, State.onLamp, State.raiseIf]

/-! ### What follows a flash -/

theorem flightLine_congr (h : t.queue = s.queue) (fl : Flight) : t.flightLine fl = s.flightLine fl := by
  simp only [State.flightLine, h]

theorem flightX_congr (h : t.queue = s.queue) (fl : Flight) : t.flightX fl = s.flightX fl := by
  simp only [State.flightX, flightLine_congr h]

theorem flightX_of_line (h : s.flightLine fl = some b) :
    s.flightX fl = ((b.glyphs[((b.runs.take fl.run).map Run.count).sum + fl.glyph]?).map Prod.snd).getD 0 := by
  simp only [State.flightX, h]

theorem nextGlyph_glyph (hb : s.flightLine fl = some b) (hr : b.runs[fl.run]? = some r) (hg : fl.glyph + 1 < r.count) :
    s.nextGlyph fl = s.onExpo fun x =>
      { x with
        flight := some { fl with glyph := fl.glyph + 1 }, carriageTarget := some (s.flightX { fl with glyph := fl.glyph + 1 }) } := by
  simp [State.nextGlyph, hb, hr, hg]

theorem nextGlyph_run {r' : Run} (hb : s.flightLine fl = some b) (hr : b.runs[fl.run]? = some r) (hg : ¬fl.glyph + 1 < r.count)
    (hnext : b.runs[fl.run + 1]? = some r') :
    s.nextGlyph fl = s.startRun { fl with run := fl.run + 1, glyph := 0 } := by
  obtain ⟨hlt, -⟩ := List.getElem?_eq_some_iff.1 hnext
  simp [State.nextGlyph, hb, hr, hg, hlt]

theorem nextGlyph_done (hb : s.flightLine fl = some b) (hr : b.runs[fl.run]? = some r) (hg : ¬fl.glyph + 1 < r.count)
    (hnext : b.runs[fl.run + 1]? = none) :
    s.nextGlyph fl = s.lineDone fl := by
  have hlast : ¬fl.run + 1 < b.runs.length := Nat.not_lt.2 (List.getElem?_eq_none_iff.1 hnext)
  simp [State.nextGlyph, hb, hr, hg, hlast]

theorem lensFor_eq (x : Exposure) (size : Nat) :
    x.lensFor size = if x.lensTarget ≠ none then x.lensTarget else if x.lens = some size then none else some size := by
  cases h : x.lensTarget <;> simp [Exposure.lensFor, h]

theorem startRun_of_run (hr : s.flightRun fl = some r) :
    s.startRun fl = { s with
      expo := { s.expo with
        state := .selecting
        flight := some { fl with selecting := !decide (s.turret.motion = .atRest ∧ s.turret.position = r.station) }
        lensTarget := if s.expo.lensTarget ≠ none then s.expo.lensTarget
          else if s.expo.lens = some r.size then none else some r.size } } := by
  have hhere : (s.turret.motion == .atRest && s.turret.position == r.station) =
      decide (s.turret.motion = .atRest ∧ s.turret.position = r.station) := by
    rw [Bool.decide_and]; simp only [beq_eq_decide]
  simp only [State.startRun, hr, State.onExpo, hhere, lensFor_eq]

/-! ### The entry whose exposure is reported -/

theorem releaseIfDone_entries (s : State) (k : Nat) : ∀ e ∈ (s.releaseIfDone k).queue.entries, e ∈ s.queue.entries := by
  intro e he
  cases h : s.queue.find k with
  | none => rwa [releaseIfDone_of_none h] at he
  | some e' =>
    cases hr : e'.releasable with
    | false => rwa [releaseIfDone_of_kept h hr] at he
    | true =>
      rw [releaseIfDone_of_releasable h hr] at he
      exact (List.mem_filter.1 he).1

/-- What stays in the queue under the serial reported done is an entry so reported (R136). -/
theorem exposureDone_exposed {k : Nat} {spoiled clamped : Bool} {e : Entry}
    (he : e ∈ (s.exposureDone k spoiled clamped).queue.entries) (hk : e.serial = k) :
    ∃ e₀ : Entry, e = e₀.exposed spoiled clamped := by
  cases h : s.queue.find k with
  | none =>
    rw [exposureDone_of_none h] at he
    exact absurd hk (by simpa using List.find?_eq_none.1 h e he)
  | some e' =>
    obtain ⟨-, hserial⟩ := mem_of_queue_find h
    rw [exposureDone_of_some h] at he
    have hmem : e ∈ (s.queue.modify e'.serial (Entry.exposed spoiled clamped)).entries := releaseIfDone_entries _ _ e he
    obtain ⟨e₀, -, rfl⟩ := List.mem_map.1 hmem
    split at hk
    · next hsame => exact ⟨e₀, if_pos hsame⟩
    · next hother => exact absurd (hk.trans hserial.symm) (by simpa using hother)

theorem exposed_spoiled {clamped : Bool} {e : Entry} {l : LineBody} (h : (e.exposed true clamped).body = .line l) :
    LineFlag.spoiled ∈ l.flags := by
  cases hb : e.body <;> simp [exposed_eq, hb] at h
  simp [← h]

/-! ### A line done, a line abandoned -/

/-- The line-open condition stays while the EXPOSURE rotation is under way (R27). -/
theorem lineEnd_lineOpen (u : Turret) :
    u.lineEnd.lineOpen = match u.motion with | .rotating .exposure _ => u.lineOpen | _ => false := by
  simp only [Turret.lineEnd]
  split <;> simp_all

theorem lineEnd_lineOpen_congr {t u : Turret} (hm : t.motion = u.motion) (ho : t.lineOpen = u.lineOpen) :
    t.lineEnd.lineOpen = u.lineEnd.lineOpen := by
  simp only [lineEnd_lineOpen, hm, ho]

theorem lineExposedDelay_congr (hd : t.link.delayMs = s.link.delayMs) (hl : t.link.limitMs = s.link.limitMs)
    (ha : t.link.absTimer = s.link.absTimer) :
    t.lineExposedDelay.link.delayTimer = s.lineExposedDelay.link.delayTimer ∧
    t.lineExposedDelay.link.absTimer = s.lineExposedDelay.link.absTimer := by
  simp only [State.lineExposedDelay, hd, hl]
  split
  · exact ⟨rfl, rfl⟩
  · simp [State.onLink, hd, hl, ha]

theorem lineExposedDelay_holds (h : s.link.delayMs = 0 ∨ s.link.limitMs = 0) :
    s.lineExposedDelay.link.holds .lineExposed = true := by
  have hnow : (s.link.delayMs == 0 || s.link.limitMs == 0) = true := by simpa using h
  simp only [State.lineExposedDelay, hnow, if_true]
  exact raise_holds_self _ _

theorem cleanEnd_holds {n : Notice} (h : s.link.holds n = true) : s.cleanEnd.link.holds n = true := by
  simp only [State.cleanEnd]
  split
  · exact raise_holds h .held
  · exact h

theorem cleanEnd_held (h : s.expo.holdRequest = true) : s.cleanEnd.link.holds .held = true := by
  simp only [State.cleanEnd, State.onExpo_expo, h, if_true]
  exact raise_holds_self _ _

theorem cleanEnd_expo (s : State) :
    s.cleanEnd.expo = { s.expo with
      flight := none, holdRequest := false, state := if s.expo.holdRequest then .held else .idle } := by
  cases h : s.expo.holdRequest <;> simp [State.cleanEnd, State.onExpo, State.raise, State.onLink, h]

end

end Sys2Proof.Machine
end

section
/-! O40: FLASH COMPLETE goes on or ends the line (R148, R149, R151, R152, R157, R203). -/

namespace Sys2Proof.Machine

open Sys2Proof

section
variable {s u : State} {fl : Flight} {b : LineBody} {r : Run} {sample : Nat}

/-! ### The state in which what follows the flash is judged -/

/-- The flash has ended and its sample been taken: the lamp and the causes in the summary have changed alone. -/
structure Flashed (s u : State) : Prop where
  expo : u.expo = { s.expo with flashing := false }
  queue : u.queue = s.queue
  turret : u.turret = s.turret
  film : u.film = s.film
  jobs : u.jobs = s.jobs
  delayMs : u.link.delayMs = s.link.delayMs
  limitMs : u.link.limitMs = s.link.limitMs
  delayTimer : u.link.delayTimer = s.link.delayTimer
  absTimer : u.link.absTimer = s.link.absTimer

/-- The flash has ended (R149). -/
def State.flashEnded (s : State) : State := s.onExpo fun x => { x with flashing := false }

@[simp] theorem flashEnded_lamp (s : State) : s.flashEnded.lamp = s.lamp := rfl

theorem flashed_sampled (s : State) (l : Lamp) (weaker : Bool) :
    Flashed s (({ s.flashEnded with lamp := l } : State).raiseIf weaker .lampWeak) := by
  constructor <;> simp [State.flashEnded]

/-- The lamp in FAULT (R158). -/
def Lamp.faulted (why : LampFault) (l : Lamp) : Lamp :=
  { l with state := .fault why, ignitionTimer := false, economyTimer := none, recoveryTimer := false, validityTimer := false }

@[simp] theorem faulted_index (why : LampFault) (l : Lamp) : (l.faulted why).index = l.index := rfl
@[simp] theorem faulted_invalid (why : LampFault) (l : Lamp) : (l.faulted why).invalid = l.invalid := rfl

theorem faultLamp_flashing {why : LampFault} (hst : s.expo.state = .flashing) (hfl : s.expo.flight = some fl) :
    s.faultLamp why = ((s.onLamp (Lamp.faulted why)).raise .lampFault).abandon fl false true := by
  simp [State.faultLamp, State.exposureEvent, hst, hfl, State.onLamp, Lamp.faulted]

theorem flashComplete_eq (h : s.expo.flashing = true) (ht : s.flashEnded.takeSample sample = u) (hfl : u.expo.flight = some fl)
    (hst : u.expo.state = .flashing) :
    flashCompleteEffect sample s = u.nextGlyph fl := by
  have ht' : (s.onExpo fun x => { x with flashing := false }).takeSample sample = u := ht
  simp [flashCompleteEffect, h, ht', hfl, hst]

theorem flashComplete_ended (h : s.expo.flashing = true) (ht : s.flashEnded.takeSample sample = u) (hfl : u.expo.flight = none) :
    flashCompleteEffect sample s = u := by
  have ht' : (s.onExpo fun x => { x with flashing := false }).takeSample sample = u := ht
  simp [flashCompleteEffect, h, ht', hfl]

theorem Flashed.fault (h : Flashed s u) (f : Lamp → Lamp) : Flashed s ((u.onLamp f).raise .lampFault) := by
  obtain ⟨hexpo, hqueue, hturret, hfilm, hjobs, hdelay, hlimit, hdt, hat⟩ := h
  exact ⟨hexpo, hqueue, hturret, hfilm, hjobs, hdelay, hlimit, hdt, hat⟩

/-- With the lamp left READY, the glyph reached advances (R149). -/
theorem flashComplete_advances (hflash : s.expo.flashing = true) (hst : s.expo.state = .flashing)
    (hfl : s.expo.flight = some fl) (hlamp : s.lamp.state = .ready)
    (hkept : (1 ≤ sample ∧ sample ≤ 4094) ∧ s.lamp.failLimit ≤ (7 * s.lamp.index + sample + 4) / 8 ∨
      ¬(1 ≤ sample ∧ sample ≤ 4094) ∧ s.lamp.invalid < 2) :
    ∃ u, flashCompleteEffect sample s = u.nextGlyph fl ∧ Flashed s u ∧ u.lamp.state = .ready ∧
      (1 ≤ sample ∧ sample ≤ 4094 → u.lamp.index = (7 * s.lamp.index + sample + 4) / 8 ∧ u.lamp.invalid = 0) ∧
      (¬(1 ≤ sample ∧ sample ≤ 4094) → u.lamp = { s.lamp with invalid := s.lamp.invalid + 1 }) := by
  obtain ⟨l, weaker, htaken, hready, hvalid, hinvalid⟩ :=
    takeSample_ready (s := s.flashEnded) hlamp hkept
  have hu := flashed_sampled s l weaker
  exact ⟨_, flashComplete_eq hflash htaken (by rw [hu.expo]; exact hfl) (by rw [hu.expo]; exact hst), hu, by simpa using hready,
    by simpa using hvalid, by simpa using hinvalid⟩

/-- With the lamp put in FAULT, the line is abandoned for it (R152). -/
theorem flashComplete_abandons (hflash : s.expo.flashing = true) (hst : s.expo.state = .flashing)
    (hfl : s.expo.flight = some fl) (hlamp : s.lamp.state = .ready)
    (hfault : (1 ≤ sample ∧ sample ≤ 4094) ∧ (7 * s.lamp.index + sample + 4) / 8 < s.lamp.failLimit ∨
      ¬(1 ≤ sample ∧ sample ≤ 4094) ∧ 2 ≤ s.lamp.invalid) :
    ∃ u, flashCompleteEffect sample s = u.abandon fl false true ∧ Flashed s u ∧ u.link.holds .lampFault = true ∧
      (1 ≤ sample ∧ sample ≤ 4094 →
        u.lamp.state = .fault .output ∧ u.lamp.index = (7 * s.lamp.index + sample + 4) / 8 ∧ u.lamp.invalid = 0) ∧
      (¬(1 ≤ sample ∧ sample ≤ 4094) →
        u.lamp.state = .fault .sensor ∧ u.lamp.index = s.lamp.index ∧ u.lamp.invalid = 3) := by
  obtain ⟨l, weaker, why, htaken, hvalid, hinvalid⟩ :=
    takeSample_faults (s := s.flashEnded) hlamp hfault
  have hu := flashed_sampled s l weaker
  rw [faultLamp_flashing (by rw [hu.expo]; exact hst) (by rw [hu.expo]; exact hfl)] at htaken
  refine ⟨_, flashComplete_ended hflash htaken rfl, hu.fault _, raise_holds_self _ _, fun hv => ?_, fun hv => ?_⟩
  · obtain ⟨rfl, hindex, hcount⟩ := hvalid hv
    exact ⟨rfl, by simpa using hindex, by simpa using hcount⟩
  · obtain ⟨rfl, hindex, hcount⟩ := hinvalid hv
    exact ⟨rfl, by simpa using hindex, by simpa using hcount⟩

/-! ### A line done -/

theorem lineDone_entries {e : Entry} (he : e ∈ (s.lineDone fl).queue.entries) (hk : e.serial = fl.serial) : e.expo = .done := by
  have hmem : e ∈ (s.exposureDone fl.serial false false).queue.entries := by simpa [State.lineDone] using he
  obtain ⟨e₀, rfl⟩ := exposureDone_exposed hmem hk
  rfl

theorem lineDone_timers (h : Flashed s u) :
    (u.lineDone fl).link.delayTimer = s.lineExposedDelay.link.delayTimer ∧
    (u.lineDone fl).link.absTimer = s.lineExposedDelay.link.absTimer := by
  simp only [State.lineDone, cleanEnd_keeps]
  exact lineExposedDelay_congr (by simp [h.delayMs]) (by simp [h.limitMs]) (by simp [h.absTimer])

theorem lineDone_lineExposed (h : u.link.delayMs = 0 ∨ u.link.limitMs = 0) : (u.lineDone fl).link.holds .lineExposed = true :=
  cleanEnd_holds (lineExposedDelay_holds (by simpa using h))

theorem lineDone_held (h : u.expo.holdRequest = true) : (u.lineDone fl).link.holds .held = true :=
  cleanEnd_held (by simpa using h)

theorem lineDone_expo (u : State) (fl : Flight) :
    (u.lineDone fl).expo = { u.expo with
      flight := none, holdRequest := false, state := if u.expo.holdRequest then .held else .idle
      carriage := 0, carriageTarget := none, lastExposed := some fl.serial
      linesExposed := if u.expo.linesExposed < 65535 then u.expo.linesExposed + 1 else u.expo.linesExposed } := by
  simp [State.lineDone, cleanEnd_expo, bump_eq]

theorem lineDone_lineOpen (u : State) (fl : Flight) : (u.lineDone fl).turret.lineOpen = u.turret.lineEnd.lineOpen := by
  simp only [State.lineDone, cleanEnd_keeps, lineExposedDelay_keeps]
  exact lineEnd_lineOpen_congr (by simp) (by simp)

/-! ### A line abandoned -/

theorem abandon_entries {cover lamp : Bool} {e : Entry} (he : e ∈ (u.abandon fl cover lamp).queue.entries)
    (hk : e.serial = fl.serial) : e.expo = .done ∧ ∀ l, e.body = .line l → LineFlag.spoiled ∈ l.flags := by
  have hmem : e ∈ (u.exposureDone fl.serial true false).queue.entries := he
  obtain ⟨e₀, rfl⟩ := exposureDone_exposed hmem hk
  exact ⟨rfl, fun l => exposed_spoiled⟩

theorem abandon_expo (h : u.expo.state ≠ .stopped) (cover lamp : Bool) :
    (u.abandon fl cover lamp).expo = { u.expo with
      flight := none, holdRequest := false, state := .stopped
      stops := { cover := fl.coverSeen || cover, lamp := fl.lampSeen || lamp, filmOut := false, jam := false }
      carriage := 0, carriageTarget := none
      linesSpoiled := if u.expo.linesSpoiled < 65535 then u.expo.linesSpoiled + 1 else u.expo.linesSpoiled } := by
  simp [State.abandon, State.stoppedEnd, Exposure.stop, State.onExpo, h, Stops.none, bump_eq]

theorem abandon_holds {n : Notice} (h : u.link.holds n = true) (cover lamp : Bool) :
    (u.abandon fl cover lamp).link.holds n = true :=
  raise_holds (by simpa [State.stoppedEnd] using h) .lineSpoiled

theorem abandon_lineOpen (u : State) (fl : Flight) (cover lamp : Bool) :
    (u.abandon fl cover lamp).turret.lineOpen = u.turret.lineEnd.lineOpen := by
  have hends : (u.abandon fl cover lamp).turret = (u.exposureDone fl.serial true false).turret.lineEnd := rfl
  rw [hends]
  exact lineEnd_lineOpen_congr (by simp) (by simp)

/-! ### A run waits for its lens and its station -/

theorem reactRun_lens (hst : s.expo.state = .selecting ∨ s.expo.state = .waitingTurret) (hfl : s.expo.flight = some fl)
    (hr : s.flightRun fl = some r) (hl : s.expo.lensTarget ≠ s.expo.lensFor r.size) :
    s.reactRun = some { s with expo := { s.expo with lensTarget := s.expo.lensFor r.size } } := by
  simp [reactRun_of_run hst hfl hr, hl.symm, State.onExpo]

theorem reactRun_selects (hst : s.expo.state = .selecting ∨ s.expo.state = .waitingTurret) (hfl : s.expo.flight = some fl)
    (hr : s.flightRun fl = some r) (hl : s.expo.lensTarget = s.expo.lensFor r.size) (hsel : fl.selecting = true) :
    s.reactRun = s.select fl r := by
  simp [reactRun_of_run hst hfl hr, ← hl, hsel]

theorem reactRun_flashes (hst : s.expo.state = .selecting ∨ s.expo.state = .waitingTurret) (hfl : s.expo.flight = some fl)
    (hr : s.flightRun fl = some r) (hl : s.expo.lensTarget = s.expo.lensFor r.size) (hsel : fl.selecting = false) :
    s.reactRun = if s.expo.lensTarget = none ∧ s.turret.motion = .atRest then
        some { s with expo := { s.expo with state := .flashing, carriageTarget := some (s.flightX fl) } }
      else none := by
  simp [reactRun_of_run hst hfl hr, ← hl, hsel, State.onExpo]

/-! ### The obligation -/

/-- Settles O40: the sample leaves the exposure as the flash left it or abandons its line, and the next glyph, the next run and the
line done follow from the place reached in the line. -/
theorem flashCompleteGoesOnOrEndsTheLine : Obligations.FlashCompleteGoesOnOrEndsTheLine := by
  unfold Obligations.FlashCompleteGoesOnOrEndsTheLine
  refine ⟨fun s sample => ?_, fun s fl r hst hfl hr => ?_, fun s fl b hb => flightX_of_line hb⟩
  · have hexec : exec (.flashComplete sample) s = .next (settle s (flashCompleteEffect sample s)) := rfl
    have harrive : exec .lensArrival s = .next (settle s (lensArrivalEffect s)) := rfl
    rw [hexec, harrive]
    refine ⟨fun h => by simp [flashCompleteEffect, h], fun fl b r hflash hst hfl hb hr hlamp hkept => ?_,
      fun fl hflash hst hfl hlamp hfault => ?_, fun h => by simp [lensArrivalEffect, h],
      fun z h => by simp [lensArrivalEffect, h, State.onExpo]⟩
    · obtain ⟨u, heffect, hu, hready, hvalid, hinvalid⟩ := flashComplete_advances hflash hst hfl hlamp hkept
      have hb' : u.flightLine fl = some b := (flightLine_congr hu.queue fl).trans hb
      refine ⟨u.nextGlyph fl, by rw [heffect], ?_⟩
      obtain ⟨hfilm, hjobs⟩ : (u.nextGlyph fl).film = s.film ∧ (u.nextGlyph fl).jobs = s.jobs := by simp [hu.film, hu.jobs]
      have hlampKept : (u.nextGlyph fl).lamp = u.lamp := by simp
      rw [hlampKept]
      refine ⟨hready, hvalid, hinvalid, hfilm, hjobs, fun hg => ?_, fun r' hg hnext => ?_, fun hg hnext => ?_⟩
      · rw [nextGlyph_glyph hb' hr hg, flightX_congr hu.queue]
        exact ⟨hu.queue, hu.turret, by simp [hu.expo]⟩
      · have hr' : u.flightRun { fl with run := fl.run + 1, glyph := 0 } = some r' := by
          have hline : u.flightLine { fl with run := fl.run + 1, glyph := 0 } = some b := hb'
          rw [State.flightRun, hline, Option.bind_some, hnext]
        rw [nextGlyph_run hb' hr hg hnext, startRun_of_run hr', hu.expo, hu.turret]
        exact ⟨hu.queue, rfl, rfl⟩
      · rw [nextGlyph_done hb' hr hg hnext]
        obtain ⟨hdelay, habs⟩ := lineDone_timers (fl := fl) hu
        refine ⟨fun e he hk => lineDone_entries he hk, hdelay, habs,
          fun h => lineDone_lineExposed (by rwa [hu.delayMs, hu.limitMs]),
          fun h => lineDone_held (by rw [hu.expo]; exact h), ?_, ?_⟩
        · rw [lineDone_expo, hu.expo]
        · rw [lineDone_lineOpen, hu.turret]; exact lineEnd_lineOpen _
    · obtain ⟨u, heffect, hu, hholds, hvalid, hinvalid⟩ := flashComplete_abandons hflash hst hfl hlamp hfault
      have hrunning : u.expo.state ≠ .stopped := by rw [hu.expo]; simp [hst]
      refine ⟨u.abandon fl false true, by rw [heffect], by simpa using hvalid, by simpa using hinvalid, ?_,
        fun e he hk => abandon_entries he hk, abandon_holds hholds _ _, raise_holds_self _ _, ?_, ?_, ?_, ?_, ?_⟩
      · simp [abandon_expo hrunning, hu.expo]
      · simp [hu.delayTimer]
      · simp [hu.absTimer]
      · rw [abandon_lineOpen, hu.turret]; exact lineEnd_lineOpen _
      · simp [hu.film]
      · simp [hu.jobs]
  · simp only [← lensFor_eq]
    refine ⟨reactRun_lens hst hfl hr, fun hl hsel => ?_, fun hl hsel => reactRun_flashes hst hfl hr hl hsel⟩
    rw [reactRun_selects hst hfl hr hl hsel, ← locked_iff, Bool.not_eq_true]
    refine ⟨fun hm => ?_, select_here, select_rotates, select_waits⟩
    cases hmotion : s.turret.motion with
    | atRest => exact absurd hmotion hm
    | rotating p k => exact select_rotating hmotion

end

end Sys2Proof.Machine
end

section
/-! SET GALLEY GAP, OPEN JOB and its clamps, and SEND TEXT (R41, R45 to R48, R54, R56). -/

namespace Sys2Proof.Machine

open Sys2Proof

section
variable {s : State}

/-! ### SET GALLEY GAP -/

theorem setGalleyGap_range {g : Nat} (h : 36000 < g) : setGalleyGapEffect g s = refuse .range s := by
  simp [setGalleyGapEffect, h]

theorem setGalleyGap_done {g : Nat} (h : g ≤ 36000) : setGalleyGapEffect g s = done { s with galleyGap := g } := by
  simp [setGalleyGapEffect, Nat.not_lt.2 h]

theorem powerOnReset_galleyGap (r : Readings) : (powerOnResetEffect r s).galleyGap = 1800 := by
  simp [powerOnResetEffect, State.reset]

theorem answered_galleyGap (t : State) (r : Reply) : (t.answered r).galleyGap = t.galleyGap := rfl

theorem recomposed_galleyGap (v : State) : v.recomposed.galleyGap = v.galleyGap := rfl

/-- A composition reset keeps the galley gap, and so does the closing part of its step. -/
theorem resetComposition_galleyGap (ha : s.accepting) (tag : Byte) :
    ∃ t : State, exec (.resetComposition tag) s = .next t ∧ t.galleyGap = s.galleyGap := by
  obtain ⟨-, -, -, -, hlink, -, -, -, hgap, -, -⟩ := cleared_keeps s.received
  have hframe : s.received.cleared.recomposed.link.frameBegun = false :=
    (recomposed_frameBegun _).trans (congrArg Link.frameBegun hlink)
  refine ⟨_, exec_settled_done ha rfl rfl (resetComposition_eq s.received) hframe, ?_⟩
  rw [answered_galleyGap, (beside_settle _ _).galleyGap, recomposed_galleyGap, hgap]
  rfl

theorem resetLink_galleyGap (ha : s.accepting) (tag : Byte) :
    ∃ t : State, exec (.resetLink tag) s = .next t ∧ t.galleyGap = s.galleyGap :=
  ⟨_, congrArg Host.Outcome.next (accept_eq_answered ha rfl rfl rfl rfl), rfl⟩

theorem framingLoss_galleyGap (h : s.link.withheld = []) : (framingLossEffect s).galleyGap = s.galleyGap := by
  simp [framingLossEffect, State.runWithheld, Link.reset, h]

end

/-- Settles O26: the range and the replacement of the gap, and the resets one by one. -/
theorem setGalleyGapReplacesTheGap : Obligations.SetGalleyGapReplacesTheGap := by
  unfold Obligations.SetGalleyGapReplacesTheGap
  intro s tag g ha
  refine ⟨fun h => exec_refused ha rfl rfl (setGalleyGap_range h), fun h => ⟨{ s with galleyGap := g }, ?_, rfl, rfl, fun e d _ => rfl⟩,
    fun r => ⟨_, rfl, powerOnReset_galleyGap r⟩, resetComposition_galleyGap ha tag, resetLink_galleyGap ha tag,
    fun h => ⟨_, rfl, framingLoss_galleyGap h⟩⟩
  exact exec_answered (t := { s with galleyGap := g }) ha rfl rfl (setGalleyGap_done h)

/-! ### OPEN JOB -/

section
variable {s : State} {slot id : Nat} {p : OpenParams}

theorem openJob_range (h : 3 < slot ∨ id = 0 ∨ clampParams s.house p = none) : openJobEffect slot id p s = refuse .range s := by
  rcases h with h | h | h
  · simp [openJobEffect, h]
  · simp [openJobEffect, h]
  · simp [openJobEffect, h]

theorem openJob_state {ps : Params} (hslot : slot ≤ 3) (hid : id ≠ 0) (hp : clampParams s.house p = some ps)
    (h : (s.job slot).state ≠ .free) : openJobEffect slot id p s = refuse .state s := by
  simp [openJobEffect, hslot, hid, hp, h]

/-- The job a definition of OPEN JOB makes (R45). -/
def Job.opened (id : Nat) (ps : Params) : Job :=
  { Job.free with id := id, state := .active, status := .waitingText, params := ps, paragraphMark := true, lineNumber := 1 }

theorem openJob_done {ps : Params} (hslot : slot ≤ 3) (hid : id ≠ 0) (hp : clampParams s.house p = some ps)
    (h : (s.job slot).state = .free) :
    openJobEffect slot id p s =
      ({ s with jobs := s.jobs.modify slot fun _ => Job.opened id ps, galleyOrder := s.galleyOrder ++ [slot] },
        { status := .done, payload := ps.bytes, clamped := decide (ps.numbers ≠ givenNumbers p) }) := by
  have hclamped : (ps.numbers != givenNumbers p) = decide (ps.numbers ≠ givenNumbers p) := by
    rw [Bool.eq_iff_iff, bne_iff_ne, decide_eq_true_eq]
  simp only [openJobEffect, hp, h, hclamped]
  simp [hid, Nat.not_lt.2 hslot, Job.opened, State.onJob]

end

/-- Settles O21: the checks in their order, and the job that OPEN JOB makes. -/
theorem openJobFillsAFreeSlot : Obligations.OpenJobFillsAFreeSlot := by
  unfold Obligations.OpenJobFillsAFreeSlot
  intro s tag slot id p ha
  refine ⟨fun h => exec_settled_refused ha rfl rfl (openJob_range h), fun ps hslot hid hp =>
    ⟨fun h => exec_settled_refused ha rfl rfl (openJob_state hslot hid hp h), fun h => ?_⟩⟩
  exact exec_settled ha rfl rfl (openJob_done (s := s.received) hslot hid hp h) rfl

/-! ### The clamps -/

theorem quadOf_code {n : Nat} {q : QuadMode} (h : quadOf n = some q) : q.code = n := by
  unfold quadOf at h
  split at h <;> cases h <;> rfl

theorem policyFrom_code {n : Nat} {q : ProofPolicy} (h : policyFrom n = some q) : q.code = n := by
  unfold policyFrom at h
  split at h <;> cases h <;> rfl

theorem quadOf_none_iff (n : Nat) : quadOf n = none ↔ 3 < n := by
  unfold quadOf
  split
  case h_5 h0 h1 h2 h3 =>
    have : 3 < n := by
      by_contra h
      interval_cases n <;> contradiction
    simpa using this
  all_goals simp

theorem policyFrom_none_iff (n : Nat) : policyFrom n = none ↔ 2 < n := by
  unfold policyFrom
  split
  case h_4 h0 h1 h2 =>
    have : 2 < n := by
      by_contra h
      interval_cases n <;> contradiction
    simpa using this
  all_goals simp

/-- The parameters that pass the checks of enumerations, as recorded (R46, R47). -/
def recordedParams (h : HouseStyle) (p : OpenParams) (quad : QuadMode) (policy : ProofPolicy) : Params :=
  { font := p.font, size := clampSize h p.size, leading := clampLeading p.leading, measure := clampMeasure h p.measure
    left := (clampIndents (clampMeasure h p.measure) (min 12600 p.left) (min 12600 p.right)).1
    right := (clampIndents (clampMeasure h p.measure) (min 12600 p.left) (min 12600 p.right)).2
    paragraph := min 12600 p.paragraph
    spaceMin := (clampSpaces h p.spaceMin p.spaceOpt p.spaceMax).1
    spaceOpt := (clampSpaces h p.spaceMin p.spaceOpt p.spaceMax).2.1
    spaceMax := (clampSpaces h p.spaceMin p.spaceOpt p.spaceMax).2.2
    letterMax := min (min 8 p.letterMax) h.letterCeiling
    minPrefix := max (clampTo 2 6 p.minPrefix) h.prefixFloor, minSuffix := max (clampTo 2 6 p.minSuffix) h.suffixFloor
    ladder := min (clampTo 1 9 p.ladder) h.ladderCeiling, grade := clampTo 1 3 p.grade, zone := min 13500 p.zone
    quad := quad, hyphenate := p.hyphenate == 1, language := p.language, policy := policy }

/-- The numbers that OPEN JOB refuses outside their sets (R45). -/
def givenOk (p : OpenParams) : Prop := 1 ≤ p.font ∧ p.font ≤ 999 ∧ p.hyphenate ≤ 1 ∧ p.language ≤ 3

theorem clampParams_of_sets {h : HouseStyle} {p : OpenParams} {quad : QuadMode} {policy : ProofPolicy}
    (hq : quadOf p.quad = some quad) (hp : policyFrom p.policy = some policy) (hn : givenOk p) :
    clampParams h p = some (recordedParams h p quad policy) := by
  obtain ⟨h1, h2, h3, h4⟩ := hn
  simp [clampParams, hq, hp, h1, h2, h3, h4, recordedParams]

theorem clampParams_of_not_sets {h : HouseStyle} {p : OpenParams}
    (hn : quadOf p.quad = none ∨ policyFrom p.policy = none ∨ ¬givenOk p) : clampParams h p = none := by
  have hbad : ¬givenOk p → (decide (1 ≤ p.font) && decide (p.font ≤ 999) && decide (p.hyphenate ≤ 1) && decide (p.language ≤ 3)) = false := by
    intro hn
    rw [← Bool.not_eq_true]
    simpa [givenOk, and_assoc] using hn
  unfold clampParams
  cases hq : quadOf p.quad with
  | none => rfl
  | some quad =>
    cases hp : policyFrom p.policy with
    | none => rfl
    | some policy => simp [hbad (by simpa [hq, hp] using hn)]

theorem clampParams_eq_some {h : HouseStyle} {p : OpenParams} {ps : Params} (hs : clampParams h p = some ps) :
    ∃ quad policy, quadOf p.quad = some quad ∧ policyFrom p.policy = some policy ∧ givenOk p ∧ ps = recordedParams h p quad policy := by
  by_cases hn : quadOf p.quad = none ∨ policyFrom p.policy = none ∨ ¬givenOk p
  · rw [clampParams_of_not_sets hn] at hs
    cases hs
  · push Not at hn
    obtain ⟨hq, hp, hn⟩ := hn
    obtain ⟨quad, hq⟩ := Option.ne_none_iff_exists'.1 hq
    obtain ⟨policy, hp⟩ := Option.ne_none_iff_exists'.1 hp
    rw [clampParams_of_sets hq hp hn, Option.some.injEq] at hs
    exact ⟨quad, policy, hq, hp, hn, hs.symm⟩

theorem clampParams_eq_none_iff (h : HouseStyle) (p : OpenParams) :
    clampParams h p = none ↔
      ¬(1 ≤ p.font ∧ p.font ≤ 999 ∧ p.quad ≤ 3 ∧ p.policy ≤ 2 ∧ p.hyphenate ≤ 1 ∧ p.language ≤ 3) := by
  have hquad := quadOf_none_iff p.quad
  have hpolicy := policyFrom_none_iff p.policy
  constructor
  · rintro hs ⟨h1, h2, h3, h4, h5, h6⟩
    obtain ⟨quad, hq⟩ := Option.ne_none_iff_exists'.1 (mt hquad.1 (Nat.not_lt.2 h3))
    obtain ⟨policy, hp⟩ := Option.ne_none_iff_exists'.1 (mt hpolicy.1 (Nat.not_lt.2 h4))
    rw [clampParams_of_sets hq hp ⟨h1, h2, h5, h6⟩] at hs
    cases hs
  · intro hn
    apply clampParams_of_not_sets
    rw [hquad, hpolicy, givenOk]
    omega

theorem clampSize_spec {h : HouseStyle} (hh : houseOk h = true) (x : Nat) :
    clampSize h x = max h.sizeLow (min h.sizeHigh x) ∧ 50 ≤ clampSize h x ∧ clampSize h x ≤ 720 ∧ h.sizeLow ≤ clampSize h x ∧
    clampSize h x ≤ h.sizeHigh := by
  have := (houseOk_iff h).1 hh
  simp only [clampSize, clampTo]
  omega

theorem clampMeasure_spec {h : HouseStyle} (hh : houseOk h = true) (x : Nat) :
    clampMeasure h x = max h.measureLow (min h.measureHigh x) ∧ 900 ≤ clampMeasure h x ∧ clampMeasure h x ≤ 13500 ∧
    h.measureLow ≤ clampMeasure h x ∧ clampMeasure h x ≤ h.measureHigh := by
  have := (houseOk_iff h).1 hh
  simp only [clampMeasure, clampTo]
  omega

theorem clampSpaces_spec {h : HouseStyle} (hh : houseOk h = true) (mn op mx : Nat) :
    (clampSpaces h mn op mx).1 = max h.spaceFloor (min h.spaceCeiling mn) ∧
    (clampSpaces h mn op mx).2.2 = max (clampSpaces h mn op mx).1 (min h.spaceCeiling mx) ∧
    (clampSpaces h mn op mx).2.1 = max (clampSpaces h mn op mx).1 (min (clampSpaces h mn op mx).2.2 op) := by
  have := (houseOk_iff h).1 hh
  simp only [clampSpaces]
  omega

/-- The spaces given in their order within the house style are recorded as given (R46). -/
theorem clampSpaces_of_ordered {h : HouseStyle} (hh : houseOk h = true) {mn op mx : Nat} (h1 : h.spaceFloor ≤ mn) (h2 : mn ≤ op)
    (h3 : op ≤ mx) (h4 : mx ≤ h.spaceCeiling) : clampSpaces h mn op mx = (mn, op, mx) := by
  obtain ⟨hmn, hmx, hop⟩ := clampSpaces_spec hh mn op mx
  refine Prod.ext ?_ (Prod.ext ?_ ?_)
  · show (clampSpaces h mn op mx).1 = mn; omega
  · show (clampSpaces h mn op mx).2.1 = op; omega
  · show (clampSpaces h mn op mx).2.2 = mx; omega

/-- The indents clamped together (R47), by where the left indent and the sum lie. -/
theorem clampIndents_eq (m left right : Nat) :
    clampIndents m left right =
      if left + right + 900 ≤ m then (left, right) else if left + 900 ≤ m then (left, m - 900 - left) else (m - 900, 0) := by
  simp only [clampIndents]
  split_ifs <;> simp <;> omega

section
variable {m left right : Nat}

theorem clampIndents_of_room (h : left + right + 900 ≤ m) : clampIndents m left right = (left, right) := by
  rw [clampIndents_eq, if_pos h]

/-- Where the left indent leaves 900 units, the right one takes what is left of the measure. -/
theorem clampIndents_of_left (h : left + 900 ≤ m) : clampIndents m left right = (left, min right (m - 900 - left)) := by
  rw [clampIndents_eq, if_pos h]
  split
  · rw [min_eq_left (by omega)]
  · rw [min_eq_right (by omega)]

theorem clampIndents_of_wide (h : m < left + 900) : clampIndents m left right = (m - 900, 0) := by
  rw [clampIndents_eq, if_neg (by omega), if_neg (by omega)]

theorem clampIndents_sum_le (h : 900 ≤ m) : (clampIndents m left right).1 + (clampIndents m left right).2 + 900 ≤ m := by
  rw [clampIndents_eq]
  split_ifs <;> simp only <;> omega

end

/-- Settles O22: each parameter by the lemma on its clamp. -/
theorem clampedParametersLieInTheirRanges : Obligations.ClampedParametersLieInTheirRanges := by
  unfold Obligations.ClampedParametersLieInTheirRanges
  intro h p hh
  refine ⟨clampParams_eq_none_iff h p, fun ps hps => ?_⟩
  obtain ⟨quad, policy, hq, hp, ⟨hfont, hfont', hhyph, hlang⟩, rfl⟩ := clampParams_eq_some hps
  have hhouse := (houseOk_iff h).1 hh
  obtain ⟨hsize, hsize1, hsize2, hsize3, hsize4⟩ := clampSize_spec hh p.size
  obtain ⟨hmeasure, hmeasure1, hmeasure2, hmeasure3, hmeasure4⟩ := clampMeasure_spec hh p.measure
  obtain ⟨hmn, hmx, hop⟩ := clampSpaces_spec hh p.spaceMin p.spaceOpt p.spaceMax
  have hsum := clampIndents_sum_le (left := min 12600 p.left) (right := min 12600 p.right) hmeasure1
  refine ⟨rfl, quadOf_code hq, policyFrom_code hp, rfl, rfl, hsize, rfl, hmeasure, rfl, ?_, ?_, ?_, ?_, ?_, rfl, fun hl hr hm => ?_,
    fun hl hm => ?_, fun hm => ?_, fun h1 h2 h3 h4 => ?_, hmn, hmx, hop, hfont, hfont', hsize1, hsize2, hsize3, hsize4, ?_, hmeasure1,
    hmeasure2, hmeasure3, hmeasure4, hsum, ?_, ?_, ?_, ?_, ?_, ?_, ?_, ?_, ?_, ?_, ?_, ?_, ?_, ?_, ?_, ?_, ?_, ?_, ?_, hlang⟩
  case refine_6 =>
    simp only [recordedParams, min_eq_right hl, min_eq_right hr, clampIndents_of_room (m := clampMeasure h p.measure) hm, and_self]
  case refine_7 =>
    simp only [recordedParams, min_eq_right hl, clampIndents_of_left (m := clampMeasure h p.measure) hm, and_self]
  case refine_8 =>
    simp only [recordedParams, clampIndents_of_wide (m := clampMeasure h p.measure) hm, and_self]
  case refine_9 =>
    simp only [recordedParams, clampSpaces_of_ordered hh h1 h2 h3 h4, and_self]
  all_goals
    simp only [recordedParams, clampTo, clampLeading]
    omega

/-! ### SEND TEXT -/

section
variable {s : State} {slot : Nat} {text : List Byte}

theorem sendText_range (h : 3 < slot) : sendTextEffect slot text s = refuse .range s := by
  simp [sendTextEffect, h]

theorem sendText_state (hslot : slot ≤ 3) (h : (s.job slot).state ≠ .active) : sendTextEffect slot text s = refuse .state s := by
  simp [sendTextEffect, hslot, h]

theorem sendText_full (hslot : slot ≤ 3) (h : (s.job slot).state = .active) (hlen : 2048 - (s.job slot).text.length < text.length) :
    sendTextEffect slot text s = (s, { status := .full, payload := num2 (2048 - (s.job slot).text.length) }) := by
  simp [sendTextEffect, Nat.not_lt.2 hslot, h, Config.textBytes, hlen]

/-- A job with text added: READY where it was WAITING TEXT and now has work (R41, R48). -/
def Job.withText (text : List Byte) (j : Job) : Job :=
  if j.status = .waitingText ∧ ({ j with text := j.text ++ text } : Job).work ≠ .none then
    { j with text := j.text ++ text, status := .ready }
  else { j with text := j.text ++ text }

/-- A change of one context, as the context put in its slot. -/
theorem onJob_eq_set (h : slot < s.jobs.length) (f : Job → Job) :
    s.onJob slot f = { s with jobs := s.jobs.set slot (f (s.job slot)) } := by
  have hget : s.job slot = s.jobs[slot] := by rw [State.job, List.getD_eq_getElem _ _ h]
  rw [State.onJob, List.modify_eq_set_get _ h, hget]
  rfl

theorem onJob_onJob (f g : Job → Job) : (s.onJob slot f).onJob slot g = s.onJob slot (g ∘ f) := by
  simp only [State.onJob, List.modify_modify_eq]

theorem sendText_done (hlt : slot < s.jobs.length) (hslot : slot ≤ 3) (h : (s.job slot).state = .active)
    (hlen : text.length ≤ 2048 - (s.job slot).text.length) :
    sendTextEffect slot text s =
      ({ s with jobs := s.jobs.set slot ((s.job slot).withText text) },
        { status := .done, payload := num2 (2048 - (s.job slot).text.length - text.length) }) := by
  have hjob : (s.onJob slot fun j => { j with text := j.text ++ text }).job slot =
      { s.job slot with text := (s.job slot).text ++ text } := State.job_onJob_self s _ hlt
  have hready : ∀ u : State, u.setStatus slot .ready = u.onJob slot fun j => { j with status := .ready } := fun _ => rfl
  have hactive : ((s.job slot).state != .active) = false := by simp [h]
  simp only [sendTextEffect, Nat.not_lt.2 hslot, if_false, hactive, Bool.false_eq_true, Config.textBytes, gt_iff_lt,
    Nat.not_lt.2 hlen, hjob, hready, Bool.and_eq_true, beq_iff_eq, bne_iff_ne]
  refine Prod.ext ?_ rfl
  rw [Job.withText]
  split
  · exact (onJob_onJob _ _).trans (onJob_eq_set hlt _)
  · exact onJob_eq_set hlt _

end

/-- Settles O23: the checks in their order, and the text that joins the buffer. -/
theorem sendTextIsTakenWholeOrNotAtAll : Obligations.SendTextIsTakenWholeOrNotAtAll := by
  unfold Obligations.SendTextIsTakenWholeOrNotAtAll
  intro s tag slot text ha hlen
  have hs : (Instr.sendText tag slot text).shapeOk = true := by simpa [Instr.shapeOk] using hlen
  exact ⟨fun h => exec_settled_refused ha hs rfl (sendText_range h), fun h1 h2 => exec_settled_refused ha hs rfl (sendText_state h1 h2),
    fun h1 h2 h3 => exec_settled ha hs rfl (sendText_full (s := s.received) h1 h2 h3) rfl,
    fun hlt h1 h2 h3 => exec_settled ha hs rfl (sendText_done (s := s.received) hlt h1 h2 h3) rfl⟩

end Sys2Proof.Machine
end

section
/-! The next step of a turn, and the end of one (R41, R49, R67, R70, R79, R87). -/

namespace Sys2Proof.Machine

open Sys2Proof

/-! ### The next step -/

/-- The buffer begins with a byte, and with a whole code where that byte begins one (R59, R87). -/
theorem canTake_iff (text : List Byte) :
    canTake text = true ↔ ∃ b rest, text = b :: rest ∧
      (b = 0x1B#8 → ∃ c ps, rest = c :: ps ∧ ∀ n, codeLength c = some n → n ≤ ps.length) := by
  cases text with
  | nil => simp [canTake]
  | cons b rest =>
    by_cases hb : b = 0x1B#8
    · cases rest with
      | nil => simp [canTake, hb]
      | cons c ps => cases hc : codeLength c <;> simp [canTake, hb, hc]
    · simp [canTake, hb]

/-- A word waits to be placed (R71, R79). -/
def LineInProgress.places (l : LineInProgress) : Prop :=
  l.placing ≠ none ∨ l.carry ≠ none ∨ l.ended ≠ none ∨ (l.ending ≠ none ∧ 0 < countChars l.pending)

theorem places_iff (l : LineInProgress) :
    (l.placing.isSome || l.carry.isSome || l.ended.isSome || (l.ending.isSome && decide (0 < countChars l.pending))) = true ↔
      l.places := by
  simp only [LineInProgress.places, Bool.or_eq_true, Bool.and_eq_true, decide_eq_true_eq, Option.isSome_iff_ne_none, or_assoc]

/-- A byte can be taken, or is skipped at the end of a CLOSING job's buffer (R49, R87). -/
def Job.takes (j : Job) : Prop :=
  (∃ b rest, j.text = b :: rest ∧
    (b = 0x1B#8 → ∃ c ps, rest = c :: ps ∧ ∀ n, codeLength c = some n → n ≤ ps.length)) ∨
  (j.state = .closing ∧ j.finished = false ∧ j.text ≠ [])

theorem takes_iff (j : Job) :
    (canTake j.text || (j.state == .closing && !j.finished && !j.text.isEmpty)) = true ↔ j.takes := by
  simp only [Job.takes, Bool.or_eq_true, canTake_iff, Bool.and_eq_true, beq_iff_eq, Bool.not_eq_true', List.isEmpty_eq_false_iff,
    and_assoc]

theorem work_of_held {j : Job} (h : j.line.held ≠ none) : j.work = .none := by
  simp [Job.work, Option.isSome_iff_ne_none.2 h]

section
variable {j : Job} (hheld : j.line.held = none)
include hheld

theorem work_of_places (h : j.line.places) : j.work = .place := by
  simp only [Job.work, hheld, Option.isSome_none, Bool.false_eq_true, if_false, if_pos ((places_iff _).2 h)]

theorem work_of_ending (h : ¬j.line.places) (he : j.line.ending ≠ none) : j.work = .set := by
  simp only [Job.work, hheld, Option.isSome_none, Bool.false_eq_true, if_false, if_neg (mt (places_iff _).1 h),
    if_pos (Option.isSome_iff_ne_none.2 he)]

theorem work_of_takes (h : ¬j.line.places) (he : j.line.ending = none) (ht : j.takes) : j.work = .take := by
  have hset : ¬j.line.ending.isSome = true := by simp [he]
  simp only [Job.work, hheld, Option.isSome_none, Bool.false_eq_true, if_false, if_neg (mt (places_iff _).1 h), if_neg hset,
    if_pos ((takes_iff _).2 ht)]

theorem work_of_idle (h : ¬j.line.places) (he : j.line.ending = none) (ht : ¬j.takes) : j.work = .none := by
  have hset : ¬j.line.ending.isSome = true := by simp [he]
  simp only [Job.work, hheld, Option.isSome_none, Bool.false_eq_true, if_false, if_neg (mt (places_iff _).1 h), if_neg hset,
    if_neg (mt (takes_iff _).1 ht)]

end

/-- The order of a turn's steps (R67, R70, R79). -/
theorem work_iff (j : Job) :
    (j.work = .place ↔ j.line.held = none ∧ j.line.places) ∧
    (j.work = .set ↔ j.line.held = none ∧ ¬j.line.places ∧ j.line.ending ≠ none) ∧
    (j.work = .take ↔ j.line.held = none ∧ ¬j.line.places ∧ j.line.ending = none ∧ j.takes) := by
  by_cases hheld : j.line.held = none
  · by_cases hp : j.line.places
    · simp [work_of_places hheld hp, hheld, hp]
    · by_cases he : j.line.ending = none
      · by_cases ht : j.takes
        · simp [work_of_takes hheld hp he ht, hheld, hp, he, ht]
        · simp [work_of_idle hheld hp he ht, hp, he, ht]
      · simp [work_of_ending hheld hp he, hheld, hp, he]
  · simp [work_of_held hheld, hheld]

theorem composing_iff (j : Job) : j.composing = true ↔ j.state = .active ∨ j.state = .closing := by
  simp [Job.composing]

theorem serves_iff (s : State) (w : Work) (slot : Nat) :
    s.serves w = some slot ↔
      s.engine.serving = some slot ∧ ((s.job slot).state = .active ∨ (s.job slot).state = .closing) ∧ (s.job slot).work = w := by
  simp only [State.serves, Option.filter_eq_some_iff, Bool.and_eq_true, composing_iff, beq_iff_eq]

theorem line_isEmpty_iff (l : LineInProgress) :
    l.isEmpty = true ↔ l.glyphs = [] ∧ l.pending = [] ∧ l.ended = none ∧ l.placing = none ∧ l.carry = none ∧
      l.missing = false ∧ l.ending = none ∧ l.held = none := by
  simp only [LineInProgress.isEmpty, Bool.and_eq_true, List.isEmpty_iff, Option.isNone_iff_eq_none, Bool.not_eq_true', and_assoc]

/-! ### The end of a step -/

section
variable {s : State} {slot : Nat}

/-- What finishes the composition of a CLOSING job (R49). -/
def Job.ends (j : Job) : Prop := j.state = .closing ∧ j.finished = false ∧ j.text = [] ∧ j.line.isEmpty = true

theorem ends_iff (j : Job) :
    (j.state == .closing && !j.finished && j.text.isEmpty && j.line.isEmpty) = true ↔ j.ends := by
  simp only [Job.ends, Bool.and_eq_true, beq_iff_eq, Bool.not_eq_true', List.isEmpty_iff, and_assoc]

theorem finishComposition_of_ends (h : (s.job slot).ends) :
    s.finishComposition slot = s.onJob slot fun j => { j with finished := true } := by
  simp only [State.finishComposition, if_pos ((ends_iff _).2 h)]

theorem finishComposition_of_not_ends (h : ¬(s.job slot).ends) : s.finishComposition slot = s := by
  simp only [State.finishComposition, if_neg (mt (ends_iff _).1 h)]

/-- A job whose composition is finished has no further step. -/
theorem work_finished_of_ends {j : Job} (h : j.ends) : ({ j with finished := true } : Job).work = .none := by
  obtain ⟨-, -, htext, hline⟩ := h
  obtain ⟨-, hpending, hended, hplacing, hcarry, -, hending, hheld⟩ := (line_isEmpty_iff _).1 hline
  refine work_of_idle hheld ?_ hending ?_
  · simp [LineInProgress.places, hplacing, hcarry, hended, hending]
  · simp [Job.takes, htext]

theorem afterStep_of_ends (hlt : slot < s.jobs.length) (h : (s.job slot).ends) :
    s.afterStep slot = (s.onJob slot fun j => { j with finished := true }).endTurn slot := by
  simp only [State.afterStep, finishComposition_of_ends h, State.job_onJob_self s _ hlt, work_finished_of_ends h, beq_self_eq_true,
    if_true]

theorem afterStep_of_idle (h : ¬(s.job slot).ends) (hw : (s.job slot).work = .none) : s.afterStep slot = s.endTurn slot := by
  simp [State.afterStep, finishComposition_of_not_ends h, hw]

theorem afterStep_of_work (h : ¬(s.job slot).ends) (hw : (s.job slot).work ≠ .none) : s.afterStep slot = s := by
  simp [State.afterStep, finishComposition_of_not_ends h, hw]

theorem restatus_of_not_composing (h : ¬((s.job slot).state = .active ∨ (s.job slot).state = .closing) ∨ (s.job slot).finished = true) :
    s.restatus slot = s := by
  have h' : (!(s.job slot).composing || (s.job slot).finished) = true := by
    rw [← composing_iff] at h
    simpa using h
  simp only [State.restatus, h', if_true]

section
variable (hc : (s.job slot).state = .active ∨ (s.job slot).state = .closing) (hf : (s.job slot).finished = false)
include hc hf

theorem restatus_of_held (hheld : (s.job slot).line.held ≠ none) : s.restatus slot = s.setStatus slot (.stalled .queueFull) := by
  simp [State.restatus, (composing_iff _).2 hc, hf, Option.isSome_iff_ne_none.2 hheld]

theorem restatus_of_fontStalled (hheld : (s.job slot).line.held = none)
    (hst : (s.job slot).status = .stalled .fontUnavailable ∨ (s.job slot).status = .stalled .fontChanging) : s.restatus slot = s := by
  simp [State.restatus, (composing_iff _).2 hc, hf, hheld, hst]

theorem restatus_of_work (hheld : (s.job slot).line.held = none) (h1 : (s.job slot).status ≠ .stalled .fontUnavailable)
    (h2 : (s.job slot).status ≠ .stalled .fontChanging) (hw : (s.job slot).work ≠ .none) :
    s.restatus slot = s.setStatus slot .ready := by
  simp [State.restatus, (composing_iff _).2 hc, hf, hheld, h1, h2, hw]

theorem restatus_of_no_work (hheld : (s.job slot).line.held = none) (h1 : (s.job slot).status ≠ .stalled .fontUnavailable)
    (h2 : (s.job slot).status ≠ .stalled .fontChanging) (hw : (s.job slot).work = .none) :
    s.restatus slot = s.setStatus slot .waitingText := by
  simp [State.restatus, (composing_iff _).2 hc, hf, hheld, h1, h2, hw]

end

theorem takeByte_of_none (h : s.serves .take = none) : takeByteEffect s = s := by
  simp [takeByteEffect, h]

theorem takeByte_of_some (h : s.serves .take = some slot) :
    takeByteEffect s = (s.onJob slot (Job.takeByte s.house)).afterStep slot := by
  simp [takeByteEffect, h]

theorem exec_takeByte {t : State} (h : takeByteEffect s = t) : exec .takeByte s = .next (settle s t) := by
  rw [← h]; rfl

end

end Sys2Proof.Machine
end

section
/-! The byte that TAKE BYTE takes: its class, and the action of a composition code (R49, R57 to R63, R70, R79). -/

namespace Sys2Proof.Machine

open Sys2Proof

/-! ### Words and lines that end -/

theorem endWord_eq (l : LineInProgress) :
    l.endWord = if 0 < countChars l.pending then
      { l with ended := some { items := l.pending, cont := l.pendingCont, hasCont := false }, pending := [], pendingCont := false }
    else { l with pending := [], pendingCont := false } := by
  cases h : countChars l.pending <;> simp [LineInProgress.endWord, h]

/-- A job whose line or paragraph ends, with the action to follow (R58, R62, R63, R79). -/
def Job.lineEnds (j : Job) (paragraph : Bool) (a : CodeAction) : Job := { j with line := j.line.makeEnding paragraph a }

/-- The paragraph end of an exhausted buffer is due (R49, R79). -/
abbrev Job.exhausted (j : Job) : Prop :=
  j.state = .closing ∧ j.finished = false ∧ j.text = [] ∧ j.line.ending = none ∧
    (j.line.glyphs ≠ [] ∨ j.line.pending ≠ [] ∨ j.line.ended ≠ none ∨ j.line.placing ≠ none ∨ j.line.carry ≠ none ∨
      j.line.missing = true)

theorem unheld_isEmpty_iff (l : LineInProgress) :
    ({ l with held := none } : LineInProgress).isEmpty = true ↔ l.glyphs = [] ∧ l.pending = [] ∧ l.ended = none ∧ l.placing = none ∧
      l.carry = none ∧ l.missing = false ∧ l.ending = none := by
  simp only [line_isEmpty_iff, and_true]

theorem exhausted_iff (j : Job) :
    (j.state == .closing && !j.finished && j.text.isEmpty && j.line.ending.isNone &&
      !({ j.line with held := none } : LineInProgress).isEmpty) = true ↔ j.exhausted := by
  simp only [Job.exhausted, Bool.and_eq_true, beq_iff_eq, Bool.not_eq_true', List.isEmpty_iff, Option.isNone_iff_eq_none,
    ← Bool.not_eq_true ({ j.line with held := none } : LineInProgress).isEmpty, unheld_isEmpty_iff, and_assoc]
  refine and_congr_right fun _ => and_congr_right fun _ => and_congr_right fun _ => and_congr_right fun he => ?_
  simp only [he, and_true]
  cases j.line.missing
  · simp only [Bool.false_eq_true, or_false]; tauto
  · simp

theorem exhaust_of_not {j : Job} (h : ¬j.exhausted) : j.exhaust = j := by
  simp only [Job.exhaust, if_neg (mt (exhausted_iff _).1 h)]

theorem exhaust_of_exhausted {j : Job} (h : j.exhausted) : j.exhaust = { j with line := j.line.exhaust } := by
  simp only [Job.exhaust, if_pos ((exhausted_iff _).2 h)]

theorem line_exhaust_eq (l : LineInProgress) :
    l.exhaust = if l.ended = none then l.makeEnding true .nothing
      else { l with ending := some { paragraph := true, action := .nothing, lineSet := false } } := by
  cases h : l.ended <;> simp [LineInProgress.exhaust, h]

/-! ### The classes of a byte -/

/-- The head of the buffer is these bytes, and their taking leaves `k` but for the rest of the buffer. -/
def Job.taken (h : HouseStyle) (j : Job) (bytes : List Byte) (k : Job) : Prop :=
  ∀ rest : List Byte, j.text = bytes ++ rest → j.applyByte h = { k with text := rest }

section
variable (h : HouseStyle) (j : Job)

theorem taken_char {b : Byte} (hb : isCharCode b = true) :
    j.taken h [b] { j with line := j.line.takeChar (.char b j.params.font j.params.size) } := fun rest ht => by
  simp only [Job.applyByte, ht, List.cons_append, List.nil_append, hb, if_true]

theorem takeChar_of_room {l : LineInProgress} (hl : countChars l.pending < 240) (c : WordItem) :
    l.takeChar c = { l with pending := l.pending ++ [c] } := by
  simp [LineInProgress.takeChar, Config.lineGlyphs, hl]

theorem takeChar_of_full {l : LineInProgress} (hl : 240 ≤ countChars l.pending) (c : WordItem) :
    l.takeChar c = { l with
      ended := some { items := l.pending, cont := l.pendingCont, hasCont := true }, pending := [c], pendingCont := true } := by
  simp [LineInProgress.takeChar, Config.lineGlyphs, hl]

theorem taken_space : j.taken h [0x20#8] { j with line := j.line.endWord } := fun rest ht => by
  simp only [Job.applyByte, ht, List.cons_append, List.nil_append]; rfl

theorem taken_mark : j.taken h [0x1F#8] { j with line := { j.line with pending := j.line.pending ++ [.mark] } } := fun rest ht => by
  simp only [Job.applyByte, ht, List.cons_append, List.nil_append]; rfl

theorem taken_return : j.taken h [0x0D#8] (j.lineEnds true .nothing) := fun rest ht => by
  simp only [Job.applyByte, ht, List.cons_append, List.nil_append]; rfl

theorem taken_lineEnd : j.taken h [0x0B#8] (j.lineEnds false .nothing) := fun rest ht => by
  simp only [Job.applyByte, ht, List.cons_append, List.nil_append]; rfl

theorem taken_noClass {b : Byte} (hb : isCharCode b = false) (hn : b ∉ [0x20#8, 0x1F#8, 0x0D#8, 0x0B#8, 0x1B#8]) :
    j.taken h [b] (j.ignore 1) := fun rest ht => by
  simp only [List.mem_cons, List.not_mem_nil, or_false, not_or] at hn
  obtain ⟨h1, h2, h3, h4, h5⟩ := hn
  simp [Job.applyByte, ht, hb, h1, h2, h3, h4, h5, Job.ignore]

/-! ### Composition codes -/

theorem codeLength_iff (letter : Byte) (n : Nat) :
    codeLength letter = some n ↔
      (n = 0 ∧ letter = 0x43#8) ∨ (n = 1 ∧ letter ∈ [0x48#8, 0x47#8, 0x51#8]) ∨
      (n = 2 ∧ letter ∈ [0x46#8, 0x50#8, 0x4C#8, 0x4D#8, 0x42#8, 0x56#8]) ∨ (n = 3 ∧ letter = 0x53#8) ∨
      (n = 4 ∧ letter = 0x49#8) := by
  simp only [List.mem_cons, List.not_mem_nil, or_false, ← BitVec.toNat_inj, BitVec.toNat_ofNat, Nat.reducePow, Nat.reduceMod, codeLength]
  generalize letter.toNat = m
  split
  all_goals simp_all
  all_goals omega

variable {j}

/-- A composition code after its first byte (R59). -/
theorem applyByte_code {c : Byte} {n : Nat} {ps rest : List Byte} (hc : codeLength c = some n) (hn : ps.length = n)
    (ht : j.text = 0x1B#8 :: c :: ps ++ rest) : j.applyByte h = { j with text := rest }.takeCode h c ps := by
  simp only [Job.applyByte, ht, List.cons_append]
  simp [isCharCode, hc, ← hn]

theorem applyByte_unknown {c : Byte} {ps : List Byte} (hc : codeLength c = none) (ht : j.text = 0x1B#8 :: c :: ps) :
    j.applyByte h = { j.ignore 2 with text := ps } := by
  simp [Job.applyByte, ht, isCharCode, hc, Job.ignore]

/-- A code that the end of the buffer cuts short (R49). -/
def cutShort (l : List Byte) : Prop :=
  l = [0x1B#8] ∨
    ∃ (letter : Byte) (n : Nat) (ps : List Byte), l = 0x1B#8 :: letter :: ps ∧ codeLength letter = some n ∧ ps.length < n

theorem applyByte_cutShort (hs : cutShort j.text) : j.applyByte h = { j.ignore j.text.length with text := [] } := by
  rcases hs with ht | ⟨c, n, ps, ht, hc, hn⟩
  · simp [Job.applyByte, ht, isCharCode, Job.ignore]
  · simp [Job.applyByte, ht, isCharCode, hc, Nat.not_le.2 hn, Job.ignore, Nat.add_assoc, Nat.add_comm 2]

theorem not_canTake_of_cutShort {l : List Byte} (hs : cutShort l) : canTake l = false := by
  rcases hs with rfl | ⟨c, n, ps, rfl, hc, hn⟩
  · rfl
  · simp [canTake, hc, hn]

/-- An ACTIVE job waits for the rest of a code (R59). -/
theorem work_of_cutShort (hs : cutShort j.text) (hj : j.state = .active) : j.work ≠ .take := by
  intro hw
  obtain ⟨-, -, -, ht⟩ := (work_iff j).2.2.1 hw
  rw [← takes_iff, not_canTake_of_cutShort hs, hj] at ht
  simp at ht

theorem bne_eq_decide_ne {α : Type} [BEq α] [LawfulBEq α] [DecidableEq α] (a b : α) : (a != b) = decide (a ≠ b) := by
  rw [Bool.eq_iff_iff, bne_iff_ne, decide_eq_true_eq]

@[simp] theorem clampedIf_text (b : Bool) (k : Job) (rest : List Byte) :
    ({ k with text := rest } : Job).clampedIf b = { k.clampedIf b with text := rest } := by
  cases b <;> rfl

/-- The action of a code is that of its letter on the job, whatever follows it in the buffer. -/
theorem taken_code {c : Byte} {n : Nat} {ps : List Byte} {k : Job} (hc : codeLength c = some n) (hn : ps.length = n)
    (hk : ∀ rest : List Byte, ({ j with text := rest } : Job).takeCode h c ps = { k with text := rest }) :
    j.taken h (0x1B#8 :: c :: ps) k := fun rest ht => (applyByte_code h hc hn ht).trans (hk rest)

section
variable (x y z w : Byte)

theorem taken_font : j.taken h [0x1B#8, 0x46#8, x, y]
    (if 1 ≤ pair x y ∧ pair x y ≤ 999 then { j with params := { j.params with font := pair x y } } else j.ignore 4) := by
  refine taken_code h (n := 2) rfl rfl fun rest => ?_
  have hcode : ∀ k : Job, k.takeCode h 0x46#8 [x, y] = if (decide (1 ≤ pair x y) && decide (pair x y ≤ 999)) then
    { k with params := { k.params with font := pair x y } } else k.ignore 4 := fun _ => rfl
  rw [hcode]
  by_cases hv : 1 ≤ pair x y ∧ pair x y ≤ 999
  · rw [if_pos hv, if_pos (by simpa using hv)]
  · rw [if_neg hv, if_neg (by simpa using hv)]; rfl

theorem taken_size : j.taken h [0x1B#8, 0x50#8, x, y]
    ({ j with params := { j.params with size := clampSize h (pair x y) } }.clampedIf (clampSize h (pair x y) ≠ pair x y)) := by
  refine taken_code h (n := 2) rfl rfl fun rest => ?_
  rw [← bne_eq_decide_ne, ← clampedIf_text]; rfl

theorem taken_leading : j.taken h [0x1B#8, 0x4C#8, x, y]
    ({ j with params := { j.params with leading := clampLeading (pair x y) } }.clampedIf (clampLeading (pair x y) ≠ pair x y)) := by
  refine taken_code h (n := 2) rfl rfl fun rest => ?_
  rw [← bne_eq_decide_ne, ← clampedIf_text]; rfl

theorem taken_spaces : j.taken h [0x1B#8, 0x53#8, x, y, z]
    ({ j with params := { j.params with
        spaceMin := (clampSpaces h x.toNat y.toNat z.toNat).1, spaceOpt := (clampSpaces h x.toNat y.toNat z.toNat).2.1
        spaceMax := (clampSpaces h x.toNat y.toNat z.toNat).2.2 } }.clampedIf
      ((clampSpaces h x.toNat y.toNat z.toNat).1 ≠ x.toNat ∨ (clampSpaces h x.toNat y.toNat z.toNat).2.1 ≠ y.toNat ∨
        (clampSpaces h x.toNat y.toNat z.toNat).2.2 ≠ z.toNat)) := by
  refine taken_code h (n := 3) rfl rfl fun rest => ?_
  have hdiffer : (clampSpaces h x.toNat y.toNat z.toNat != (x.toNat, y.toNat, z.toNat)) =
      decide ((clampSpaces h x.toNat y.toNat z.toNat).1 ≠ x.toNat ∨ (clampSpaces h x.toNat y.toNat z.toNat).2.1 ≠ y.toNat ∨
        (clampSpaces h x.toNat y.toNat z.toNat).2.2 ≠ z.toNat) := by
    rw [bne_eq_decide_ne, decide_eq_decide, ne_eq, Prod.ext_iff, Prod.ext_iff, not_and_or, not_and_or]
  rw [← hdiffer, ← clampedIf_text]; rfl

theorem taken_hyphenate : j.taken h [0x1B#8, 0x48#8, x]
    (if x.toNat ≤ 1 then { j with params := { j.params with hyphenate := x.toNat = 1 } } else j.ignore 3) := by
  refine taken_code h (n := 1) rfl rfl fun rest => ?_
  have hcode : ∀ k : Job, k.takeCode h 0x48#8 [x] = if x.toNat ≤ 1 then
    { k with params := { k.params with hyphenate := x.toNat == 1 } } else k.ignore 3 := fun _ => rfl
  rw [hcode]
  split
  · rw [beq_eq_decide]
  · rfl

theorem taken_language : j.taken h [0x1B#8, 0x47#8, x]
    (if x.toNat ≤ 3 then { j with params := { j.params with language := x.toNat } } else j.ignore 3) := by
  refine taken_code h (n := 1) rfl rfl fun rest => ?_
  have hcode : ∀ k : Job, k.takeCode h 0x47#8 [x] = if x.toNat ≤ 3 then
    { k with params := { k.params with language := x.toNat } } else k.ignore 3 := fun _ => rfl
  rw [hcode]
  split <;> rfl

/-- A code of R62 records its value at once where it is the one in force, else after the line. -/
theorem lineCode_eq (k : Job) (rest : List Byte) {p : Prop} [Decidable p] {changed : Bool} (hp : changed = true ↔ ¬p) (a : CodeAction)
    (set : Params → Params) :
    ({ k with text := rest } : Job).lineCode changed a set =
      { (if p then { k with params := set k.params } else k.lineEnds false a) with text := rest } := by
  by_cases h : p
  · rw [Bool.eq_false_iff.2 fun hc => hp.1 hc h, if_pos h]; rfl
  · rw [hp.2 h, if_neg h]; rfl

theorem taken_measure :
    let m := clampMeasure h (pair x y)
    let against := clampIndents m j.params.left j.params.right
    j.taken h [0x1B#8, 0x4D#8, x, y]
      ((if m = j.params.measure then { j with params := { j.params with measure := m, left := against.1, right := against.2 } }
        else j.lineEnds false (.measure m)).clampedIf (m ≠ pair x y ∨ against.1 ≠ j.params.left ∨ against.2 ≠ j.params.right)) := by
  intro m against
  refine taken_code h (n := 2) rfl rfl fun rest => ?_
  have hcode : ∀ k : Job, k.takeCode h 0x4D#8 [x, y] =
    (k.lineCode (m != k.params.measure) (.measure m) (Params.withMeasure m)).clampedIf
      (m != pair x y || (Params.withMeasure m k.params).left != k.params.left ||
        (Params.withMeasure m k.params).right != k.params.right) := fun _ => rfl
  have hcount : (m != pair x y || against.1 != j.params.left || against.2 != j.params.right) =
      decide (m ≠ pair x y ∨ against.1 ≠ j.params.left ∨ against.2 ≠ j.params.right) := by
    rw [Bool.eq_iff_iff]; simp only [Bool.or_eq_true, bne_iff_ne, decide_eq_true_eq, or_assoc]
  rw [hcode, lineCode_eq j rest (p := m = j.params.measure) bne_iff_ne, clampedIf_text, ← hcount]
  rfl

theorem taken_indents :
    let indents := clampIndents j.params.measure (min 12600 (pair x y)) (min 12600 (pair z w))
    j.taken h [0x1B#8, 0x49#8, x, y, z, w]
      ((if indents.1 = j.params.left ∧ indents.2 = j.params.right then j else j.lineEnds false (.indents indents.1 indents.2)).clampedIf
        (indents.1 ≠ pair x y ∨ indents.2 ≠ pair z w)) := by
  intro indents
  refine taken_code h (n := 4) rfl rfl fun rest => ?_
  have hcode : ∀ k : Job, k.params = j.params → k.takeCode h 0x49#8 [x, y, z, w] =
    (k.lineCode (indents != (j.params.left, j.params.right)) (.indents indents.1 indents.2)
      fun p => { p with left := indents.1, right := indents.2 }).clampedIf (indents != (pair x y, pair z w)) := by
    intro k hk
    simp only [indents, ← hk]
    rfl
  have hcount : (indents != (pair x y, pair z w)) = decide (indents.1 ≠ pair x y ∨ indents.2 ≠ pair z w) := by
    rw [bne_eq_decide_ne, decide_eq_decide, ne_eq, Prod.ext_iff, not_and_or]
  have hsame : (if indents.1 = j.params.left ∧ indents.2 = j.params.right then
      { j with params := { j.params with left := indents.1, right := indents.2 } }
      else j.lineEnds false (.indents indents.1 indents.2)) =
      if indents.1 = j.params.left ∧ indents.2 = j.params.right then j else j.lineEnds false (.indents indents.1 indents.2) := by
    split
    · next hp => rw [hp.1, hp.2]
    · rfl
  rw [hcode { j with text := rest } rfl, lineCode_eq j rest (p := indents.1 = j.params.left ∧ indents.2 = j.params.right)
    (by rw [bne_iff_ne, ne_eq, Prod.ext_iff]), clampedIf_text, hcount, hsame]

theorem quadOf_of_code {n : Nat} {q : QuadMode} (hq : n = q.code) : quadOf n = some q := by
  subst hq; cases q <;> rfl

theorem taken_quad {q : QuadMode} (hq : x.toNat = q.code) :
    j.taken h [0x1B#8, 0x51#8, x] (if q = j.params.quad then j else j.lineEnds false (.quad q)) := by
  refine taken_code h (n := 1) rfl rfl fun rest => ?_
  have hcode : ∀ k : Job, k.takeCode h 0x51#8 [x] = match quadOf x.toNat with
    | none => k.ignore 3
    | some q => k.lineCode (q != k.params.quad) (.quad q) fun p => p := fun _ => rfl
  rw [hcode, quadOf_of_code hq]
  exact lineCode_eq j rest (p := q = j.params.quad) bne_iff_ne _ _

theorem taken_quad_skipped (hx : 3 < x.toNat) : j.taken h [0x1B#8, 0x51#8, x] (j.ignore 3) := by
  refine taken_code h (n := 1) rfl rfl fun rest => ?_
  have hcode : ∀ k : Job, k.takeCode h 0x51#8 [x] = match quadOf x.toNat with
    | none => k.ignore 3
    | some q => k.lineCode (q != k.params.quad) (.quad q) fun p => p := fun _ => rfl
  rw [hcode, (quadOf_none_iff _).2 hx]
  rfl

theorem toEu_eq_zero (n : Nat) : toEu n = 0 ↔ n = 0 := by
  rw [toEu]; omega

theorem taken_reverse : j.taken h [0x1B#8, 0x42#8, x, y]
    ((j.lineEnds false (if clampLeading (pair x y) = 0 then .nothing else .move (-(toEu (clampLeading (pair x y)) : Int)))).clampedIf
      (clampLeading (pair x y) ≠ pair x y)) := by
  refine taken_code h (n := 2) rfl rfl fun rest => ?_
  have hcode : ∀ k : Job, k.takeCode h 0x42#8 [x, y] =
    (k.lineEnds false (if toEu (clampLeading (pair x y)) == 0 then .nothing
      else .move (-(toEu (clampLeading (pair x y)) : Int)))).clampedIf (clampLeading (pair x y) != pair x y) := fun _ => rfl
  rw [hcode, ← clampedIf_text]
  simp only [beq_iff_eq, toEu_eq_zero, bne_eq_decide_ne]
  rfl

theorem taken_space_down : j.taken h [0x1B#8, 0x56#8, x, y]
    ((j.lineEnds false (if clampLeading (pair x y) = 0 then .nothing else .move (toEu (clampLeading (pair x y)) : Nat))).clampedIf
      (clampLeading (pair x y) ≠ pair x y)) := by
  refine taken_code h (n := 2) rfl rfl fun rest => ?_
  have hcode : ∀ k : Job, k.takeCode h 0x56#8 [x, y] =
    (k.lineEnds false (if toEu (clampLeading (pair x y)) == 0 then .nothing
      else .move (toEu (clampLeading (pair x y)) : Nat))).clampedIf (clampLeading (pair x y) != pair x y) := fun _ => rfl
  rw [hcode, ← clampedIf_text]
  simp only [beq_iff_eq, toEu_eq_zero, bne_eq_decide_ne]
  rfl

theorem taken_cut : j.taken h [0x1B#8, 0x43#8] (j.lineEnds false .cut) :=
  taken_code h (n := 0) rfl rfl fun _ => rfl

end

end

end Sys2Proof.Machine
end

section
/-! O27: the byte that TAKE BYTE takes, and the end of its turn. -/

namespace Sys2Proof.Machine

open Sys2Proof

theorem exhaust_eq (j : Job) : j.exhaust = if j.exhausted then
    (if j.line.ended = none then j.lineEnds true .nothing
      else { j with line := { j.line with ending := some { paragraph := true, action := .nothing, lineSet := false } } }) else j := by
  by_cases h : j.exhausted
  · rw [exhaust_of_exhausted h, if_pos h, line_exhaust_eq]
    split <;> rfl
  · rw [exhaust_of_not h, if_neg h]

theorem taken_unknown (h : HouseStyle) {j : Job} {c : Byte} (hc : codeLength c = none) : j.taken h [0x1B#8, c] (j.ignore 2) :=
  fun _ ht => applyByte_unknown h hc ht

/-- Settles O27: the order of work from the cases of `Job.work`, then one `taken_` rule per class of byte and per code. -/
theorem takeByteAppliesTheClass : Obligations.TakeByteAppliesTheClass := by
  unfold Obligations.TakeByteAppliesTheClass
  refine ⟨fun s => ⟨fun hs => exec_takeByte (takeByte_of_none hs), fun slot hs => exec_takeByte (takeByte_of_some hs)⟩, ?_, ?_⟩
  · intro s slot j l places takes composing
    obtain ⟨hplace, hset, htake⟩ := work_iff j
    refine ⟨hplace, hset, htake, fun w => serves_iff s w slot, line_isEmpty_iff l, fun hlt => ⟨fun he => ?_, afterStep_of_idle,
      afterStep_of_work⟩, rfl, restatus_of_not_composing, fun hc hf => ⟨restatus_of_held hc hf, restatus_of_fontStalled hc hf,
        fun hheld h1 h2 => ⟨restatus_of_work hc hf hheld h1 h2, restatus_of_no_work hc hf hheld h1 h2⟩⟩⟩
    exact afterStep_of_ends hlt he
  · intro h j p wordEnds lineEnds skipped counted taken
    have hword : LineInProgress.endWord = wordEnds := funext endWord_eq
    have hline : j.lineEnds = lineEnds := by
      funext paragraph a
      simp only [Job.lineEnds, LineInProgress.makeEnding, hword, lineEnds]
    rw [← hline, ← hword]
    refine ⟨rfl, exhaust_eq j, ?_, ?_, taken_space h j, taken_mark h j, taken_return h j, taken_lineEnd h j,
      fun b hb hn => taken_noClass h j hb hn, fun x y z w => ?_, fun c hc => taken_unknown h hc, codeLength_iff, ?_⟩
    · intro b hb hroom
      exact takeChar_of_room hroom _ ▸ taken_char h j hb
    · intro b hb hfull
      exact takeChar_of_full hfull _ ▸ taken_char h j hb
    · exact ⟨taken_font h x y, taken_size h x y, taken_leading h x y, taken_spaces h x y z, taken_hyphenate h x, taken_language h x,
        taken_measure h x y, taken_indents h x y z w, fun q hq => taken_quad h x hq, taken_quad_skipped h x, taken_reverse h x y,
        taken_space_down h x y, taken_cut h⟩
    · rintro short hs rfl
      exact ⟨applyByte_cutShort h hs, work_of_cutShort hs⟩

end Sys2Proof.Machine
end

section
/-! CLOSE JOB (R49), and what an abort takes from the job, the queue and the print list (R51, R52, R139, R188). -/

namespace Sys2Proof.Machine

open Sys2Proof

section
variable {s : State} {slot id : Nat}

/-! ### CLOSE JOB -/

theorem closeJob_range (h : 3 < slot) : closeJobEffect slot id s = refuse .range s := by
  simp [closeJobEffect, h]

theorem closeJob_state (hslot : slot ≤ 3) (h : (s.job slot).state ≠ .active ∨ (s.job slot).id ≠ id) :
    closeJobEffect slot id s = refuse .state s := by
  have hb : ((s.job slot).state != .active || (s.job slot).id != id) = true := by simpa using h
  simp only [closeJobEffect, if_neg (Nat.not_lt.2 hslot), hb, if_true]

/-- A job whose composition is finished where it is found to end (R49). -/
def Job.finish (j : Job) : Job :=
  if j.state == .closing && !j.finished && j.text.isEmpty && j.line.isEmpty then { j with finished := true } else j

theorem finish_of_ends {j : Job} (h : j.ends) : j.finish = { j with finished := true } := if_pos ((ends_iff j).2 h)

theorem finish_of_not_ends {j : Job} (h : ¬j.ends) : j.finish = j := if_neg (mt (ends_iff j).1 h)

theorem finishComposition_eq_set (hlt : slot < s.jobs.length) :
    s.finishComposition slot = { s with jobs := s.jobs.set slot (s.job slot).finish } := by
  by_cases h : (s.job slot).ends
  · rw [finishComposition_of_ends h, onJob_eq_set hlt, finish_of_ends h]
  · rw [finishComposition_of_not_ends h, finish_of_not_ends h]
    have hset : s.jobs.set slot (s.job slot) = s.jobs := by
      rw [State.job, List.getD_eq_getElem _ _ hlt, List.set_getElem_self]
    rw [hset]

/-- A status set for one job: nothing else changes but the link, which may raise JOB STALLED (R41). -/
theorem setStatus_frame (s : State) (slot : Nat) (c : CompStatus) :
    ({ s.setStatus slot c with link := s.link } : State) = s.onJob slot fun j => { j with status := c } := by
  by_cases h : (∃ r, c = .stalled r) ∧ c ≠ (s.job slot).status
  · rw [setStatus_of_change h.1 h.2]; rfl
  · rw [setStatus_of_no_change (by by_contra hn; push Not at hn; exact h hn)]; rfl

theorem restatus_frame (hlt : slot < s.jobs.length) :
    ∃ c, ({ s.restatus slot with link := s.link } : State) = s.onJob slot fun j => { j with status := c } := by
  have hkeep : ∃ c, ({ s with link := s.link } : State) = s.onJob slot fun j => { j with status := c } := by
    refine ⟨(s.job slot).status, ?_⟩
    rw [onJob_eq_set hlt]
    change s = { s with jobs := s.jobs.set slot (s.job slot) }
    rw [State.job, List.getD_eq_getElem _ _ hlt, List.set_getElem_self]
  simp only [State.restatus]
  split
  · exact hkeep
  · split
    · exact ⟨_, setStatus_frame s slot _⟩
    · split
      · exact hkeep
      · split <;> exact ⟨_, setStatus_frame s slot _⟩

/-- A job that CLOSE JOB closes, but for its status (R49). -/
def Job.closed (j : Job) : Job := ({ j with state := .closing } : Job).exhaust.finish

theorem closeJob_done (hlt : slot < s.jobs.length) (hslot : slot ≤ 3) (hs : (s.job slot).state = .active) (hid : (s.job slot).id = id) :
    ∃ t c, closeJobEffect slot id s = done t ∧ t.link.frameBegun = s.link.frameBegun ∧
      ({ t with link := s.link, jobs := s.jobs } : State) = s ∧ t.jobs = s.jobs.set slot { (s.job slot).closed with status := c } := by
  have hb : ¬((s.job slot).state != .active || (s.job slot).id != id) = true := by simp [hs, hid]
  have hu : (s.onJob slot fun j => ({ j with state := .closing } : Job).exhaust).finishComposition slot =
      { s with jobs := s.jobs.set slot (s.job slot).closed } := by
    rw [finishComposition_eq_set (by simpa using hlt), State.job_onJob_self s _ hlt, onJob_eq_set hlt]
    simp only [List.set_set]; rfl
  generalize hv : ({ s with jobs := s.jobs.set slot (s.job slot).closed } : State) = v at hu
  have hvlt : slot < v.jobs.length := by rw [← hv]; simpa using hlt
  have hvjob : v.job slot = (s.job slot).closed := by rw [← hv]; simp [State.job, List.getD_eq_getElem?_getD, hlt]
  obtain ⟨c, hc⟩ := restatus_frame hvlt
  have hjobs : (v.restatus slot).jobs = v.jobs.set slot { (s.job slot).closed with status := c } := by
    rw [← hvjob]
    exact (congrArg State.jobs hc).trans (congrArg State.jobs (onJob_eq_set hvlt _))
  refine ⟨v.restatus slot, c, by rw [closeJobEffect, if_neg (Nat.not_lt.2 hslot), if_neg hb, hu], ?_, ?_, ?_⟩
  · simp [← hv]
  · have := congrArg (fun u : State => { u with link := s.link, jobs := s.jobs }) hc
    refine this.trans ?_
    rw [← hv]; rfl
  · rw [hjobs, ← hv, List.set_set]

theorem closed_of_not_exhausted {j : Job} (h : j.text ≠ [] ∨ j.line.isEmpty = true ∨ j.line.ending.isSome = true) :
    j.closed = { j with state := .closing, finished := j.finished || (j.text.isEmpty && j.line.isEmpty) } := by
  have hnot : ¬({ j with state := .closing } : Job).exhausted := by
    rintro ⟨-, -, htext, hending, hrest⟩
    rcases h with h | h | h
    · exact h htext
    · obtain ⟨h1, h2, h3, h4, h5, h6, -⟩ := (line_isEmpty_iff _).1 h
      simp [h1, h2, h3, h4, h5, h6] at hrest
    · change j.line.ending = none at hending
      simp [hending] at h
  rw [Job.closed, exhaust_of_not hnot]
  by_cases he : j.finished = false ∧ j.text = [] ∧ j.line.isEmpty = true
  · obtain ⟨h1, h2, h3⟩ := he
    rw [finish_of_ends (j := { j with state := .closing }) ⟨rfl, h1, h2, h3⟩]
    simp [h2, h3]
  · rw [finish_of_not_ends (j := { j with state := .closing }) fun hends => he hends.2]
    have hf : (j.finished || (j.text.isEmpty && j.line.isEmpty)) = j.finished := by
      cases hf : j.finished
      · simpa [hf] using he
      · rfl
    rw [hf]

theorem closed_of_exhausted {j : Job} (hf : j.finished = false) (ht : j.text = []) (he : j.line.ending = none)
    (hl : ({ j.line with held := none } : LineInProgress).isEmpty = false) :
    j.closed = { j with state := .closing, line := j.line.exhaust } := by
  have hex : ({ j with state := .closing } : Job).exhausted := by
    refine (exhausted_iff _).1 ?_
    simp only [Bool.and_eq_true]
    exact ⟨⟨⟨⟨rfl, by simp [hf]⟩, by simp [ht]⟩, by simp [he]⟩, congrArg not hl⟩
  rw [Job.closed, exhaust_of_exhausted hex]
  refine finish_of_not_ends ?_
  rintro ⟨-, -, -, hempty⟩
  obtain ⟨-, -, -, -, -, -, hnone, -⟩ := (line_isEmpty_iff _).1 hempty
  simp only [line_exhaust_eq, LineInProgress.makeEnding] at hnone
  split at hnone <;> simp at hnone

theorem closed_of_held {j : Job} (hh : j.line.held.isSome = true)
    (hl : ({ j.line with held := none } : LineInProgress).isEmpty = true) : j.closed = { j with state := .closing } := by
  have hnot : ¬({ j with state := .closing } : Job).exhausted := by
    intro hex
    have := (exhausted_iff _).2 hex
    simp [hl] at this
  rw [Job.closed, exhaust_of_not hnot]
  refine finish_of_not_ends ?_
  rintro ⟨-, -, -, hempty⟩
  obtain ⟨-, -, -, -, -, -, -, hnone⟩ := (line_isEmpty_iff _).1 hempty
  change j.line.held = none at hnone
  simp [hnone] at hh

/-- What the end of the paragraph leaves of a line: an ending due, and the pending word ended where none had ended before (R70, R79). -/
theorem line_exhaust_fields (l : LineInProgress) :
    l.exhaust.ending = some { paragraph := true, action := .nothing, lineSet := false } ∧ l.exhaust.glyphs = l.glyphs ∧
    l.exhaust.carry = l.carry ∧ l.exhaust.placing = l.placing ∧
    (0 < countChars l.pending → l.ended = none →
      l.exhaust.ended = some { items := l.pending, cont := l.pendingCont, hasCont := false }) := by
  rw [line_exhaust_eq]
  by_cases hended : l.ended = none
  · simp only [hended, if_true, LineInProgress.makeEnding, endWord_eq]
    by_cases hp : 0 < countChars l.pending <;> simp [hp]
  · simp [hended]

end

end Sys2Proof.Machine
end

section
/-! What an abort takes from the queue and the print list (R51, R139, R188), and the mark it offers (R52). -/

namespace Sys2Proof.Machine

open Sys2Proof

/-! ### The print list of a cancelled entry -/

/-- A print list without the lines that fail a test, the head excepted where it has been begun (R188). -/
def keepBegun (begun : Bool) (q : PrintLine → Bool) (l : List PrintLine) : List PrintLine :=
  (if begun then l.take 1 else []) ++ ((if begun then l.drop 1 else l).filter q)

theorem keepBegun_keepBegun (b : Bool) (q r : PrintLine → Bool) (l : List PrintLine) :
    keepBegun b r (keepBegun b q l) = keepBegun b (fun x => q x && r x) l := by
  cases b
  · simp [keepBegun, List.filter_filter, Bool.and_comm]
  · cases l <;> simp [keepBegun, List.filter_filter, Bool.and_comm]

theorem keepBegun_true (b : Bool) (l : List PrintLine) : keepBegun b (fun _ => true) l = l := by
  cases b <;> cases l <;> simp [keepBegun]

theorem keepBegun_sublist (b : Bool) (q : PrintLine → Bool) (l : List PrintLine) : (keepBegun b q l).Sublist l := by
  cases b
  · simp [keepBegun]
  · cases l <;> simp [keepBegun]

theorem follow_list (p : Proof) : p.follow.list = p.list := by
  simp only [Proof.follow]; split_ifs <;> rfl

theorem follow_begun (p : Proof) : p.follow.begun = p.begun := by
  simp only [Proof.follow]; split_ifs <;> rfl

/-- A line is not that of an entry. -/
def PrintLine.isNot (serial : Nat) (l : PrintLine) : Bool := l.kind != .entry serial

theorem isEntry_of_not_isNot {l : PrintLine} {n : Nat} (h : l.kind = .entry n) : l.isEntry = true := by
  rw [PrintLine.isEntry, h]

/-- No other line is an entry's where the head is one. -/
theorem filter_isNot_tail {h : PrintLine} {rest : List PrintLine} {n : Nat} (hh : h.kind = .entry n)
    (hc : (h :: rest).countP PrintLine.isEntry ≤ 1) (m : Nat) : rest.filter (PrintLine.isNot m) = rest := by
  rw [List.countP_cons_of_pos (isEntry_of_not_isNot hh)] at hc
  have h0 : rest.countP PrintLine.isEntry = 0 := by omega
  refine List.filter_eq_self.2 fun l hl => bne_iff_ne.2 fun hk => ?_
  exact List.countP_eq_zero.1 h0 l hl (isEntry_of_not_isNot hk)

theorem cancelLine_begun (p : Proof) (n : Nat) : (p.cancelLine n).begun = p.begun := by
  simp only [Proof.cancelLine]
  split
  · rfl
  · split
    · split
      · rfl
      · next hb => simpa [Proof.dropHead, follow_begun] using hb
    · exact follow_begun _

theorem cancelLine_list {p : Proof} (n : Nat) (hc : p.list.countP PrintLine.isEntry ≤ 1) :
    (p.cancelLine n).list = keepBegun p.begun (PrintLine.isNot n) p.list := by
  cases hl : p.list with
  | nil => cases hb : p.begun <;> simp [Proof.cancelLine, hl, keepBegun]
  | cons h rest =>
    rw [hl] at hc
    by_cases hh : h.kind = .entry n
    · have htail := filter_isNot_tail hh hc n
      have hnot : h.isNot n = false := by simp [PrintLine.isNot, hh]
      cases hb : p.begun <;> simp [Proof.cancelLine, hl, hh, hb, keepBegun, hnot, htail, Proof.dropHead, follow_list]
    · have hnot : h.isNot n = true := by simpa [PrintLine.isNot] using hh
      have hcancel : (p.cancelLine n).list = h :: rest.filter (PrintLine.isNot n) := by
        simp [Proof.cancelLine, hl, hh, follow_list]; rfl
      cases hb : p.begun <;> simp [hcancel, keepBegun, hnot]

/-! ### The entries cancelled -/

section
variable {s : State} {slot id : Nat}

theorem cancelEntry_entries (s : State) (e : Entry) :
    (s.cancelEntry e).queue.entries = s.queue.entries.filter (·.serial != e.serial) := by
  rw [← removeEntry_entries]
  simp only [State.cancelEntry]; split <;> rfl

theorem cancelAll_entries (l : List Entry) (s : State) :
    (l.foldl State.cancelEntry s).queue.entries = s.queue.entries.filter fun e => l.all fun x => e.serial != x.serial := by
  induction l generalizing s with
  | nil => simp
  | cons x l ih =>
    rw [List.foldl_cons, ih, cancelEntry_entries, List.filter_filter]
    exact List.filter_congr fun e _ => by rw [List.all_cons, Bool.and_comm]

/-- The lines that the cancelled entries leave in the print list. -/
def PrintLine.stays (gone : List Entry) (l : PrintLine) : Bool :=
  gone.all fun e => !(e.proof == .inPrint) || l.isNot e.serial

theorem cancelAll_proof (l : List Entry) (s : State) (hc : s.proof.list.countP PrintLine.isEntry ≤ 1) :
    (l.foldl State.cancelEntry s).proof.list = keepBegun s.proof.begun (PrintLine.stays l) s.proof.list := by
  induction l generalizing s with
  | nil => exact (keepBegun_true _ _).symm
  | cons e l ih =>
    have hrem : (s.removeEntry e).proof = s.proof := by simp
    have hstep : (s.cancelEntry e).proof.list =
        keepBegun s.proof.begun (fun x => !(e.proof == .inPrint) || x.isNot e.serial) s.proof.list ∧
        (s.cancelEntry e).proof.begun = s.proof.begun := by
      rw [cancelEntry_proof, hrem]
      by_cases hp : e.proof = .inPrint
      · simp only [hp, if_true, cancelLine_list _ hc, cancelLine_begun, beq_self_eq_true, Bool.not_true, Bool.false_or, and_true]
      · have htrue : (fun x : PrintLine => !(e.proof == .inPrint) || x.isNot e.serial) = fun _ => true := by
          funext x; simp [hp]
        simp only [if_neg hp, htrue, keepBegun_true, and_self]
    obtain ⟨hlist, hbegun⟩ := hstep
    have hc' : (s.cancelEntry e).proof.list.countP PrintLine.isEntry ≤ 1 := by
      rw [hlist]; exact ((keepBegun_sublist _ _ _).countP_le).trans hc
    rw [List.foldl_cons, ih _ hc', hlist, hbegun, keepBegun_keepBegun]
    rfl

theorem mem_cancellable_iff (s : State) (slot : Nat) (e : Entry) :
    e ∈ s.cancellable slot ↔
      e ∈ s.queue.entries ∧ (e.attributed = true ∧ e.slot = slot ∧ e.jobId = (s.job slot).id) ∧ e.expo = .waiting := by
  simp only [State.cancellable, List.mem_filter, State.ownedBy, Bool.and_eq_true, beq_iff_eq, and_assoc]

/-! ### The mark -/

theorem offerMark_cases (s : State) (slot : Nat) :
    s.offerMark slot = s ∨ s.offerMark slot = s.appendEntry slot .mark := by
  rw [State.offerMark]
  split
  · exact .inr rfl
  · exact .inl rfl

/-- What offering a mark makes of the state: the mark in the queue and no longer pending, or nothing. -/
theorem offerMark_spec (hlt : slot < s.jobs.length) :
    ∃ m : Bool, (s.offerMark slot).job slot = { s.job slot with markPending := (s.job slot).markPending && !m } ∧
      (∀ n, n ≠ slot → (s.offerMark slot).job n = s.job n) ∧
      (s.offerMark slot).queue.entries = s.queue.entries ++ (if m then [s.newEntry slot .mark] else []) := by
  rcases offerMark_cases s slot with h | h
  · exact ⟨false, by simp [h], fun _ _ => by rw [h], by simp [h]⟩
  · refine ⟨true, ?_, fun n hn => ?_, ?_⟩
    · rw [h, appendEntry_job _ _ hlt]; simp [Job.appended]
    · rw [h, appendEntry_job_ne _ _ hn]
    · rw [h, appendEntry_queue]; rfl

/-! ### ABORT JOB -/

theorem abortJob_range (h : 3 < slot) : abortJobEffect slot id s = refuse .range s := by
  simp [abortJobEffect, h]

theorem abortJob_state (hslot : slot ≤ 3)
    (h : ((s.job slot).state ≠ .active ∧ (s.job slot).state ≠ .closing) ∨ (s.job slot).id ≠ id) :
    abortJobEffect slot id s = refuse .state s := by
  have hb : (!(s.job slot).composing || (s.job slot).id != id) = true := by simpa [Job.composing] using h
  simp only [abortJobEffect, if_neg (Nat.not_lt.2 hslot), hb, if_true]

/-- A job that is aborted, with its mark pending where the policy wants one (R51, R52). -/
def Job.aborted (marked : Bool) (j : Job) : Job :=
  { j with state := .aborting, status := .waitingText, finished := false, text := [], paragraphMark := false, markPending := marked
           line := LineInProgress.empty }

/-- An abort before its mark is offered: the job, the queue and the words. -/
def State.abandoned (s : State) (slot : Nat) : State :=
  (retireWhere (isJobWord slot (s.job slot).id) ((s.cancellable slot).foldl State.cancelEntry (s.discardLine slot))).onJob slot fun j =>
    { j with state := .aborting, status := .waitingText, finished := false, text := [], paragraphMark := false
             markPending := (s.job slot).params.policy != .none }

/-- The turn of an aborted job ends (R51). -/
def State.leaveTurn (s : State) (slot : Nat) : State :=
  if s.engine.serving == some slot then s.onEngine fun _ => { serving := none, pointer := (slot + 1) % 4 } else s

theorem leaveTurn_eq (s : State) (slot : Nat) : s.leaveTurn slot = { s with engine := (s.leaveTurn slot).engine } := by
  simp only [State.leaveTurn]; split <;> rfl

theorem leaveTurn_serving (s : State) (slot : Nat) : (s.leaveTurn slot).engine.serving ≠ some slot := by
  simp only [State.leaveTurn]
  split
  · exact nofun
  · next h => simpa using h

/-- The state before the mark is offered. -/
def State.beforeMark (s : State) (slot : Nat) : State := ((s.abandoned slot).leaveTurn slot).testLow.recomputeHeads

/-- The state that an abort leaves before the blocks react. -/
def State.afterAbort (s : State) (slot : Nat) : State := (s.beforeMark slot).offerMark slot

theorem abortJob_done (hslot : slot ≤ 3) (hs : (s.job slot).state = .active ∨ (s.job slot).state = .closing)
    (hid : (s.job slot).id = id) :
    abortJobEffect slot id s = done (s.afterAbort slot) := by
  have hb : ¬(!(s.job slot).composing || (s.job slot).id != id) = true := by
    simp [(composing_iff _).2 hs, hid]
  simp only [abortJobEffect, if_neg (Nat.not_lt.2 hslot), if_neg hb]
  rfl

theorem beforeMark_jobs (s : State) (slot : Nat) :
    (s.beforeMark slot).jobs = s.jobs.modify slot (Job.aborted ((s.job slot).params.policy != .none)) := by
  rw [State.beforeMark, leaveTurn_eq]
  simp only [recomputeHeads_keeps, testLow_keeps, State.abandoned, State.onJob, retireWhere_jobs, cancelAll_keeps, discardLine_jobs,
    List.modify_modify_eq]
  rfl

theorem beforeMark_job (hlt : slot < s.jobs.length) :
    (s.beforeMark slot).job slot = (s.job slot).aborted ((s.job slot).params.policy != .none) := by
  simp [State.job, beforeMark_jobs, List.getD_eq_getElem?_getD, hlt]

theorem beforeMark_job_ne {n : Nat} (h : n ≠ slot) : (s.beforeMark slot).job n = s.job n := by
  simp [State.job, beforeMark_jobs, List.getD_eq_getElem?_getD, h.symm]

theorem beforeMark_entries (s : State) (slot : Nat) :
    (s.beforeMark slot).queue.entries =
      s.queue.entries.filter fun e => (s.cancellable slot).all fun x => e.serial != x.serial := by
  rw [State.beforeMark, leaveTurn_eq]
  have hq : (s.discardLine slot).queue = s.queue := by simp
  simp only [recomputeHeads_keeps, testLow_keeps, State.abandoned, State.onJob, retireWhere_queue, cancelAll_entries, hq]

theorem beforeMark_dict (s : State) (slot : Nat) :
    (s.beforeMark slot).dict = s.dict.filter fun e => !isJobWord slot (s.job slot).id e := by
  rw [State.beforeMark, leaveTurn_eq]
  simp [State.abandoned, State.onJob]

theorem beforeMark_list (hc : s.proof.list.countP PrintLine.isEntry ≤ 1) :
    (s.beforeMark slot).proof.list = keepBegun s.proof.begun (PrintLine.stays (s.cancellable slot)) s.proof.list := by
  have hp : (s.discardLine slot).proof = s.proof := by simp
  rw [State.beforeMark, leaveTurn_eq]
  simp only [recomputeHeads_keeps, testLow_keeps, State.abandoned, State.onJob, retireWhere_proof]
  rw [cancelAll_proof _ _ (by rw [hp]; exact hc), hp]

theorem beforeMark_serving (s : State) (slot : Nat) : (s.beforeMark slot).engine.serving ≠ some slot := by
  have h : (s.beforeMark slot).engine = ((s.abandoned slot).leaveTurn slot).engine := by
    simp only [State.beforeMark, recomputeHeads_keeps, testLow_keeps]
  rw [h]
  exact leaveTurn_serving _ _

theorem beforeMark_keeps (s : State) (slot : Nat) :
    (s.beforeMark slot).house = s.house ∧ (s.beforeMark slot).galleyOrder = s.galleyOrder ∧
    (s.beforeMark slot).languages = s.languages ∧ (s.beforeMark slot).film = s.film ∧
    (s.beforeMark slot).link = s.link := by
  rw [State.beforeMark, leaveTurn_eq]
  simp [State.abandoned, State.onJob]

end

end Sys2Proof.Machine
end

section
/-! O24: CLOSE JOB and ABORT JOB. -/

namespace Sys2Proof.Machine

open Sys2Proof

section
variable {s t : State} {i : Instr} {tag : Byte} {e : Effect} {f : State → State → List Byte} {slot id : Nat}

theorem exec_settledReply_done (ha : s.accepting) (hs : i.shapeOk = true) (hi : effectOf i = some (tag, settledReply e f))
    (he : e s.received = done t) (hf : t.link.frameBegun = false) :
    exec i s = .next ((settle s.received t).answered (replyWith i tag .done (f s.received (settle s.received t)))) := by
  rw [exec_of_effectOf hi, accept_settledReply_eq_answered ha hs he ((settle_frameBegun _ _).trans hf) rfl]
  rfl

theorem exec_settledReply_refused {st : Status} (ha : s.accepting) (hs : i.shapeOk = true)
    (hi : effectOf i = some (tag, settledReply e f)) (hst : st ≠ .done) (he : e s.received = refuse st s.received) :
    exec i s = .next ((settle s.received s.received).answered (plainReply i tag st)) := by
  rw [exec_of_effectOf hi, accept_settledReply_eq_answered ha hs he (settle_frameBegun _ _) rfl, if_neg hst]
  rfl

/-- The fields of the reply of ABORT JOB (R51), of the state at the end of its event. -/
theorem abortReply_eq (v : State) :
    abortReply slot s v = num1 (s.cancellable slot).length ++ num2 (s.dict.countP (isJobWord slot (s.job slot).id)) ++
      (if (s.job slot).params.policy = .none then num1 0 else num1 1 ++ num1 (if (v.job slot).markPending then 1 else 0)) := by
  by_cases h : (s.job slot).params.policy = .none <;> simp [abortReply, optOf, h]

theorem afterAbort_keeps (s : State) (slot : Nat) :
    (s.afterAbort slot).house = s.house ∧ (s.afterAbort slot).galleyOrder = s.galleyOrder ∧
    (s.afterAbort slot).languages = s.languages ∧ (s.afterAbort slot).film = s.film ∧
    (s.afterAbort slot).link.frameBegun = s.link.frameBegun := by
  obtain ⟨hhouse, horder, hlang, hfilm, hlink⟩ := beforeMark_keeps s slot
  simp [State.afterAbort, hhouse, horder, hlang, hfilm, hlink]

theorem afterAbort_dict (s : State) (slot : Nat) :
    (s.afterAbort slot).dict = s.dict.filter fun e => !isJobWord slot (s.job slot).id e := by
  rw [← beforeMark_dict]; simp [State.afterAbort]

theorem afterAbort_serving (s : State) (slot : Nat) : (s.afterAbort slot).engine.serving ≠ some slot := by
  have h : (s.afterAbort slot).engine = (s.beforeMark slot).engine := by simp [State.afterAbort]
  rw [h]; exact beforeMark_serving s slot

theorem afterAbort_list (hc : s.proof.list.countP PrintLine.isEntry ≤ 1) :
    (s.afterAbort slot).proof.list =
      (if s.proof.begun then s.proof.list.take 1 else []) ++
        ((if s.proof.begun then s.proof.list.drop 1 else s.proof.list).filter fun l =>
          ∀ e ∈ s.cancellable slot, e.proof = .inPrint → l.kind ≠ .entry e.serial) := by
  have h : (s.afterAbort slot).proof = (s.beforeMark slot).proof := by simp [State.afterAbort]
  rw [h, beforeMark_list hc, keepBegun]
  refine congrArg _ (List.filter_congr fun l _ => ?_)
  rw [Bool.eq_iff_iff, decide_eq_true_eq]
  simp [PrintLine.stays, PrintLine.isNot, imp_iff_not_or]

/-- The entries that stay: all but those of a serial cancelled. -/
theorem mem_beforeMark_iff (e : Entry) :
    e ∈ (s.beforeMark slot).queue.entries ↔ e ∈ s.queue.entries ∧ ∀ x ∈ s.cancellable slot, e.serial ≠ x.serial := by
  rw [beforeMark_entries, List.mem_filter, List.all_eq_true]
  simp

theorem mem_beforeMark_of_not_cancellable (hnd : (s.queue.entries.map (·.serial)).Nodup) {e : Entry} (he : e ∈ s.queue.entries)
    (hn : e ∉ s.cancellable slot) : e ∈ (s.beforeMark slot).queue.entries := by
  refine (mem_beforeMark_iff e).2 ⟨he, fun x hx hser => hn ?_⟩
  rwa [List.inj_on_of_nodup_map hnd he ((mem_cancellable_iff s slot x).1 hx).1 hser]

/-- The entries, the job and its mark after an abort (R51, R52, R139). -/
theorem afterAbort_spec (hlt : slot < s.jobs.length) :
    ∃ m : Bool,
      (s.afterAbort slot).job slot =
        (s.job slot).aborted (decide ((s.job slot).params.policy ≠ .none) && !m) ∧
      (∀ n, n ≠ slot → (s.afterAbort slot).job n = s.job n) ∧
      (∀ e, e ∈ (s.afterAbort slot).queue.entries ↔
        e ∈ (s.beforeMark slot).queue.entries ∨ (m = true ∧ e = (s.beforeMark slot).newEntry slot .mark)) := by
  have hlt' : slot < (s.beforeMark slot).jobs.length := by simpa [beforeMark_jobs] using hlt
  have hpolicy : ((s.job slot).params.policy != .none) = decide ((s.job slot).params.policy ≠ .none) := bne_eq_decide_ne _ _
  obtain ⟨m, hjob, hne, hent⟩ := offerMark_spec hlt'
  rw [beforeMark_job hlt, hpolicy] at hjob
  refine ⟨m, hjob, fun n hn => (hne n hn).trans (beforeMark_job_ne hn), fun e => ?_⟩
  rw [State.afterAbort, hent, List.mem_append]
  cases m <;> simp

/-- The job that an abort leaves (R51, R52). -/
theorem afterAbort_job (hlt : slot < s.jobs.length) :
    ((s.afterAbort slot).job slot).state = .aborting ∧ ((s.afterAbort slot).job slot).id = (s.job slot).id ∧
    ((s.afterAbort slot).job slot).text = [] ∧ ((s.afterAbort slot).job slot).line = LineInProgress.empty ∧
    ((s.afterAbort slot).job slot).params = (s.job slot).params ∧
    ((s.job slot).params.policy = .none → ((s.afterAbort slot).job slot).markPending = false) ∧
    ∀ n, n ≠ slot → (s.afterAbort slot).job n = s.job n := by
  obtain ⟨m, hjob, hne, -⟩ := afterAbort_spec hlt
  rw [hjob]
  refine ⟨rfl, rfl, rfl, rfl, rfl, fun hp => ?_, hne⟩
  simp [Job.aborted, hp]

/-- The entries that an abort leaves (R51, R52, R139). -/
theorem afterAbort_entries (hlt : slot < s.jobs.length) :
    ((s.queue.entries.map (·.serial)).Nodup →
      ∀ e ∈ s.queue.entries, e ∉ s.cancellable slot → e ∈ (s.afterAbort slot).queue.entries) ∧
    (∀ e ∈ (s.afterAbort slot).queue.entries,
      e ∈ s.queue.entries ∨ (e.body = .mark ∧ e.slot = slot ∧ e.jobId = (s.job slot).id)) ∧
    (∀ e ∈ (s.afterAbort slot).queue.entries, (s.afterAbort slot).ownedBy slot e = true → e.expo ≠ .waiting) ∧
    ((s.job slot).params.policy ≠ .none → ((s.afterAbort slot).job slot).markPending = false →
      ∃ e ∈ (s.afterAbort slot).queue.entries, e.body = .mark ∧ e.slot = slot ∧ e.jobId = (s.job slot).id) := by
  obtain ⟨m, hjob, -, hent⟩ := afterAbort_spec hlt
  have hmark : ((s.beforeMark slot).newEntry slot .mark).jobId = (s.job slot).id := by
    change ((s.beforeMark slot).job slot).id = _
    rw [beforeMark_job hlt]; rfl
  refine ⟨fun hnd e he hn => (hent e).2 (.inl (mem_beforeMark_of_not_cancellable hnd he hn)), fun e he => ?_, fun e he ho hw => ?_,
    fun hp hpending => ⟨_, (hent _).2 (.inr ⟨?_, rfl⟩), rfl, rfl, hmark⟩⟩
  · obtain he | ⟨-, rfl⟩ := (hent e).1 he
    · exact .inl ((mem_beforeMark_iff e).1 he).1
    · exact .inr ⟨rfl, rfl, hmark⟩
  · obtain he | ⟨-, rfl⟩ := (hent e).1 he
    · obtain ⟨hmem, hall⟩ := (mem_beforeMark_iff e).1 he
      simp only [State.ownedBy, hjob, Bool.and_eq_true, beq_iff_eq, and_assoc] at ho
      exact hall e ((mem_cancellable_iff s slot e).2 ⟨hmem, ho, hw⟩) rfl
    · cases hw
  · simpa [hjob, Job.aborted, hp] using hpending

end

/-- Settles O24: the refusals, the job that a close leaves, and what an abort takes from the job, the queue and the print list. -/
theorem closeAndAbortJob : Obligations.CloseAndAbortJob := by
  unfold Obligations.CloseAndAbortJob
  intro s tag slot id ha rc j
  refine ⟨⟨fun h => exec_settled_refused ha rfl rfl (closeJob_range h),
    fun hslot h => exec_settled_refused ha rfl rfl (closeJob_state hslot h), fun hlt hslot hst hid => ?_⟩,
    fun h => exec_settledReply_refused ha rfl rfl nofun (abortJob_range h),
    fun hslot h => exec_settledReply_refused ha rfl rfl nofun (abortJob_state hslot h), fun hlt hslot hst hid => ?_⟩
  · obtain ⟨t, c, he, hframe, hrest, hjobs⟩ := closeJob_done (s := rc) hlt hslot hst hid
    refine ⟨t, { j.closed with status := c }, exec_settled_done ha rfl rfl he hframe, ?_, hjobs, fun h => ?_, fun hf ht hend hl => ?_,
      fun _ _ _ hh hl => ?_⟩
    · exact congrArg (fun u : State => { u with link := s.link }) hrest
    · rw [closed_of_not_exhausted h]
    · rw [closed_of_exhausted hf ht hend hl]
      exact ⟨rfl, line_exhaust_fields j.line⟩
    · rw [closed_of_held hh hl]
  · subst hid
    obtain ⟨hhouse, horder, hlang, hfilm, hframe⟩ := afterAbort_keeps rc slot
    obtain ⟨hstate, hjid, htext, hline, hparams, hpending, hne⟩ := afterAbort_job (s := rc) hlt
    obtain ⟨hstay, hfrom, hown, hmark⟩ := afterAbort_entries (s := rc) hlt
    refine ⟨rc.afterAbort slot, ?_, hstate, hjid, htext, hline, hparams, hpending, hne, afterAbort_dict rc slot, hstay,
      mem_cancellable_iff s slot, hfrom, hown, hmark, fun hc => afterAbort_list hc, afterAbort_serving rc slot, hhouse, horder, hlang, hfilm⟩
    rw [exec_settledReply_done (i := .abortJob tag slot j.id) ha rfl rfl (abortJob_done (s := rc) hslot hst rfl) hframe, abortReply_eq]
    rfl

end Sys2Proof.Machine
end

section
/-! The break of a word that overflows: the candidate it takes, the force it uses, and what it carries (R77, R78, R94, R98, R101). -/

namespace Sys2Proof.Machine

open Sys2Proof

/-! ### The largest of a list -/

theorem foldl_max_eq {l : List Nat} {b k : Nat} (hb : b ≤ k) (hl : ∀ x ∈ l, x ≤ k) (hk : b = k ∨ k ∈ l) : l.foldl max b = k := by
  induction l generalizing b with
  | nil => simpa using hk
  | cons x l ih =>
    obtain ⟨hx, hl⟩ := List.forall_mem_cons.1 hl
    refine ih (max_le hb hx) hl ?_
    rcases hk with rfl | hk
    · exact .inl (max_eq_left hx)
    · rcases List.mem_cons.1 hk with rfl | hk
      · exact .inl (max_eq_right hb)
      · exact .inr hk

/-- Of a list in ascending order the last element with a value is the largest one. -/
theorem findSome?_reverse_of_largest {α β : Type} {pos : α → Nat} {f : α → Option β} {l : List α}
    (hl : (l.map pos).Pairwise (· < ·)) {c : α} {b : β} (hc : c ∈ l) (hf : f c = some b)
    (hmax : ∀ d ∈ l, f d ≠ none → pos d ≤ pos c) : l.reverse.findSome? f = some b := by
  induction l with
  | nil => cases hc
  | cons a l ih =>
    obtain ⟨ha, hl⟩ := List.pairwise_cons.1 hl
    obtain ⟨-, hmaxl⟩ := List.forall_mem_cons.1 hmax
    rw [List.reverse_cons, List.findSome?_append]
    rcases List.mem_cons.1 hc with rfl | hc
    · have hnone : l.reverse.findSome? f = none := List.findSome?_eq_none_iff.2 fun d hd => by
        by_contra hne
        have hd := List.mem_reverse.1 hd
        exact absurd (hmaxl d hd hne) (Nat.not_le.2 (ha _ (List.mem_map_of_mem hd)))
      simp [hnone, hf]
    · rw [ih hl hc hmaxl]; rfl

/-! ### The items after a break -/

theorem countChars_char (c : Byte) (f z : Nat) (l : List WordItem) : countChars (.char c f z :: l) = countChars l + 1 := by
  simp [countChars]

/-- The characters before a break take its marks with them, but for those behind the last character (R77). -/
theorem itemsAfter_split (items : List WordItem) {k : Nat} (h1 : 1 ≤ k) (h2 : k ≤ countChars items) :
    ∃ front, items = front ++ itemsAfter k items ∧ countChars front = k ∧ front.getLast? ≠ some .mark := by
  induction items generalizing k with
  | nil => exact absurd h2 (by rw [countChars, List.countP_nil]; omega)
  | cons x l ih =>
    obtain ⟨k, rfl⟩ := Nat.exists_eq_add_of_le' h1
    cases x with
    | mark =>
      obtain ⟨front, hsplit, hcount, hlast⟩ := ih h1 h2
      refine ⟨.mark :: front, congrArg _ hsplit, hcount, ?_⟩
      have hne : front ≠ [] := by rintro rfl; simp [countChars] at hcount
      rwa [List.getLast?_cons_of_ne_nil hne]
    | char c f z =>
      rw [countChars_char] at h2
      rcases Nat.eq_zero_or_pos k with rfl | hk
      · exact ⟨[.char c f z], by simp [itemsAfter], rfl, by simp⟩
      · obtain ⟨front, hsplit, hcount, hlast⟩ := ih hk (by omega)
        refine ⟨.char c f z :: front, congrArg _ hsplit, by rw [countChars_char, hcount], ?_⟩
        have hne : front ≠ [] := by rintro rfl; simp [countChars] at hcount; omega
        rwa [List.getLast?_cons_of_ne_nil hne]

theorem restOf_eq (items : List WordItem) (hasCont : Bool) :
    restOf items hasCont =
      if 0 < countChars items then some { items := items, cont := false, hasCont := hasCont } else none := by
  cases h : countChars items <;> simp [restOf, h]

/-! ### The break -/

section
variable {s : State} {slot : Nat} {p : LineParams} {pl : Placing} {glyphs : List Glyph}

/-- The analysis of the word that overflows. -/
def State.breakAnalysis (s : State) (slot : Nat) (p : LineParams) (pl : Placing) : Analysis :=
  analyse s slot p.language (s.job slot).params.minPrefix (s.job slot).params.minSuffix (s.wordChars pl.word.items)
    (markPositions 0 pl.word.items)

/-- An explicit hyphen stands before a break (R95). -/
def State.breakExplicit (s : State) (pl : Placing) (k : Nat) : Bool :=
  (((s.wordChars pl.word.items)[k - 1]?).map CoreChar.explicit).getD false

/-- The line of a break after a candidate (R77). -/
def State.divided (s : State) (pl : Placing) (glyphs : List Glyph) (k : Nat) : List Glyph :=
  s.withHyphen (glyphs.take pl.start) (glyphs.drop pl.start) k (s.breakExplicit pl k)

/-- The conditions of an attempt hold, and a candidate is within the grade limit and fits (R94, R101). -/
def State.fitting (s : State) (slot : Nat) (p : LineParams) (pl : Placing) (glyphs : List Glyph) (c : Candidate) : Prop :=
  s.attempts slot p pl (glyphs.take pl.start) = true ∧ c ∈ (s.breakAnalysis slot p pl).candidates ∧
    c.grade ≤ (s.job slot).params.grade ∧ (s.breakAnalysis slot p pl).start + c.position ≤ (glyphs.drop pl.start).length ∧
    s.fits p (s.divided pl glyphs ((s.breakAnalysis slot p pl).start + c.position)) = true

/-- The candidate that an attempt takes. -/
def State.chosen (s : State) (slot : Nat) (p : LineParams) (pl : Placing) (glyphs : List Glyph) : Option (List Glyph × Nat) :=
  if s.attempts slot p pl (glyphs.take pl.start) then
    s.chooseBreak p (s.breakAnalysis slot p pl) (s.job slot).params.grade (s.wordChars pl.word.items) (glyphs.take pl.start)
      (glyphs.drop pl.start)
  else none

/-- The division at a candidate, where it is possible and fits. -/
def State.divideAt (s : State) (slot : Nat) (p : LineParams) (pl : Placing) (glyphs : List Glyph) (c : Candidate) :
    Option (List Glyph × Nat) :=
  let k := (s.breakAnalysis slot p pl).start + c.position
  if k ≤ (glyphs.drop pl.start).length && s.fits p (s.divided pl glyphs k) then some (s.divided pl glyphs k, k) else none

theorem chosen_eq (h : s.attempts slot p pl (glyphs.take pl.start) = true) :
    s.chosen slot p pl glyphs =
      ((s.breakAnalysis slot p pl).candidates.filter fun c => c.grade ≤ (s.job slot).params.grade).reverse.findSome?
        (s.divideAt slot p pl glyphs) := by
  rw [State.chosen, if_pos h, State.chooseBreak, List.filter_reverse]
  rfl

theorem divideAt_ne_none_iff (c : Candidate) : s.divideAt slot p pl glyphs c ≠ none ↔
    (s.breakAnalysis slot p pl).start + c.position ≤ (glyphs.drop pl.start).length ∧
      s.fits p (s.divided pl glyphs ((s.breakAnalysis slot p pl).start + c.position)) = true := by
  simp only [State.divideAt, Bool.and_eq_true, decide_eq_true_eq]
  split_ifs with h
  · exact iff_of_true nofun h
  · exact iff_of_false (fun hn => hn rfl) h

theorem fitting_iff (h : s.attempts slot p pl (glyphs.take pl.start) = true) (c : Candidate) :
    s.fitting slot p pl glyphs c ↔
      c ∈ ((s.breakAnalysis slot p pl).candidates.filter fun c => c.grade ≤ (s.job slot).params.grade) ∧
        s.divideAt slot p pl glyphs c ≠ none := by
  rw [divideAt_ne_none_iff, List.mem_filter, decide_eq_true_eq, State.fitting, and_assoc]
  exact and_iff_right h

theorem chosen_of_largest (hasc : ((s.breakAnalysis slot p pl).candidates.map Candidate.position).Pairwise (· < ·)) {c : Candidate}
    (hc : s.fitting slot p pl glyphs c) (hmax : ∀ d, s.fitting slot p pl glyphs d → d.position ≤ c.position) :
    s.chosen slot p pl glyphs =
      some (s.divided pl glyphs ((s.breakAnalysis slot p pl).start + c.position), (s.breakAnalysis slot p pl).start + c.position) := by
  have hattempt := hc.1
  rw [chosen_eq hattempt]
  obtain ⟨hmem, hne⟩ := (fitting_iff hattempt c).1 hc
  have hfit := (divideAt_ne_none_iff c).1 hne
  refine findSome?_reverse_of_largest (hasc.sublist (List.filter_sublist.map _)) hmem ?_ fun d hd hdne =>
    hmax d ((fitting_iff hattempt d).2 ⟨hd, hdne⟩)
  exact if_pos (by simpa using hfit)

theorem chosen_of_no_fitting (h : ∀ c, ¬s.fitting slot p pl glyphs c) : s.chosen slot p pl glyphs = none := by
  by_cases hattempt : s.attempts slot p pl (glyphs.take pl.start) = true
  · rw [chosen_eq hattempt, List.findSome?_eq_none_iff]
    intro c hc
    by_contra hne
    exact h c ((fitting_iff hattempt c).2 ⟨List.mem_reverse.1 hc, hne⟩)
  · exact if_neg hattempt

/-- The state that the consultation of the dictionary leaves (R98). -/
def State.consulted (s : State) (slot : Nat) (p : LineParams) (pl : Placing) (glyphs : List Glyph) : State :=
  match s.attempts slot p pl (glyphs.take pl.start), (s.breakAnalysis slot p pl).entry with
  | true, some e => { s with dict := raiseHits e.slot s.dict }
  | _, _ => s

theorem consulted_frame (s : State) (slot : Nat) (p : LineParams) (pl : Placing) (glyphs : List Glyph) :
    ({ s.consulted slot p pl glyphs with dict := s.dict } : State) = s := by
  rw [State.consulted]; split <;> rfl

theorem consulted_of_entry (h : s.attempts slot p pl (glyphs.take pl.start) = true) {e : DictEntry}
    (he : (s.breakAnalysis slot p pl).entry = some e) : (s.consulted slot p pl glyphs).dict = raiseHits e.slot s.dict := by
  rw [State.consulted, h, he]

theorem consulted_of_none (h : ¬s.attempts slot p pl (glyphs.take pl.start) = true ∨ (s.breakAnalysis slot p pl).entry = none) :
    (s.consulted slot p pl glyphs).dict = s.dict := by
  rw [State.consulted]
  split
  · next ha he => simp [ha, he] at h
  · rfl

/-- What an attempt chooses, and the largest fit, depend on the fonts alone. -/
theorem choice_congr {u : State} (h : u.fonts = s.fonts) (a : Analysis) (limit : Nat) (chars : List CoreChar) (base word : List Glyph) :
    u.chooseBreak p a limit chars base word = s.chooseBreak p a limit chars base word ∧ u.largestFit p word = s.largestFit p word := by
  have hfits : u.fits p = s.fits p := funext fun gs => fits_congr (congrArg (List.map FontRecord.uncounted) h) p gs
  have hfont : u.font = s.font := funext fun n => by rw [State.font, State.font, h]
  have hhyphen : u.withHyphen = s.withHyphen := by
    funext base word k explicit
    simp only [State.withHyphen, hfont]
  exact ⟨by simp only [State.chooseBreak, hfits, hhyphen], by simp only [State.largestFit, hfits]⟩

/-- The break of a choice, or before the word, or by force (R77, R78). -/
def State.breakOf (s : State) (slot : Nat) (p : LineParams) (pl : Placing) (glyphs : List Glyph)
    (choice : Option (List Glyph × Nat)) (largest : Nat) : Break :=
  match choice with
  | some (kept, k) =>
    { kept := kept, flags := [(s.breakAnalysis slot p pl).cls.flag]
      carry := restOf ((itemsAfter k pl.word.items).dropWhile (· == .mark)) false }
  | none =>
    if pl.start > 0 then { kept := glyphs.take pl.start, flags := [], carry := some pl.word }
    else
      { kept := (glyphs.drop pl.start).take (max 1 largest), flags := [if largest ≥ 1 then .forced else .overset]
        carry := restOf (itemsAfter (max 1 largest) pl.word.items) pl.word.hasCont }

theorem breakLine_consulted (s : State) (slot : Nat) (p : LineParams) (pl : Placing) (glyphs : List Glyph) :
    s.breakLine slot p pl glyphs = (s.consulted slot p pl glyphs,
      s.breakOf slot p pl glyphs
        (if s.attempts slot p pl (glyphs.take pl.start) then
          (s.consulted slot p pl glyphs).chooseBreak p (s.breakAnalysis slot p pl) (s.job slot).params.grade
            (s.wordChars pl.word.items) (glyphs.take pl.start) (glyphs.drop pl.start)
        else none)
        ((s.consulted slot p pl glyphs).largestFit p (glyphs.drop pl.start))) := by
  generalize hu : s.consulted slot p pl glyphs = u
  have hraw : s.breakLine slot p pl glyphs =
      match if s.attempts slot p pl (glyphs.take pl.start) then
          u.chooseBreak p (s.breakAnalysis slot p pl) (s.job slot).params.grade (s.wordChars pl.word.items) (glyphs.take pl.start)
            (glyphs.drop pl.start) else none with
      | some (kept, k) =>
        (u, { kept := kept, flags := [(s.breakAnalysis slot p pl).cls.flag]
              carry := restOf ((itemsAfter k pl.word.items).dropWhile (· == .mark)) false })
      | none =>
        if pl.start > 0 then (u, { kept := glyphs.take pl.start, flags := [], carry := some pl.word })
        else
          let k := u.largestFit p (glyphs.drop pl.start)
          (u, { kept := (glyphs.drop pl.start).take (max 1 k), flags := [if k ≥ 1 then .forced else .overset]
                carry := restOf (itemsAfter (max 1 k) pl.word.items) pl.word.hasCont }) := by
    rw [← hu]; rfl
  rw [hraw]
  simp only [State.breakOf]
  split
  · rfl
  · split <;> rfl

theorem breakLine_eq (s : State) (slot : Nat) (p : LineParams) (pl : Placing) (glyphs : List Glyph) :
    s.breakLine slot p pl glyphs = (s.consulted slot p pl glyphs,
      s.breakOf slot p pl glyphs (s.chosen slot p pl glyphs) (s.largestFit p (glyphs.drop pl.start))) := by
  have hfonts : (s.consulted slot p pl glyphs).fonts = s.fonts := by
    have h := congrArg State.fonts (consulted_frame s slot p pl glyphs)
    exact h
  rw [breakLine_consulted, (choice_congr hfonts (s.breakAnalysis slot p pl) _ _ _ _).1,
    (choice_congr hfonts (s.breakAnalysis slot p pl) 0 [] [] _).2]
  rfl

theorem breakOf_before_word (choice : Option (List Glyph × Nat)) (largest : Nat) (h : choice = none) (hstart : 0 < pl.start) :
    s.breakOf slot p pl glyphs choice largest = { kept := glyphs.take pl.start, flags := [], carry := some pl.word } := by
  rw [h, State.breakOf]; exact if_pos hstart

theorem breakOf_by_force (choice : Option (List Glyph × Nat)) (largest : Nat) (h : choice = none) (hstart : pl.start = 0) :
    s.breakOf slot p pl glyphs choice largest =
      { kept := (glyphs.drop pl.start).take (max 1 largest), flags := [if largest ≥ 1 then .forced else .overset]
        carry := restOf (itemsAfter (max 1 largest) pl.word.items) pl.word.hasCont } := by
  rw [h, State.breakOf]; exact if_neg (by omega)

theorem largestFit_of_some {word : List Glyph} {k : Nat} (h1 : 1 ≤ k) (hlen : k ≤ word.length) (hfit : s.fits p (word.take k) = true)
    (hmax : ∀ m, k < m → m ≤ word.length → s.fits p (word.take m) = false) : s.largestFit p word = k := by
  refine foldl_max_eq (Nat.zero_le k) (fun m hm => ?_) (.inr ?_)
  · simp only [List.mem_filter, List.mem_range, Bool.and_eq_true, decide_eq_true_eq] at hm
    by_contra hlt
    have := hmax m (by omega) (by omega)
    simp [this] at hm
  · simp only [List.mem_filter, List.mem_range, Bool.and_eq_true, decide_eq_true_eq]
    exact ⟨by omega, h1, hfit⟩

theorem largestFit_of_none {word : List Glyph} (h : ∀ k, 1 ≤ k → k ≤ word.length → s.fits p (word.take k) = false) :
    s.largestFit p word = 0 := by
  refine foldl_max_eq le_rfl (fun m hm => ?_) (.inl rfl)
  simp only [List.mem_filter, List.mem_range, Bool.and_eq_true, decide_eq_true_eq] at hm
  obtain ⟨hlt, h1, hfit⟩ := hm
  have := h m h1 (by omega)
  simp [this] at hfit

theorem breakAndSet_eq (hpl : (s.job slot).line.placing = some pl) (hp : (s.job slot).line.params = some p) {u : State} {b : Break}
    (hb : s.breakLine slot p pl (s.job slot).line.glyphs = (u, b)) :
    s.breakAndSet slot = (u.leaveLine (s.job slot).line.glyphs b.kept).setLineWith slot p b.kept b.flags false b.carry := by
  simp only [State.breakAndSet, hpl, hp, hb]

/-! ### In the statement's own words -/

theorem divided_eq (s : State) (pl : Placing) (glyphs : List Glyph) (k : Nat) :
    s.divided pl glyphs k =
      if s.breakExplicit pl k then glyphs.take pl.start ++ (glyphs.drop pl.start).take k
      else match (glyphs.take pl.start ++ (glyphs.drop pl.start).take k).getLast? with
        | none => glyphs.take pl.start
        | some g => glyphs.take pl.start ++ (glyphs.drop pl.start).take k ++
            [{ g with code := ((s.font g.font).map FontRecord.hyphen).getD 0x2D#8, gap := false }] := by
  simp only [State.divided, State.withHyphen]
  split
  · rfl
  · cases h : (glyphs.take pl.start ++ (glyphs.drop pl.start).take k).getLast? with
    | none =>
      rw [List.getLast?_eq_none_iff, List.append_eq_nil_iff] at h
      obtain ⟨hbase, hword⟩ := h
      simp [hbase, hword]
    | some g => rfl

theorem attempts_iff (s : State) (slot : Nat) (p : LineParams) (pl : Placing) (base : List Glyph) :
    s.attempts slot p pl base = true ↔
      pl.word.cont = false ∧ pl.word.hasCont = false ∧ p.hyphenate = true ∧ (s.job slot).consecutive < (s.job slot).params.ladder ∧
      (p.quad = .justify ∨
        (s.job slot).params.zone * 128 < (p.measure - p.effLeft - p.right) * 128 -
          ((s.advances base).sum + ((gapSizes base).map fun z => p.spaceOpt * (z * 5)).sum)) := by
  have hwidth : p.width = (p.measure - p.effLeft - p.right) * 128 := rfl
  have hgaps : atSizes p.spaceOpt (gapSizes base) = (gapSizes base).map fun z => p.spaceOpt * (z * 5) := rfl
  simp only [State.attempts, Bool.and_eq_true, Bool.or_eq_true, Bool.not_eq_true', decide_eq_true_eq, beq_iff_eq, and_assoc, hwidth, hgaps,
    Nat.lt_sub_iff_add_lt]

end

end Sys2Proof.Machine
end

section
/-! An item that is offered, and a line that is set (R67, R79, R85, R87, R127, R131). -/

namespace Sys2Proof.Machine

open Sys2Proof

/-! ### The entry of an item -/

theorem newEntry_line (s : State) (slot : Nat) (l : LineBody) :
    s.newEntry slot (.line l) =
      { serial := s.queue.nextFree, slot := slot, jobId := (s.job slot).id, attributed := true, expo := .waiting
        proof := .notTaken, required := decide ((s.job slot).params.policy = .required)
        body := .line { l with lineNumber := (s.job slot).lineNumber } } := by
  simp [State.newEntry, Body.numbered, Body.kind]

/-- A MOVE or CUT entry, which an ending makes (R63). -/
def Body.ofAction (b : Body) : Prop := b = .cut ∨ ∃ d, b = .move d false

theorem newEntry_ofAction (s : State) (slot : Nat) {b : Body} (hb : b.ofAction) :
    s.newEntry slot b =
      { serial := s.queue.nextFree, slot := slot, jobId := (s.job slot).id, attributed := true, expo := .waiting
        proof := .done, required := decide ((s.job slot).params.policy = .required), body := b } := by
  rcases hb with rfl | ⟨d, rfl⟩ <;> simp [State.newEntry, Body.numbered, Body.kind]

theorem appended_ofAction {b : Body} (hb : b.ofAction) (j : Job) : Job.appended b j = j := by
  rcases hb with rfl | ⟨d, rfl⟩ <;> rfl

section
variable {s : State} {slot : Nat}

theorem job_onLine (h : slot < s.jobs.length) (f : LineInProgress → LineInProgress) :
    (s.onLine slot f).job slot = { s.job slot with line := f (s.job slot).line } := State.job_onJob_self _ _ h

/-! ### An item that is held -/

/-- The end of a turn with an item held (R67, R87). -/
theorem endTurn_held (hlt : slot < s.jobs.length) (hheld : (s.job slot).line.held ≠ none) (hc : (s.job slot).composing = true)
    (hf : (s.job slot).finished = false) :
    ((s.endTurn slot).job slot).status = .stalled .queueFull ∧
    ((s.job slot).status ≠ .stalled .queueFull → (s.endTurn slot).link.holds .jobStalled = true) := by
  generalize hu : (s.onEngine fun _ => { serving := none, pointer := (slot + 1) % 4 }) = u
  have hjob : u.job slot = s.job slot := by rw [← hu]; rfl
  have hult : slot < u.jobs.length := by rw [← hu]; exact hlt
  have hend : s.endTurn slot = u.setStatus slot (.stalled .queueFull) := by
    rw [State.endTurn, hu]
    refine restatus_of_held ?_ ?_ ?_ <;> rw [hjob]
    · exact (composing_iff _).1 hc
    · exact hf
    · exact hheld
  rw [hend, setStatus_job hult]
  refine ⟨rfl, fun hne => ?_⟩
  rw [setStatus_of_change ⟨_, rfl⟩ (by rw [hjob]; exact hne.symm)]
  exact raise_holds_self _ _

/-- What an item that finds no room leaves (R67, R85, R87). -/
theorem offer_held_spec (hlt : slot < s.jobs.length) {b : Body} (h : s.admits slot b = false) :
    (s.offer slot b).queue = s.queue ∧
    ({ s.job slot with line := { (s.job slot).line with held := some b } } : Job).sameBut ((s.offer slot b).job slot) ∧
    ((s.job slot).composing = true → (s.job slot).finished = false →
      ((s.offer slot b).job slot).status = .stalled .queueFull ∧
      ((s.job slot).status ≠ .stalled .queueFull → (s.offer slot b).link.holds .jobStalled = true)) := by
  rw [offer_held h]
  generalize hu : (s.onLine slot fun l => { l with held := some b }) = u
  have hjob : u.job slot = { s.job slot with line := { (s.job slot).line with held := some b } } := by rw [← hu]; exact job_onLine hlt _
  have hult : slot < u.jobs.length := by rw [← hu]; simpa using hlt
  refine ⟨?_, hjob ▸ endTurn_sameBut hult, fun hc hf => ?_⟩
  · rw [show s.queue = u.queue by rw [← hu]; rfl]; simp
  · have := endTurn_held hult (by rw [hjob]; exact nofun) (by rw [hjob]; exact hc) (by rw [hjob]; exact hf)
    rw [hjob] at this
    exact this

/-! ### An item that is admitted -/

/-- A job but for its status, its finished flag, and what the completion of an ending changes; an ending whose line is not set stays. -/
def Job.carriesOn (j k : Job) : Prop :=
  ∃ (c : CompStatus) (b : Bool) (ps : Params) (m : Bool) (en : Option Ending),
    k = { j with status := c, finished := b, params := ps, paragraphMark := m, line := { j.line with ending := en } } ∧
      ((∀ e, j.line.ending = some e → e.lineSet = false) → en = j.line.ending)

theorem Job.carriesOn.trans_sameBut {j k l : Job} (h : j.carriesOn k) (h' : k.sameBut l) : j.carriesOn l := by
  obtain ⟨c, b, ps, m, en, rfl, hen⟩ := h
  obtain ⟨c', b', rfl⟩ := h'
  exact ⟨c', b', ps, m, en, rfl, hen⟩

theorem resumeEnding_carriesOn (hlt : slot < s.jobs.length) : (s.job slot).carriesOn ((s.resumeEnding slot).job slot) := by
  have hrefl : (s.job slot).carriesOn (s.job slot) := ⟨_, _, _, _, _, rfl, fun _ => rfl⟩
  simp only [State.resumeEnding]
  split
  · next e he =>
    split
    · next hset =>
      rw [State.job_onJob_self _ _ hlt]
      refine ⟨_, _, _, _, none, rfl, fun hun => ?_⟩
      rw [Bool.and_eq_true, hun e he] at hset
      exact absurd hset.1 nofun
    · exact hrefl
  · exact hrefl

/-- A status that an admission may change, after what it does to the line (R87). -/
theorem admitted_tail_sameBut (hlt : slot < s.jobs.length) :
    (s.job slot).sameBut ((if ((s.finishComposition slot).job slot).status == .stalled .queueFull then
      ((s.finishComposition slot).setStatus slot .ready).restatus slot else s.finishComposition slot).job slot) := by
  have hfin := finishComposition_sameBut (s := s) (slot := slot) hlt
  generalize hu : s.finishComposition slot = u at hfin
  have hult : slot < u.jobs.length := by rw [← hu]; simpa using hlt
  split
  · have hset : (u.job slot).sameBut ((u.setStatus slot .ready).job slot) := ⟨.ready, (u.job slot).finished, setStatus_job hult _⟩
    exact (hfin.trans hset).trans (restatus_sameBut (by simpa using hult))
  · exact hfin

theorem admitted_line_carriesOn (hlt : slot < s.jobs.length) (l : LineBody) :
    ({ s.job slot with line := { (s.job slot).line with held := none } } : Job).carriesOn ((s.admitted slot (.line l)).job slot) := by
  generalize hu : (s.onLine slot fun l => { l with held := none }) = u
  have hjob : u.job slot = { s.job slot with line := { (s.job slot).line with held := none } } := by rw [← hu]; exact job_onLine hlt _
  have hult : slot < u.jobs.length := by rw [← hu]; simpa using hlt
  have hresume := resumeEnding_carriesOn hult
  rw [hjob] at hresume
  have htail := admitted_tail_sameBut (s := u.resumeEnding slot) (slot := slot) (by simpa using hult)
  simp only [State.admitted, hu]
  exact hresume.trans_sameBut htail

theorem admitted_ofAction_sameBut (hlt : slot < s.jobs.length) {b : Body} (hb : b.ofAction) :
    ({ s.job slot with line := { (s.job slot).line with held := none, ending := none } } : Job).sameBut ((s.admitted slot b).job slot) := by
  generalize hu : ((s.onLine slot fun l => { l with held := none }).onLine slot fun l => { l with ending := none }) = u
  have hjob : u.job slot = { s.job slot with line := { (s.job slot).line with held := none, ending := none } } := by
    rw [← hu, job_onLine (by simpa using hlt), job_onLine hlt]
  have hult : slot < u.jobs.length := by rw [← hu]; simpa using hlt
  have htail := admitted_tail_sameBut hult
  rw [hjob] at htail
  rcases hb with rfl | ⟨d, rfl⟩ <;> simpa only [State.admitted, hu] using htail

/-- What an item that finds room makes of the queue (R127, R131). -/
theorem offer_admitted_queue {b : Body} (h : s.admits slot b = true) :
    (s.offer slot b).queue.entries = s.queue.entries ++ [s.newEntry slot b] ∧
    (s.offer slot b).queue.nextSerial = (s.queue.nextFree + 1) % 65536 := by
  have hq : (s.offer slot b).queue = (s.appendEntry slot b).queue := by rw [offer_admitted h]; simp
  rw [hq, appendEntry_queue]
  exact ⟨rfl, rfl⟩

/-- What an item that finds room leaves of the job: its line has no held item (R40, R131). -/
theorem offer_admitted_line (hlt : slot < s.jobs.length) {l : LineBody} (h : s.admits slot (.line l) = true) :
    ({ Job.appended (.line l) (s.job slot) with line := { (s.job slot).line with held := none } } : Job).carriesOn
      ((s.offer slot (.line l)).job slot) := by
  rw [offer_admitted h]
  have hlt' : slot < (s.appendEntry slot (.line l)).jobs.length := by simpa using hlt
  have hadm := admitted_line_carriesOn hlt' l
  rw [appendEntry_job s (.line l) hlt] at hadm
  exact hadm.trans_sameBut (endTurn_sameBut (by simpa using hlt'))

theorem offer_admitted_ofAction (hlt : slot < s.jobs.length) {b : Body} (hb : b.ofAction) (h : s.admits slot b = true) :
    ({ s.job slot with line := { (s.job slot).line with held := none, ending := none } } : Job).sameBut ((s.offer slot b).job slot) := by
  rw [offer_admitted h]
  have hlt' : slot < (s.appendEntry slot b).jobs.length := by simpa using hlt
  have hadm := admitted_ofAction_sameBut hlt' hb
  rw [appendEntry_job s b hlt, appended_ofAction hb] at hadm
  exact hadm.trans (endTurn_sameBut (by simpa using hlt'))

theorem offer_engine (s : State) (slot : Nat) (b : Body) :
    (s.offer slot b).engine = { serving := none, pointer := (slot + 1) % 4 } := by
  rw [State.offer]; split <;> exact endTurn_engine _ _

/-! ### A line that is set -/

/-- The line in progress once its line is set (R85). -/
def LineInProgress.lineSetWith (last : Bool) (carry : Option Word) (l : LineInProgress) : LineInProgress :=
  { l with glyphs := [], params := none, placing := none, missing := false, gapDue := false, carry := carry
           ending := l.ending.map fun e => { e with lineSet := e.lineSet || last } }

/-- The LINE entry of a line that is set (R85). -/
def State.setBody (s : State) (slot : Nat) (p : LineParams) (kept : List Glyph) (flags : List LineFlag) (last : Bool) : LineBody :=
  s.lineBody p kept (flags ++ if (s.job slot).line.missing then [.missing] else []) last

variable {p : LineParams} {kept : List Glyph} {flags : List LineFlag} {last : Bool} {carry : Option Word}

theorem setLineWith_offer (s : State) (slot : Nat) (p : LineParams) (kept : List Glyph) (flags : List LineFlag) (last : Bool)
    (carry : Option Word) :
    s.setLineWith slot p kept flags last carry =
      (s.onLine slot (LineInProgress.lineSetWith last carry)).offer slot (.line (s.setBody slot p kept flags last)) := rfl

theorem setLineWith_engine (s : State) (slot : Nat) (p : LineParams) (kept : List Glyph) (flags : List LineFlag) (last : Bool)
    (carry : Option Word) : (s.setLineWith slot p kept flags last carry).engine = { serving := none, pointer := (slot + 1) % 4 } :=
  offer_engine _ _ _

theorem setLineWith_admitted (hlt : slot < s.jobs.length) (h : s.admits slot (.line (s.setBody slot p kept flags last)) = true) :
    (s.setLineWith slot p kept flags last carry).queue.entries = s.queue.entries ++
      [{ serial := s.queue.nextFree, slot := slot, jobId := (s.job slot).id, attributed := true, expo := .waiting
         proof := .notTaken, required := decide ((s.job slot).params.policy = .required)
         body := .line { s.setBody slot p kept flags last with lineNumber := (s.job slot).lineNumber } }] ∧
    (s.setLineWith slot p kept flags last carry).queue.nextSerial = (s.queue.nextFree + 1) % 65536 ∧
    ({ Job.appended (.line (s.setBody slot p kept flags last)) (s.job slot) with
        line := { (s.job slot).line.lineSetWith last carry with held := none } } : Job).carriesOn
      ((s.setLineWith slot p kept flags last carry).job slot) := by
  rw [setLineWith_offer]
  generalize s.setBody slot p kept flags last = l at h
  generalize hu : s.onLine slot (LineInProgress.lineSetWith last carry) = u
  have hjob : u.job slot = { s.job slot with line := (s.job slot).line.lineSetWith last carry } := by rw [← hu]; exact job_onLine hlt _
  have hult : slot < u.jobs.length := by rw [← hu]; simpa using hlt
  have hqueue : u.queue = s.queue := by rw [← hu]; rfl
  have hadm : u.admits slot (.line l) = true := by
    rw [admits_congr hqueue (by rw [← hu]; rfl) (by rw [← hu]; rfl)]; exact h
  obtain ⟨hent, hser⟩ := offer_admitted_queue hadm
  have hline := offer_admitted_line hult hadm
  rw [newEntry_line, hqueue, hjob] at hent
  rw [hqueue] at hser
  rw [hjob] at hline
  exact ⟨hent, hser, hline⟩

theorem setLineWith_held (hlt : slot < s.jobs.length) (h : s.admits slot (.line (s.setBody slot p kept flags last)) = false) :
    (s.setLineWith slot p kept flags last carry).queue = s.queue ∧
    ({ s.job slot with line := { (s.job slot).line.lineSetWith last carry with
        held := some (.line (s.setBody slot p kept flags last)) } } : Job).sameBut
      ((s.setLineWith slot p kept flags last carry).job slot) ∧
    ((s.job slot).composing = true → (s.job slot).finished = false →
      ((s.setLineWith slot p kept flags last carry).job slot).status = .stalled .queueFull ∧
      ((s.job slot).status ≠ .stalled .queueFull →
        (s.setLineWith slot p kept flags last carry).link.holds .jobStalled = true)) := by
  rw [setLineWith_offer]
  generalize s.setBody slot p kept flags last = l at h
  generalize hu : s.onLine slot (LineInProgress.lineSetWith last carry) = u
  have hjob : u.job slot = { s.job slot with line := (s.job slot).line.lineSetWith last carry } := by rw [← hu]; exact job_onLine hlt _
  have hult : slot < u.jobs.length := by rw [← hu]; simpa using hlt
  have hqueue : u.queue = s.queue := by rw [← hu]; rfl
  have hadm : u.admits slot (.line l) = false := by
    rw [admits_congr hqueue (by rw [← hu]; rfl) (by rw [← hu]; rfl)]; exact h
  have hoff := offer_held_spec hult hadm
  rw [hqueue, hjob] at hoff
  exact hoff

end

end Sys2Proof.Machine
end

section
/-! SET LINE: its step by the work of the turn, and the ending that it carries on (R58, R62, R63, R77, R79). -/

namespace Sys2Proof.Machine

open Sys2Proof

section
variable {s : State} {slot : Nat}

/-! ### The step -/

theorem exec_setLine {t : State} (h : setLineEffect s = t) : exec .setLine s = .next (settle s t) := by
  rw [← h]; rfl

theorem setLine_of_none (hp : s.serves .place = none) (hs : s.serves .set = none) : setLineEffect s = s := by
  simp only [setLineEffect, hp, hs]

theorem setLine_of_no_overflow (hp : s.serves .place = some slot) (h : (s.placeNext slot).2 ≠ .overflow) : setLineEffect s = s := by
  have hb : ((s.placeNext slot).2 == .overflow) = false := by simpa using h
  simp only [setLineEffect, hp, hb, Bool.false_eq_true, if_false]

theorem setLine_of_overflow (hp : s.serves .place = some slot) (h : (s.placeNext slot).2 = .overflow) :
    setLineEffect s = (s.placeNext slot).1.breakAndSet slot := by
  simp only [setLineEffect, hp, h, beq_self_eq_true, if_true]

/-- The break of an overflow is one step under either command (R76). -/
theorem placeWord_of_overflow (hp : s.serves .place = some slot) (h : (s.placeNext slot).2 = .overflow) :
    placeWordEffect s = (s.placeNext slot).1.breakAndSet slot := by
  rw [placeWord_of_some hp, h]; rfl

theorem setLine_of_set (hs : s.serves .set = some slot) : setLineEffect s = s.carryEnding slot := by
  obtain ⟨hserving, hc, hw⟩ := (serves_iff s .set slot).1 hs
  have hp : s.serves .place = none := by
    rw [State.serves, hserving, Option.filter_some, hw]
    simp
  simp only [setLineEffect, hp, hs]

/-! ### An ending carried on -/

variable {e : Ending} {p : LineParams}

theorem carryEnding_sets (he : (s.job slot).line.ending = some e) (hp : (s.job slot).line.params = some p)
    (hg : (s.job slot).line.glyphs ≠ []) (hset : e.lineSet = false) :
    s.carryEnding slot = s.setLineWith slot p (s.job slot).line.glyphs [.last] true none := by
  simp [State.carryEnding, he, hp, hg, hset]

/-- The word that drops at the end of a line is no longer missed once the line is over (R72, R79). -/
def State.endingBegun (s : State) (slot : Nat) (e : Ending) : State :=
  s.onLine slot fun l => { l with missing := l.missing && e.lineSet }

/-- The paragraph mark that an ending leaves (R58). -/
def Job.markAfter (e : Ending) (j : Job) : Bool := if e.lineSet then e.paragraph else j.paragraphMark || e.paragraph

theorem carryEnding_completes (he : (s.job slot).line.ending = some e) (hp : (s.job slot).line.params = none)
    (ha : e.action.entry = none) :
    s.carryEnding slot = ((s.endingBegun slot e).onJob slot (Job.completeEnding e)).afterStep slot := by
  simp only [State.carryEnding, he, hp, ha]; rfl

theorem carryEnding_offers (he : (s.job slot).line.ending = some e) (hp : (s.job slot).line.params = none) {b : Body}
    (ha : e.action.entry = some b) :
    s.carryEnding slot =
      ((s.endingBegun slot e).onJob slot fun j => { j with paragraphMark := j.markAfter e }).offer slot b := by
  simp only [State.carryEnding, he, hp, ha]; rfl

/-- The parameters that an action records (R62). -/
theorem completeEnding_params (e : Ending) (j : Job) :
    (j.completeEnding e).params = match e.action with
      | .measure m => { j.params with
          measure := m, left := (clampIndents m j.params.left j.params.right).1
          right := (clampIndents m j.params.left j.params.right).2 }
      | .indents x y => { j.params with left := x, right := y }
      | .quad q => { j.params with quad := q }
      | _ => j.params := by
  rw [Job.completeEnding]
  cases e.action <;> rfl

theorem action_entry_eq_none (hcut : e.action ≠ .cut) (hmove : ∀ d, e.action ≠ .move d) : e.action.entry = none := by
  cases h : e.action with
  | cut => exact absurd h hcut
  | move d => exact absurd h (hmove d)
  | _ => rfl

theorem action_entry_eq_some {b : Body} (h : (e.action = .cut ∧ b = .cut) ∨ ∃ d, e.action = .move d ∧ b = .move d false) :
    e.action.entry = some b ∧ b.ofAction := by
  rcases h with ⟨ha, rfl⟩ | ⟨d, ha, rfl⟩
  · exact ⟨by rw [ha]; rfl, .inl rfl⟩
  · exact ⟨by rw [ha]; rfl, .inr ⟨d, rfl⟩⟩

/-- What an ending that makes no entry leaves of the job (R58, R62, R79). -/
theorem completed_sameBut (hlt : slot < s.jobs.length) :
    (({ s.job slot with line := { (s.job slot).line with missing := (s.job slot).line.missing && e.lineSet } } : Job).completeEnding
      e).sameBut ((((s.endingBegun slot e).onJob slot (Job.completeEnding e)).afterStep slot).job slot) := by
  have hlt' : slot < (s.endingBegun slot e).jobs.length := by simpa [State.endingBegun] using hlt
  have hjob : ((s.endingBegun slot e).onJob slot (Job.completeEnding e)).job slot =
      ({ s.job slot with line := { (s.job slot).line with missing := (s.job slot).line.missing && e.lineSet } } : Job).completeEnding e := by
    rw [State.job_onJob_self _ _ hlt', State.endingBegun, job_onLine hlt]
  rw [← hjob]
  exact afterStep_sameBut (by simpa using hlt')

/-- The state in which an ending offers its entry. -/
def State.offering (s : State) (slot : Nat) (e : Ending) : State :=
  (s.endingBegun slot e).onJob slot fun j => { j with paragraphMark := j.markAfter e }

theorem offering_job (hlt : slot < s.jobs.length) : (s.offering slot e).job slot =
    { s.job slot with
      paragraphMark := (s.job slot).markAfter e
      line := { (s.job slot).line with missing := (s.job slot).line.missing && e.lineSet } } := by
  rw [State.offering, State.job_onJob_self _ _ (by simpa [State.endingBegun] using hlt), State.endingBegun, job_onLine hlt]
  rfl

/-- What an ending that makes an entry leaves, admitted or held (R63, R79, R85). -/
theorem offering_admitted (hlt : slot < s.jobs.length) {b : Body} (hb : b.ofAction) (h : s.admits slot b = true) :
    ((s.offering slot e).offer slot b).queue.entries = s.queue.entries ++
      [{ serial := s.queue.nextFree, slot := slot, jobId := (s.job slot).id, attributed := true, expo := .waiting
         proof := .done, required := decide ((s.job slot).params.policy = .required), body := b }] ∧
    ({ (s.offering slot e).job slot with line := { ((s.offering slot e).job slot).line with held := none, ending := none } } :
      Job).sameBut (((s.offering slot e).offer slot b).job slot) := by
  have hqueue : (s.offering slot e).queue = s.queue := rfl
  have hlt' : slot < (s.offering slot e).jobs.length := by simpa [State.offering, State.endingBegun] using hlt
  have hadm : (s.offering slot e).admits slot b = true := by rw [admits_congr hqueue rfl rfl]; exact h
  have hent := (offer_admitted_queue hadm).1
  rw [newEntry_ofAction _ _ hb, hqueue, offering_job hlt] at hent
  exact ⟨hent, offer_admitted_ofAction hlt' hb hadm⟩

theorem offering_held (hlt : slot < s.jobs.length) {b : Body} (h : s.admits slot b = false) :
    ((s.offering slot e).offer slot b).queue = s.queue ∧
    ({ (s.offering slot e).job slot with line := { ((s.offering slot e).job slot).line with held := some b } } : Job).sameBut
      (((s.offering slot e).offer slot b).job slot) ∧
    ((s.job slot).composing = true → (s.job slot).finished = false →
      (((s.offering slot e).offer slot b).job slot).status = .stalled .queueFull ∧
      ((s.job slot).status ≠ .stalled .queueFull → ((s.offering slot e).offer slot b).link.holds .jobStalled = true)) := by
  have hlt' : slot < (s.offering slot e).jobs.length := by simpa [State.offering, State.endingBegun] using hlt
  have hadm : (s.offering slot e).admits slot b = false := by rw [admits_congr (s := s) (t := s.offering slot e) rfl rfl rfl]; exact h
  obtain ⟨hq, hjob, hst⟩ := offer_held_spec hlt' hadm
  have hj := offering_job (e := e) hlt
  refine ⟨hq, hjob, ?_⟩
  rw [hj] at hst
  exact hst

end

end Sys2Proof.Machine
end

section
/-! O29: the break, the line that is set, and the ending that SET LINE carries on. -/

namespace Sys2Proof.Machine

open Sys2Proof

section
variable {s : State} {slot : Nat}

/-! ### A set line, field by field -/

section
variable {p : LineParams} {kept : List Glyph} {flags : List LineFlag} {last : Bool} {carry : Option Word}

/-- What the setting of a line leaves of it, admitted or held (R78, R79, R85). -/
def LineInProgress.afterSet (last : Bool) (carry : Option Word) (l m : LineInProgress) : Prop :=
  m.glyphs = [] ∧ m.placing = none ∧ m.carry = carry ∧ m.missing = false ∧ m.pending = l.pending ∧
    ∀ e, last = false → l.ending = some e → e.lineSet = false → m.ending = some e

theorem lineSetWith_ending {l : LineInProgress} {e : Ending} (he : l.ending = some e) :
    (l.lineSetWith false carry).ending = some e := by
  simp [LineInProgress.lineSetWith, he]

theorem afterSet_of_admitted {l : LineBody} {k : Job}
    (h : ({ Job.appended (.line l) (s.job slot) with line := { (s.job slot).line.lineSetWith last carry with held := none } } :
      Job).carriesOn k) :
    (s.job slot).line.afterSet last carry k.line ∧ k.line.held = none ∧
      k.lineNumber = if 65535 ≤ (s.job slot).lineNumber then 1 else (s.job slot).lineNumber + 1 := by
  obtain ⟨c, b, ps, m, en, rfl, hen⟩ := h
  refine ⟨⟨rfl, rfl, rfl, rfl, rfl, fun e hlast he hset => ?_⟩, rfl, rfl⟩
  subst hlast
  have hend := lineSetWith_ending (carry := carry) he
  refine (hen fun e' he' => ?_).trans hend
  obtain rfl := Option.some.inj (hend.symm.trans he')
  exact hset

theorem afterSet_of_held {b : Body} {k : Job}
    (h : ({ s.job slot with line := { (s.job slot).line.lineSetWith last carry with held := some b } } : Job).sameBut k) :
    (s.job slot).line.afterSet last carry k.line ∧ k.line.held = some b ∧ k.lineNumber = (s.job slot).lineNumber := by
  obtain ⟨c, f, rfl⟩ := h
  refine ⟨⟨rfl, rfl, rfl, rfl, rfl, fun e hlast he _ => ?_⟩, rfl, rfl⟩
  subst hlast
  exact lineSetWith_ending (carry := carry) he

theorem setLineWith_afterSet (hlt : slot < s.jobs.length) :
    (s.job slot).line.afterSet last carry ((s.setLineWith slot p kept flags last carry).job slot).line := by
  cases h : s.admits slot (.line (s.setBody slot p kept flags last)) with
  | true => exact (afterSet_of_admitted (setLineWith_admitted hlt h).2.2).1
  | false => exact (afterSet_of_held (setLineWith_held hlt h).2.1).1

end

/-! ### The job whose ending offers its entry -/

theorem offering_fields (hlt : slot < s.jobs.length) {e : Ending} {held : Option Body} {ending : Option Ending} {k : Job}
    (h : ({ (s.offering slot e).job slot with line := { ((s.offering slot e).job slot).line with held := held, ending := ending } } :
      Job).sameBut k) :
    k.paragraphMark = (s.job slot).markAfter e ∧ k.params = (s.job slot).params ∧ k.line.held = held ∧ k.line.ending = ending := by
  obtain ⟨c, f, rfl⟩ := h
  rw [offering_job hlt]
  exact ⟨rfl, rfl, rfl, rfl⟩

/-! ### The break, case by case -/

variable {p : LineParams} {pl : Placing} {glyphs : List Glyph}

theorem breakOf_of_largest (hasc : ((s.breakAnalysis slot p pl).candidates.map Candidate.position).Pairwise (· < ·)) {c : Candidate}
    (hc : s.fitting slot p pl glyphs c) (hmax : ∀ d, s.fitting slot p pl glyphs d → d.position ≤ c.position) (largest : Nat) :
    s.breakOf slot p pl glyphs (s.chosen slot p pl glyphs) largest =
      { kept := s.divided pl glyphs ((s.breakAnalysis slot p pl).start + c.position), flags := [(s.breakAnalysis slot p pl).cls.flag]
        carry := restOf ((itemsAfter ((s.breakAnalysis slot p pl).start + c.position) pl.word.items).dropWhile (· == .mark)) false } := by
  rw [chosen_of_largest hasc hc hmax]; rfl

theorem breakOf_forced (h : ∀ c, ¬s.fitting slot p pl glyphs c) (hstart : pl.start = 0) {k : Nat} (h1 : 1 ≤ k)
    (hlen : k ≤ (glyphs.drop pl.start).length) (hfit : s.fits p ((glyphs.drop pl.start).take k) = true)
    (hmax : ∀ m, k < m → m ≤ (glyphs.drop pl.start).length → s.fits p ((glyphs.drop pl.start).take m) = false) :
    s.breakOf slot p pl glyphs (s.chosen slot p pl glyphs) (s.largestFit p (glyphs.drop pl.start)) =
      { kept := (glyphs.drop pl.start).take k, flags := [.forced], carry := restOf (itemsAfter k pl.word.items) pl.word.hasCont } := by
  rw [breakOf_by_force _ _ (chosen_of_no_fitting h) hstart, largestFit_of_some h1 hlen hfit hmax, max_eq_right h1, if_pos h1]

theorem breakOf_overset (h : ∀ c, ¬s.fitting slot p pl glyphs c) (hstart : pl.start = 0)
    (hno : ∀ k, 1 ≤ k → k ≤ (glyphs.drop pl.start).length → s.fits p ((glyphs.drop pl.start).take k) = false) :
    s.breakOf slot p pl glyphs (s.chosen slot p pl glyphs) (s.largestFit p (glyphs.drop pl.start)) =
      { kept := (glyphs.drop pl.start).take 1, flags := [.overset], carry := restOf (itemsAfter 1 pl.word.items) pl.word.hasCont } := by
  rw [breakOf_by_force _ _ (chosen_of_no_fitting h) hstart, largestFit_of_none hno]; rfl

end

/-- Settles O29: the step by the work of the turn, the break by its choice, the line by its admission, the ending by its entry. -/
theorem setLineSetsTheLastLine : Obligations.SetLineSetsTheLastLine := by
  unfold Obligations.SetLineSetsTheLastLine
  refine ⟨fun s => ⟨fun hp hs => exec_setLine (setLine_of_none hp hs), fun slot hp h => exec_setLine (setLine_of_no_overflow hp h),
    fun slot hp h => ⟨exec_setLine (setLine_of_overflow hp h), ?_⟩⟩, ?_, fun items k h1 h2 => itemsAfter_split items h1 h2, ?_, ?_⟩
  · rw [exec_setLine (setLine_of_overflow hp h), exec_placeWord (placeWord_of_overflow hp h)]
  · intro s slot pl p j items base word chars a attempt explicit divided fitting rest hpl hp hasc
    have hattempt : attempt ↔ s.attempts slot p pl base = true := (attempts_iff s slot p pl base).symm
    have hdivided : divided = s.divided pl j.line.glyphs := funext fun k => (divided_eq s pl j.line.glyphs k).symm
    have hfitting : fitting = s.fitting slot p pl j.line.glyphs := by
      funext c
      simp only [fitting, hdivided, hattempt]
      rfl
    have hrest : rest = restOf := funext₂ fun l c => (restOf_eq l c).symm
    rw [hfitting, hrest, hdivided, hattempt]
    refine ⟨s.consulted slot p pl j.line.glyphs, _, breakAndSet_eq hpl hp (breakLine_eq s slot p pl j.line.glyphs),
      consulted_frame s slot p pl j.line.glyphs, fun e ha he => consulted_of_entry ha he, consulted_of_none, fun c hc hmax => ?_,
      fun hno hstart => ?_, fun hno hstart => ⟨fun k h1 hlen hfit hmax => ?_, fun hnone => ?_⟩⟩
    · rw [breakOf_of_largest hasc hc hmax]
      exact ⟨rfl, rfl, rfl⟩
    · rw [breakOf_before_word _ _ (chosen_of_no_fitting hno) hstart]
      exact ⟨rfl, rfl, rfl⟩
    · rw [breakOf_forced hno hstart h1 hlen hfit hmax]
      exact ⟨rfl, rfl, rfl⟩
    · rw [breakOf_overset hno hstart hnone]
      exact ⟨rfl, rfl, rfl⟩
  · intro s slot p kept flags last carry hlt j body t
    obtain ⟨hglyphs, hplacing, hcarry, hmissing, hpending, hending⟩ :=
      setLineWith_afterSet (p := p) (kept := kept) (flags := flags) (last := last) (carry := carry) hlt
    refine ⟨hglyphs, hplacing, hcarry, hmissing, hpending, hending, setLineWith_engine s slot p kept flags last carry, ?_, ?_,
      fun h => ?_, fun h => ?_⟩
    · simp [t]
    · simp [t]
    · obtain ⟨hent, hser, hjob⟩ := setLineWith_admitted (carry := carry) hlt h
      obtain ⟨-, hheld, hnumber⟩ := afterSet_of_admitted hjob
      exact ⟨hent, hser, hheld, hnumber⟩
    · obtain ⟨hqueue, hjob, hstatus⟩ := setLineWith_held (carry := carry) hlt h
      obtain ⟨-, hheld, hnumber⟩ := afterSet_of_held hjob
      exact ⟨hqueue, hheld, hnumber, hstatus⟩
  · intro s slot e j l hserves hlt he
    have hcomposing : j.composing = true := (composing_iff j).2 ((serves_iff s .set slot).1 hserves).2.1
    refine ⟨fun p hp hg hset => exec_setLine ((setLine_of_set hserves).trans (carryEnding_sets he hp hg hset)), ?_⟩
    intro hp mark params
    refine ⟨fun hcut hmove => ?_, fun b hb => ?_⟩
    · have hnone := action_entry_eq_none hcut hmove
      refine ⟨_, exec_setLine ((setLine_of_set hserves).trans (carryEnding_completes he hp hnone)), ?_⟩
      obtain ⟨c, f, hjob⟩ := completed_sameBut (e := e) hlt
      rw [hjob]
      refine ⟨rfl, rfl, completeEnding_params e _, fun hset => ?_, ?_⟩
      · simp [Job.completeEnding, hset]
      · simp [State.endingBegun]
    · obtain ⟨hentry, haction⟩ := action_entry_eq_some hb
      have hstep := exec_setLine ((setLine_of_set hserves).trans (carryEnding_offers he hp hentry))
      cases hadm : s.admits slot b with
      | true =>
        obtain ⟨hent, hjob⟩ := offering_admitted (e := e) hlt haction hadm
        obtain ⟨hmark, hparams, hheld, hend⟩ := offering_fields hlt hjob
        exact ⟨_, hstep, hmark, hparams, offer_engine _ _ _, fun _ => ⟨hend, hheld, hent⟩, nofun⟩
      | false =>
        obtain ⟨hqueue, hjob, hstatus⟩ := offering_held (e := e) hlt hadm
        obtain ⟨hmark, hparams, hheld, hend⟩ := offering_fields hlt hjob
        rw [offering_job hlt] at hend
        exact ⟨_, hstep, hmark, hparams, offer_engine _ _ _, nofun, fun _ => ⟨hheld, hend.trans he, hqueue, hstatus hcomposing⟩⟩

end Sys2Proof.Machine
end

section
/-! O31: the positions of a line's glyphs in their order. -/

namespace Sys2Proof.Machine

open Sys2Proof

/-- The first glyph stands at the rounded start, and the glyphs after it are placed from a start that is no less (R84). -/
theorem placeAt_eq_cons (g : Glyph) (gs : List Glyph) (advs gaps pairs : List Nat) (start : Nat) :
    ∃ gaps' pairs' next, start ≤ next ∧
      placeAt (g :: gs) advs gaps pairs start = (g.code, (start + 64) / 128) :: placeAt gs (advs.drop 1) gaps' pairs' next := by
  cases gs with
  | nil => exact ⟨gaps, pairs, start, le_rfl, rfl⟩
  | cons h gs =>
    rw [placeAt_cons_cons]
    split
    · exact ⟨gaps.drop 1, pairs, start + advs.headD 0 + gaps.headD 0, by omega, rfl⟩
    · exact ⟨gaps, pairs.drop 1, start + advs.headD 0 + pairs.headD 0, by omega, rfl⟩

theorem placeAt_map_fst (gs : List Glyph) (advs gaps pairs : List Nat) (start : Nat) :
    (placeAt gs advs gaps pairs start).map Prod.fst = gs.map Glyph.code := by
  induction gs generalizing advs gaps pairs start with
  | nil => rfl
  | cons g gs ih =>
    obtain ⟨gaps', pairs', next, -, heq⟩ := placeAt_eq_cons g gs advs gaps pairs start
    rw [heq, List.map_cons, ih, List.map_cons]

theorem start_le_of_mem_placeAt {gs : List Glyph} {advs gaps pairs : List Nat} {start : Nat} {x : Byte × Nat}
    (hx : x ∈ placeAt gs advs gaps pairs start) : (start + 64) / 128 ≤ x.2 := by
  induction gs generalizing advs gaps pairs start with
  | nil => exact absurd hx List.not_mem_nil
  | cons g gs ih =>
    obtain ⟨gaps', pairs', next, hnext, heq⟩ := placeAt_eq_cons g gs advs gaps pairs start
    rw [heq] at hx
    obtain rfl | htail := List.mem_cons.1 hx
    · exact le_rfl
    · calc (start + 64) / 128 ≤ (next + 64) / 128 := by gcongr
        _ ≤ x.2 := ih htail

theorem placeAt_pairwise_le (gs : List Glyph) (advs gaps pairs : List Nat) (start : Nat) :
    ((placeAt gs advs gaps pairs start).map Prod.snd).Pairwise (· ≤ ·) := by
  induction gs generalizing advs gaps pairs start with
  | nil => exact List.Pairwise.nil
  | cons g gs ih =>
    obtain ⟨gaps', pairs', next, -, heq⟩ := placeAt_eq_cons g gs advs gaps pairs start
    rw [heq, List.map_cons]
    refine List.pairwise_cons.2 ⟨List.forall_mem_map.2 fun x hx => ?_, ih _ _ _ _⟩
    exact start_le_of_mem_placeAt (heq ▸ List.mem_cons_of_mem _ hx)

theorem placeAt_head? {gs : List Glyph} {advs gaps pairs : List Nat} {start : Nat} {x : Byte × Nat}
    (hx : x ∈ (placeAt gs advs gaps pairs start).head?) : x.2 = (start + 64) / 128 := by
  cases gs with
  | nil => exact absurd hx nofun
  | cons g gs =>
    obtain rfl := Option.mem_some_iff.1 hx
    rfl

/-- Settles O31, by induction on the glyphs: each is placed from a start no less than the start before it. -/
theorem glyphPositionsDoNotDecrease : Obligations.GlyphPositionsDoNotDecrease := by
  unfold Obligations.GlyphPositionsDoNotDecrease
  intro gs advs gaps pairs start placed
  exact ⟨placeAt_map_fst gs advs gaps pairs start, placeAt_pairwise_le gs advs gaps pairs start, fun x hx => placeAt_head? hx⟩

end Sys2Proof.Machine
end

section
/-! O32, the rule candidates: what the four sources offer at a position, and the best offer kept there (R91, R99, R100). -/

namespace Sys2Proof.Machine

open Sys2Proof

/-! ### The positions of a core -/

theorem inner_eq_range' (n : Nat) : inner n = List.range' 1 (n - 1) := by
  rw [inner, List.range_eq_range', List.drop_range']

@[simp] theorem mem_inner {n p : Nat} : p ∈ inner n ↔ 1 ≤ p ∧ p < n := by
  rw [inner_eq_range', List.mem_range'_1]; omega

theorem inner_pairwise (n : Nat) : (inner n).Pairwise (· < ·) :=
  inner_eq_range' n ▸ List.pairwise_lt_range'

/-! ### The four sources -/

section
variable (rules : List AffixRule) (t : LanguageTable) (l : List Nat) (n p g : Nat)

/-- A PREFIX rule of grade g matches the first p letters (R91). -/
def PrefixOffer : Prop :=
  ∃ r ∈ rules, r.suffix = false ∧ r.letters.length = p ∧ p < l.length ∧ l.take p = r.letters ∧ r.grade = g

/-- A SUFFIX rule of grade g matches the letters after the first p (R91). -/
def SuffixOffer : Prop :=
  ∃ r ∈ rules, r.suffix = true ∧ r.letters.length + p = l.length ∧ 0 < p ∧ l.drop p = r.letters ∧ r.grade = g

/-- The letter at a place of the core is a vowel (R90). -/
def vowelAt (i : Nat) : Bool := t.vowels.contains (l.getD i 0)

/-- Two consonants stand between vowels, the second of them after the first p letters (R99). -/
def ClusterOffer (vowel : Nat → Bool) : Prop :=
  2 ≤ p ∧ p + 2 ≤ n ∧ vowel (p - 2) = true ∧ vowel (p - 1) = false ∧ vowel p = false ∧ vowel (p + 1) = true

/-- One consonant stands between vowels, after the first p letters (R99). -/
def SingleOffer (vowel : Nat → Bool) : Prop :=
  1 ≤ p ∧ p + 2 ≤ n ∧ vowel (p - 1) = true ∧ vowel p = false ∧ vowel (p + 1) = true

/-- A source offers a division at a position with a grade (R91, R99). -/
def RuleOffer (src : Source) : Prop :=
  (src = .prefixRule ∧ PrefixOffer t.rules l p g) ∨ (src = .suffix ∧ SuffixOffer t.rules l p g) ∨
  (src = .cluster ∧ g = 2 ∧ ClusterOffer l.length p (vowelAt t l)) ∨
  (src = .single ∧ g = 3 ∧ SingleOffer l.length p (vowelAt t l))

/-- What the four sources offer at a position, in the order PREFIX, SUFFIX, cluster, single (R99). -/
def gathered : List Candidate :=
  (affixCandidates t.rules l).filter (fun c => c.position == p && c.source == .prefixRule) ++
    (affixCandidates t.rules l).filter (fun c => c.position == p && c.source == .suffix) ++ syllableAt (vowelAt t l) l.length p

end

section
variable {rules : List AffixRule} {t : LanguageTable} {l : List Nat} {n p g : Nat} {c : Candidate}

theorem mem_affixCandidates : c ∈ affixCandidates rules l ↔
    (c.source = .prefixRule ∧ PrefixOffer rules l c.position c.grade) ∨
    (c.source = .suffix ∧ SuffixOffer rules l c.position c.grade) := by
  obtain ⟨p, g, src⟩ := c
  simp only [affixCandidates, List.mem_filterMap, PrefixOffer, SuffixOffer]
  constructor
  · rintro ⟨r, hr, heq⟩
    split at heq
    · next hk =>
      cases hs : r.suffix <;> simp [hs] at heq <;> obtain ⟨hl, rfl, rfl, rfl⟩ := heq
      · exact Or.inl ⟨rfl, r, hr, hs, rfl, hk, hl, rfl⟩
      · exact Or.inr ⟨rfl, r, hr, hs, by omega, by omega, hl, rfl⟩
    · cases heq
  · rintro (⟨rfl, r, hr, hs, rfl, hk, hl, rfl⟩ | ⟨rfl, r, hr, hs, hk, hp, hl, rfl⟩)
    · exact ⟨r, hr, by simp [hs, hk, hl]⟩
    · have hpos : l.length - r.letters.length = p := by omega
      exact ⟨r, hr, by simp [hs, hpos, hl, show r.letters.length < l.length by omega]⟩

theorem mem_syllableAt {vowel : Nat → Bool} : c ∈ syllableAt vowel n p ↔
    c.position = p ∧ ((c.source = .cluster ∧ c.grade = 2 ∧ ClusterOffer n p vowel) ∨
      (c.source = .single ∧ c.grade = 3 ∧ SingleOffer n p vowel)) := by
  obtain ⟨q, g, src⟩ := c
  simp only [syllableAt, ClusterOffer, SingleOffer, List.mem_append, List.mem_ite_nil_right, List.mem_singleton,
    Candidate.mk.injEq, Bool.and_eq_true, decide_eq_true_eq, Bool.not_eq_true']
  tauto

theorem mem_gathered : c ∈ gathered t l p ↔ c.position = p ∧ RuleOffer t l p c.grade c.source := by
  simp only [gathered, RuleOffer, List.mem_append, List.mem_filter, mem_affixCandidates, mem_syllableAt, Bool.and_eq_true,
    beq_iff_eq]
  constructor
  · rintro ((⟨hoffer, rfl, hsrc⟩ | ⟨hoffer, rfl, hsrc⟩) | ⟨rfl, hoffer⟩)
    · exact ⟨rfl, Or.inl (by simpa [hsrc] using hoffer)⟩
    · exact ⟨rfl, Or.inr (Or.inl (by simpa [hsrc] using hoffer))⟩
    · exact ⟨rfl, Or.inr (Or.inr hoffer)⟩
  · rintro ⟨rfl, hprefix | hsuffix | hsyllable⟩
    · exact Or.inl (Or.inl ⟨Or.inl hprefix, rfl, hprefix.1⟩)
    · exact Or.inl (Or.inr ⟨Or.inr hsuffix, rfl, hsuffix.1⟩)
    · exact Or.inr ⟨rfl, hsyllable⟩

theorem RuleOffer.grade_bounds {src : Source} (h : RuleOffer t l p g src) (hr : ∀ r ∈ t.rules, 1 ≤ r.grade ∧ r.grade ≤ 3) :
    1 ≤ g ∧ g ≤ 3 := by
  obtain ⟨-, r, hmem, -, -, -, -, rfl⟩ | ⟨-, r, hmem, -, -, -, -, rfl⟩ | ⟨-, rfl, -⟩ | ⟨-, rfl, -⟩ := h
  · exact hr r hmem
  · exact hr r hmem
  · decide
  · decide

theorem gathered_pairwise_source (t : LanguageTable) (l : List Nat) (p : Nat) :
    (gathered t l p).Pairwise fun a b => a.source.code ≤ b.source.code := by
  have hfilter : ∀ (src : Source) (cs : List Candidate), ∀ c ∈ cs.filter fun c => c.position == p && c.source == src,
      c.source = src := fun src cs c hc => by
    obtain ⟨-, hsrc⟩ := Bool.and_eq_true_iff.1 (List.mem_filter.1 hc).2
    exact beq_iff_eq.1 hsrc
  have hsyllable : ∀ c ∈ syllableAt (vowelAt t l) l.length p, 5 ≤ c.source.code := fun c hc => by
    obtain ⟨-, ⟨hsrc, -⟩ | ⟨hsrc, -⟩⟩ := mem_syllableAt.1 hc <;> simp [hsrc, Source.code]
  refine List.pairwise_append.2 ⟨List.pairwise_append.2 ⟨?_, ?_, fun a ha b hb => ?_⟩, ?_, fun a ha b hb => ?_⟩
  · exact List.pairwise_of_forall_mem_list fun a ha b hb => by rw [hfilter _ _ a ha, hfilter _ _ b hb]
  · exact List.pairwise_of_forall_mem_list fun a ha b hb => by rw [hfilter _ _ a ha, hfilter _ _ b hb]
  · rw [hfilter _ _ a ha, hfilter _ _ b hb]; decide
  · simp only [syllableAt]; split <;> split <;> simp [Source.code]
  · refine le_trans ?_ (hsyllable b hb)
    obtain ha | ha := List.mem_append.1 ha <;> rw [hfilter _ _ a ha] <;> decide

end

/-! ### The best offer -/

/-- The candidate kept of those gathered at a position (R100). -/
def bestOf : List Candidate → Option Candidate
  | [] => none
  | c :: cs => some (cs.foldl better c)

/-- The fold keeps a candidate of the lowest grade, and of these the one whose source comes first. -/
theorem foldl_better {c : Candidate} {cs : List Candidate}
    (h : (c :: cs).Pairwise fun a b => a.source.code ≤ b.source.code) :
    cs.foldl better c ∈ c :: cs ∧ ∀ x ∈ c :: cs, (cs.foldl better c).grade ≤ x.grade ∧
      (x.grade = (cs.foldl better c).grade → (cs.foldl better c).source.code ≤ x.source.code) := by
  induction cs generalizing c with
  | nil => simp
  | cons d cs ih =>
    obtain ⟨hc, hcs⟩ := List.pairwise_cons.1 h
    have hcd : c.source.code ≤ d.source.code := hc d List.mem_cons_self
    rw [List.foldl_cons]
    by_cases hlt : d.grade < c.grade
    · rw [show better c d = d from if_pos hlt]
      obtain ⟨hmem, hmin⟩ := ih hcs
      have hd := hmin d List.mem_cons_self
      refine ⟨List.mem_cons_of_mem _ hmem, List.forall_mem_cons.2 ⟨?_, hmin⟩⟩
      omega
    · rw [show better c d = c from if_neg hlt]
      obtain ⟨hmem, hmin⟩ := ih (h.sublist (List.Sublist.cons_cons c (List.sublist_cons_self d cs)))
      have hkept := hmin c List.mem_cons_self
      obtain ⟨-, hmin⟩ := List.forall_mem_cons.1 hmin
      refine ⟨?_, List.forall_mem_cons.2 ⟨hkept, List.forall_mem_cons.2 ⟨?_, hmin⟩⟩⟩
      · obtain heq | hmem := List.mem_cons.1 hmem
        · rw [heq]; exact List.mem_cons_self
        · exact List.mem_cons_of_mem _ (List.mem_cons_of_mem _ hmem)
      · omega

theorem bestOf_isSome {cs : List Candidate} {x : Candidate} (hx : x ∈ cs) : ∃ c, bestOf cs = some c := by
  cases cs with
  | nil => cases hx
  | cons c cs => exact ⟨_, rfl⟩

theorem bestOf_some {cs : List Candidate} {c : Candidate} (h : cs.Pairwise fun a b => a.source.code ≤ b.source.code)
    (hc : bestOf cs = some c) :
    c ∈ cs ∧ ∀ x ∈ cs, c.grade ≤ x.grade ∧ (x.grade = c.grade → c.source.code ≤ x.source.code) := by
  cases cs with
  | nil => cases hc
  | cons d cs =>
    obtain rfl := Option.some.inj hc
    exact foldl_better h

/-! ### The rule candidates -/

section
variable {t : LanguageTable} {l : List Nat} {a b : Nat}

theorem ruleCandidates_of_lt (h : l.length < a + b) : ruleCandidates t l a b = [] := if_pos h

theorem ruleCandidates_of_le (h : a + b ≤ l.length) : ruleCandidates t l a b =
    (inner l.length).filterMap fun p => if a ≤ p && p + b ≤ l.length then bestOf (gathered t l p) else none := by
  have hlt : ¬l.length < a + b := by omega
  simp only [ruleCandidates, if_neg hlt]
  rfl

/-- The candidate a position has, where it lies within the minima (R100). -/
theorem mem_ruleCandidates {c : Candidate} : c ∈ ruleCandidates t l a b ↔
    1 ≤ c.position ∧ c.position < l.length ∧ a ≤ c.position ∧ c.position + b ≤ l.length ∧
      bestOf (gathered t l c.position) = some c := by
  by_cases hlt : l.length < a + b
  · rw [ruleCandidates_of_lt hlt]
    exact ⟨nofun, fun ⟨_, _, _, _, _⟩ => by omega⟩
  · simp only [ruleCandidates_of_le (not_lt.1 hlt), List.mem_filterMap, mem_inner, Option.ite_none_right_eq_some,
      Bool.and_eq_true, decide_eq_true_eq]
    constructor
    · rintro ⟨p, ⟨h1, hn⟩, ⟨ha, hb⟩, hbest⟩
      obtain ⟨rfl, -⟩ := mem_gathered.1 (bestOf_some (gathered_pairwise_source t l p) hbest).1
      exact ⟨h1, hn, ha, hb, hbest⟩
    · rintro ⟨h1, hn, ha, hb, hbest⟩
      exact ⟨c.position, ⟨h1, hn⟩, ⟨ha, hb⟩, hbest⟩

theorem ruleCandidates_pairwise (t : LanguageTable) (l : List Nat) (a b : Nat) :
    ((ruleCandidates t l a b).map Candidate.position).Pairwise (· < ·) := by
  by_cases hlt : l.length < a + b
  · rw [ruleCandidates_of_lt hlt]; exact List.Pairwise.nil
  · rw [ruleCandidates_of_le (not_lt.1 hlt), List.pairwise_map]
    have hpos : ∀ (p : Nat) (c : Candidate), (if a ≤ p && p + b ≤ l.length then bestOf (gathered t l p) else none) = some c →
        c.position = p := fun p c hc =>
      (mem_gathered.1 (bestOf_some (gathered_pairwise_source t l p) (Option.ite_none_right_eq_some.1 hc).2).1).1
    refine (inner_pairwise l.length).filterMap _ fun p q hpq c hc d hd => ?_
    rwa [hpos p c hc, hpos q d hd]

/-- A rule candidate is offered at its position, and no offer there is better (R100). -/
theorem offer_of_mem_ruleCandidates {c : Candidate} (h : c ∈ ruleCandidates t l a b) :
    RuleOffer t l c.position c.grade c.source ∧ ∀ g src, RuleOffer t l c.position g src →
      c.grade ≤ g ∧ (g = c.grade → c.source.code ≤ src.code) := by
  obtain ⟨-, -, -, -, hbest⟩ := mem_ruleCandidates.1 h
  obtain ⟨hmem, hmin⟩ := bestOf_some (gathered_pairwise_source t l c.position) hbest
  exact ⟨(mem_gathered.1 hmem).2, fun g src hoffer =>
    hmin { position := c.position, grade := g, source := src } (mem_gathered.2 ⟨rfl, hoffer⟩)⟩

theorem mem_ruleCandidates_position {p g : Nat} {src : Source} (h1 : 1 ≤ p) (hn : p < l.length) (ha : a ≤ p)
    (hb : p + b ≤ l.length) (h : RuleOffer t l p g src) : p ∈ (ruleCandidates t l a b).map Candidate.position := by
  have hmem : ({ position := p, grade := g, source := src } : Candidate) ∈ gathered t l p := mem_gathered.2 ⟨rfl, h⟩
  obtain ⟨c, hbest⟩ := bestOf_isSome hmem
  obtain ⟨rfl, -⟩ := mem_gathered.1 (bestOf_some (gathered_pairwise_source t l p) hbest).1
  exact List.mem_map_of_mem (mem_ruleCandidates.2 ⟨h1, hn, ha, hb, hbest⟩)

end

end Sys2Proof.Machine
end

section
/-! O32: the class, the core and the candidates of a word (R90, R95 to R98). -/

namespace Sys2Proof.Machine

open Sys2Proof

/-! ### The characters of a word -/

theorem letterIndex_some (t : LanguageTable) {c : CoreChar} (h : c.explicit = false) :
    letterIndex (some t) c = tableAt t.letterMap c.code := by
  simp [letterIndex, h]

theorem letterIndex_explicit (table : Option LanguageTable) {c : CoreChar} (h : c.explicit = true) : letterIndex table c = 0 := by
  simp [letterIndex, h]

@[simp] theorem letterIndex_none (c : CoreChar) : letterIndex none c = 0 := by
  simp [letterIndex]

theorem wordChars_char (s : State) (c : Byte) (f z : Nat) (items : List WordItem) : s.wordChars (.char c f z :: items) =
    { code := c, explicit := (s.font f).any fun r => r.hyphen == c } :: s.wordChars items := by
  cases hf : s.font f <;> simp [State.wordChars, hf]

theorem wordChars_mark (s : State) (items : List WordItem) : s.wordChars (.mark :: items) = s.wordChars items := rfl

/-! ### The candidates of each kind -/

/-- The candidates of a word divided where its text says so: the positions a test picks, grade 1 (R96, R97). -/
theorem mem_map_filter_inner {n : Nat} {q : Nat → Bool} {src : Source} {c : Candidate} :
    c ∈ ((inner n).filter q).map (fun p => { position := p, grade := 1, source := src : Candidate }) ↔
      c.grade = 1 ∧ c.source = src ∧ 1 ≤ c.position ∧ c.position < n ∧ q c.position = true := by
  obtain ⟨p, g, src'⟩ := c
  simp only [List.mem_map, List.mem_filter, mem_inner, Candidate.mk.injEq]
  constructor
  · rintro ⟨_, ⟨⟨h1, hn⟩, hq⟩, rfl, rfl, rfl⟩
    exact ⟨rfl, rfl, h1, hn, hq⟩
  · rintro ⟨rfl, rfl, h1, hn, hq⟩
    exact ⟨p, ⟨⟨h1, hn⟩, hq⟩, rfl, rfl, rfl⟩

theorem map_filter_inner_pairwise (n : Nat) (q : Nat → Bool) (src : Source) :
    ((((inner n).filter q).map fun p => { position := p, grade := 1, source := src : Candidate }).map
      Candidate.position).Pairwise (· < ·) := by
  rw [List.map_map, List.pairwise_map]
  exact (inner_pairwise n).filter _

/-- An explicit hyphen stands just before a position (R97). -/
theorem explicitAt_iff {core : List CoreChar} {p : Nat} :
    ((core[p - 1]?).map (·.explicit)).getD false = true ↔ ∃ x, core[p - 1]? = some x ∧ x.explicit = true := by
  cases core[p - 1]? <;> simp

/-- The candidates of a dictionary entry: its breaks within the minima (R98). -/
def entryCandidates (e : DictEntry) (minPrefix minSuffix n : Nat) : List Candidate :=
  (e.breaks.filter fun b => decide (minPrefix ≤ b.position ∧ b.position + minSuffix ≤ n)).map fun b =>
    { position := b.position, grade := b.grade, source := .dictionary : Candidate }

/-- A valid list of breaks is in ascending position (R107). -/
theorem breaksOk_pairwise {n : Nat} {bs : List WordBreak} (h : breaksOk n bs = true) :
    bs.Pairwise fun a b => a.position < b.position := by
  have hnext : ∀ q ∈ bs.zip (bs.drop 1), q.1.position < q.2.position := by
    simp only [breaksOk, Bool.and_eq_true] at h
    simpa using h.2
  have hchain : bs.IsChain fun a b => a.position < b.position := by
    clear h
    induction bs with
    | nil => exact .nil
    | cons a bs ih =>
      cases bs with
      | nil => exact .singleton a
      | cons b bs =>
        obtain ⟨hab, hrest⟩ := List.forall_mem_cons.1 hnext
        exact List.isChain_cons_cons.2 ⟨hab, ih hrest⟩
  have : Trans (fun a b : WordBreak => a.position < b.position) (fun a b : WordBreak => a.position < b.position)
    (fun a b : WordBreak => a.position < b.position) := ⟨lt_trans⟩
  exact hchain.pairwise

theorem entryCandidates_pairwise {e : DictEntry} {m : Nat} (h : breaksOk m e.breaks = true) (minPrefix minSuffix n : Nat) :
    ((entryCandidates e minPrefix minSuffix n).map Candidate.position).Pairwise (· < ·) := by
  rw [entryCandidates, List.map_map, List.pairwise_map]
  exact (breaksOk_pairwise h).filter _

theorem mem_of_choose {d : List DictEntry} {language slot id : Nat} {w : List Nat} {e : DictEntry}
    (h : choose d language w slot id = some e) : e ∈ d := by
  have hkey : ∀ {sc}, entryOfKey d language w sc = some e → e ∈ d := List.mem_of_find?_eq_some
  simp only [choose, Option.orElse_eq_or, Option.or_eq_some_iff] at h
  obtain hjob | ⟨-, hdesk | ⟨-, hhouse⟩⟩ := h
  · exact hkey hjob
  · exact hkey hdesk
  · exact hkey hhouse

section
variable (s : State) (slot language minPrefix minSuffix : Nat)

/-- The entry a core of letters consults: the dictionary is asked for 2 to 31 letters (R98). -/
def State.entryFor (core : List CoreChar) : Option DictEntry :=
  if 2 ≤ core.length ∧ core.length ≤ 31 then
    choose s.dict language (core.map (letterIndex (s.language language))) slot (s.job slot).id
  else none

variable {s slot language minPrefix minSuffix}

theorem mem_dict_of_entryFor {core : List CoreChar} {e : DictEntry} (h : s.entryFor slot language core = some e) : e ∈ s.dict :=
  mem_of_choose (Option.ite_none_right_eq_some.1 h).2

/-! ### Marked words, and words without a letter -/

theorem analyse_of_marks (chars : List CoreChar) {marks : List Nat} (h : marks ≠ []) :
    analyse s slot language minPrefix minSuffix chars marks =
      { cls := .discretionary, start := 0, length := chars.length, entry := none
        candidates := ((inner chars.length).filter marks.contains).map fun p =>
          { position := p, grade := 1, source := .discretionary } } := by
  simp [analyse, h]

theorem analyse_of_no_letter {chars : List CoreChar} (h : ∀ c ∈ chars, letterIndex (s.language language) c = 0) :
    analyse s slot language minPrefix minSuffix chars [] =
      { cls := .noLetters, start := 0, length := 0, entry := none, candidates := [] } := by
  have hany : (chars.any fun c => letterIndex (s.language language) c != 0) = false := by simpa using h
  simp [analyse, hany]

/-! ### The hyphenable core -/

/-- A character that is no letter. -/
def blank (letter : CoreChar → Nat) (c : CoreChar) : Bool := letter c == 0

@[simp] theorem blank_eq_true {letter : CoreChar → Nat} {c : CoreChar} : blank letter c = true ↔ letter c = 0 := beq_iff_eq

/-- A word's characters in three parts: the core from the first letter to the last, and the characters before and after it (R95). -/
structure IsCore (letter : CoreChar → Nat) (chars front core back : List CoreChar) : Prop where
  parts : chars = front ++ core ++ back
  front_zero : ∀ c ∈ front, letter c = 0
  back_zero : ∀ c ∈ back, letter c = 0
  first : ∃ c ∈ core.head?, letter c ≠ 0
  last : ∃ c ∈ core.getLast?, letter c ≠ 0

section
variable {letter : CoreChar → Nat} {chars front core back : List CoreChar}

theorem IsCore.any_letter (h : IsCore letter chars front core back) : (chars.any fun c => letter c != 0) = true := by
  obtain ⟨c, hc, hletter⟩ := h.first
  have hmem : c ∈ chars := by simp [h.parts, List.mem_of_head? hc]
  exact List.any_eq_true.2 ⟨c, hmem, by simpa using hletter⟩

theorem IsCore.takeWhile_eq (h : IsCore letter chars front core back) : (chars.takeWhile fun c => !(letter c != 0)) = front := by
  obtain ⟨c, hc, hletter⟩ := h.first
  obtain ⟨rest, rfl⟩ := List.head?_eq_some_iff.1 hc
  rw [h.parts, List.append_assoc, List.takeWhile_append_of_pos (by simpa using h.front_zero), List.cons_append,
    List.takeWhile_cons_of_neg (by simpa using hletter), List.append_nil]

theorem IsCore.trimmed_eq (h : IsCore letter chars front core back) :
    ((chars.drop front.length).reverse.dropWhile fun c => !(letter c != 0)).reverse = core := by
  obtain ⟨c, hc, hletter⟩ := h.last
  obtain ⟨rest, rfl⟩ := List.getLast?_eq_some_iff.1 hc
  rw [h.parts, List.append_assoc, List.drop_left, List.reverse_append,
    List.dropWhile_append_of_pos (by simpa using h.back_zero), List.reverse_concat,
    List.dropWhile_cons_of_neg (by simpa using hletter), List.reverse_cons, List.reverse_reverse]

/-- A word with a letter has a core. -/
theorem exists_isCore (h : ¬∀ c ∈ chars, letter c = 0) : ∃ front core back, IsCore letter chars front core back := by
  have hne : chars.dropWhile (blank letter) ≠ [] := fun hnil => h fun c hc =>
    blank_eq_true.1 (List.dropWhile_eq_nil_iff.1 hnil c hc)
  obtain ⟨c, rest, hrest⟩ := List.exists_cons_of_ne_nil hne
  have hfirst : letter c ≠ 0 := by simpa [hrest, blank] using List.head_dropWhile_not (blank letter) hne
  have hcore : (c :: rest).rdropWhile (blank letter) ≠ [] := fun hnil =>
    hfirst (blank_eq_true.1 (List.rdropWhile_eq_nil_iff.1 hnil c List.mem_cons_self))
  refine ⟨chars.takeWhile (blank letter), (c :: rest).rdropWhile (blank letter), (c :: rest).rtakeWhile (blank letter), ?_,
    fun c hc => blank_eq_true.1 (List.mem_takeWhile_imp hc), fun c hc => blank_eq_true.1 (List.mem_rtakeWhile_imp hc), ?_, ?_⟩
  · rw [List.append_assoc, List.rdropWhile_append_rtakeWhile, ← hrest, List.takeWhile_append_dropWhile]
  · obtain ⟨d, more, hd⟩ := List.exists_cons_of_ne_nil hcore
    obtain ⟨tail, htail⟩ := List.rdropWhile_prefix (blank letter) (c :: rest)
    rw [hd] at htail ⊢
    obtain ⟨rfl, -⟩ := List.cons.inj htail
    exact ⟨d, rfl, hfirst⟩
  · exact ⟨_, List.getLast?_eq_some_getLast hcore, by simpa using List.rdropWhile_last_not (blank letter) (c :: rest) hcore⟩

end

section
variable {chars front core back : List CoreChar}

/-- Under an undefined language no character is a letter (R90). -/
theorem IsCore.language_some (h : IsCore (letterIndex (s.language language)) chars front core back) :
    ∃ t, s.language language = some t := by
  obtain ⟨c, -, hletter⟩ := h.first
  refine Option.ne_none_iff_exists'.1 fun hnone => hletter ?_
  rw [hnone, letterIndex_none]

/-- Where the core stands, whatever its class (R95). -/
theorem IsCore.analyse_place (h : IsCore (letterIndex (s.language language)) chars front core back) :
    (analyse s slot language minPrefix minSuffix chars []).start = front.length ∧
    (analyse s slot language minPrefix minSuffix chars []).length = core.length := by
  simp only [analyse, List.isEmpty_nil, Bool.not_true, Bool.false_eq_true, if_false, h.any_letter, h.takeWhile_eq, h.trimmed_eq]
  (repeat' split) <;> exact ⟨rfl, rfl⟩

theorem IsCore.analyse_explicit (h : IsCore (letterIndex (s.language language)) chars front core back)
    (hx : ∃ c ∈ core, c.explicit = true) :
    analyse s slot language minPrefix minSuffix chars [] =
      { cls := .explicit, start := front.length, length := core.length, entry := none
        candidates := ((inner core.length).filter fun p => ((core[p - 1]?).map (·.explicit)).getD false).map fun p =>
          { position := p, grade := 1, source := .explicit } } := by
  simp only [analyse, h.any_letter, h.takeWhile_eq, h.trimmed_eq, List.any_eq_true.2 hx]
  rfl

theorem IsCore.analyse_unhyphenable (h : IsCore (letterIndex (s.language language)) chars front core back)
    (hx : ∀ c ∈ core, c.explicit = false) (hz : ∃ c ∈ core, letterIndex (s.language language) c = 0) :
    analyse s slot language minPrefix minSuffix chars [] =
      { cls := .unhyphenable, start := front.length, length := core.length, entry := none, candidates := [] } := by
  have hany : core.any (·.explicit) = false := by simpa using hx
  have hall : (core.all fun c => letterIndex (s.language language) c != 0) = false := by simpa using hz
  simp only [analyse, h.any_letter, h.takeWhile_eq, h.trimmed_eq, hany, hall]
  rfl

theorem any_explicit_of_letters {table : Option LanguageTable} (hl : ∀ c ∈ core, letterIndex table c ≠ 0) :
    core.any (·.explicit) = false :=
  List.any_eq_false.2 fun c hc hx => hl c hc (letterIndex_explicit table hx)

theorem all_letter_of_letters {table : Option LanguageTable} (hl : ∀ c ∈ core, letterIndex table c ≠ 0) :
    (core.all fun c => letterIndex table c != 0) = true := by
  simpa using hl

theorem IsCore.analyse_dictionary (h : IsCore (letterIndex (s.language language)) chars front core back)
    (hl : ∀ c ∈ core, letterIndex (s.language language) c ≠ 0) {e : DictEntry} (he : s.entryFor slot language core = some e) :
    analyse s slot language minPrefix minSuffix chars [] =
      { cls := if entryCandidates e minPrefix minSuffix core.length = [] then .never else .dictionary
        start := front.length, length := core.length, entry := some e
        candidates := entryCandidates e minPrefix minSuffix core.length } := by
  have hany := any_explicit_of_letters hl
  have hall := all_letter_of_letters hl
  simp only [State.entryFor] at he
  simp [analyse, h.any_letter, h.takeWhile_eq, h.trimmed_eq, hany, hall, he, entryCandidates, Bool.decide_and]

theorem IsCore.analyse_rules (h : IsCore (letterIndex (s.language language)) chars front core back)
    (hl : ∀ c ∈ core, letterIndex (s.language language) c ≠ 0) (he : s.entryFor slot language core = none) {t : LanguageTable}
    (ht : s.language language = some t) :
    analyse s slot language minPrefix minSuffix chars [] =
      { cls := if core.length < minPrefix + minSuffix then .noRules else .rules
        start := front.length, length := core.length, entry := none
        candidates := ruleCandidates t (core.map (letterIndex (s.language language))) minPrefix minSuffix } := by
  have hany := any_explicit_of_letters hl
  have hall := all_letter_of_letters hl
  simp only [State.entryFor] at he
  simp only [analyse, List.isEmpty_nil, Bool.not_true, Bool.false_eq_true, if_false, h.any_letter, h.takeWhile_eq, h.trimmed_eq,
    hany, hall, Bool.and_eq_true, decide_eq_true_eq, he]
  rw [ht]

/-- The candidates of a word stand in ascending position (R96 to R100, R107). -/
theorem analyse_candidates_pairwise (hd : DictOk s) (chars : List CoreChar) (marks : List Nat) :
    ((analyse s slot language minPrefix minSuffix chars marks).candidates.map Candidate.position).Pairwise (· < ·) := by
  by_cases hm : marks = []
  swap
  · rw [analyse_of_marks chars hm]; exact map_filter_inner_pairwise _ _ _
  subst hm
  by_cases hz : ∀ c ∈ chars, letterIndex (s.language language) c = 0
  · rw [analyse_of_no_letter hz]; exact .nil
  obtain ⟨front, core, back, h⟩ := exists_isCore hz
  by_cases hx : ∃ c ∈ core, c.explicit = true
  · rw [h.analyse_explicit hx]; exact map_filter_inner_pairwise _ _ _
  have hx : ∀ c ∈ core, c.explicit = false := by simpa using hx
  by_cases hl : ∃ c ∈ core, letterIndex (s.language language) c = 0
  · rw [h.analyse_unhyphenable hx hl]; exact .nil
  have hl : ∀ c ∈ core, letterIndex (s.language language) c ≠ 0 := by simpa using hl
  cases he : s.entryFor slot language core with
  | some e =>
    rw [h.analyse_dictionary hl he]
    obtain ⟨-, -, -, -, hentries⟩ := hd
    obtain ⟨-, -, -, hbreaks, -⟩ := hentries e (mem_dict_of_entryFor he)
    exact entryCandidates_pairwise hbreaks _ _ _
  | none =>
    obtain ⟨t, ht⟩ := h.language_some
    rw [h.analyse_rules hl he ht]
    exact ruleCandidates_pairwise _ _ _ _

end

end

/-- Settles O32, from what the best offer at a position is and from the analysis of each class of word. -/
theorem ruleCandidatesKeepTheMinima : Obligations.RuleCandidatesKeepTheMinima := by
  unfold Obligations.RuleCandidatesKeepTheMinima
  constructor
  · intro t l minPrefix minSuffix n cs vowel offers
    refine ⟨ruleCandidates_of_lt, ruleCandidates_pairwise t l minPrefix minSuffix, fun p g src hc => ?_,
      fun p g src h1 hn ha hb hoffer => mem_ruleCandidates_position h1 hn ha hb hoffer,
      fun hgrades c hc => (offer_of_mem_ruleCandidates hc).1.grade_bounds hgrades⟩
    obtain ⟨h1, hn, ha, hb, -⟩ := mem_ruleCandidates.1 hc
    obtain ⟨hoffer, hbest⟩ := offer_of_mem_ruleCandidates hc
    exact ⟨h1, hn, ha, hb, hoffer, hbest⟩
  · intro s slot language minPrefix minSuffix chars marks table letter a
    refine ⟨fun c t ht hx => ?_, fun c hc => ?_, fun c f z items => ⟨wordChars_char s c f z items, wordChars_mark s items⟩,
      fun hd => analyse_candidates_pairwise hd chars marks, fun hm => ?_, fun hm hz => ?_, ?_⟩
    · simp only [letter, ht, letterIndex_some t hx]
    · obtain hnone | hx := hc
      · simp only [letter, hnone, letterIndex_none]
      · exact letterIndex_explicit table hx
    · simp only [a, analyse_of_marks chars hm, true_and]
      exact fun c => by rw [mem_map_filter_inner, List.contains_iff_mem]
    · subst hm
      exact analyse_of_no_letter hz
    · intro front core back n hm hparts hfront hback hfirst hlast
      subst hm
      have h : IsCore (letterIndex table) chars front core back := ⟨hparts, hfront, hback, hfirst, hlast⟩
      refine ⟨h.analyse_place.1, h.analyse_place.2, fun hx => ?_, fun hx hz => ?_, fun hl => ?_⟩
      · simp only [a, h.analyse_explicit hx, true_and]
        exact fun c => by rw [mem_map_filter_inner, explicitAt_iff]
      · simp only [a, h.analyse_unhyphenable hx hz, and_self]
      · intro l found
        refine ⟨?_, fun e he => ?_, fun t he ht => ?_⟩
        · cases he : s.entryFor slot language core with
          | some e => exact (congrArg Analysis.entry (h.analyse_dictionary hl he)).trans he.symm
          | none =>
            obtain ⟨t, ht⟩ := h.language_some
            exact (congrArg Analysis.entry (h.analyse_rules hl he ht)).trans he.symm
        · have ha : a = _ := h.analyse_dictionary hl he
          rw [ha]
          exact ⟨rfl, rfl⟩
        · have ha : a = _ := h.analyse_rules hl he ht
          rw [ha]
          exact ⟨rfl, rfl⟩

end Sys2Proof.Machine
end

section
/-! The checks of a word, of its breaks and of its owner, entries by slot and by key, and the answers of ADD WORD (R107, R108, R113,
R114). -/

namespace Sys2Proof.Machine

open Sys2Proof

/-! ### Answers that carry a payload -/

section
variable {s : State} {i : Instr} {tag : Byte} {e : Effect} {st : Status} {p : List Byte}

/-- A request that changes nothing but the dictionary. -/
theorem exec_dict {d : List DictEntry} (ha : s.accepting) (hs : i.shapeOk = true) (hi : effectOf i = some (tag, e))
    (he : e s.received = ({ s.received with dict := d }, { status := st, payload := p })) :
    exec i s = .next (({ s with dict := d } : State).answered (replyWith i tag st p)) :=
  exec_answered (t := { s with dict := d }) ha hs hi he

/-- A request that changes nothing. -/
theorem exec_reported (ha : s.accepting) (hs : i.shapeOk = true) (hi : effectOf i = some (tag, e))
    (he : e s.received = (s.received, { status := st, payload := p })) : exec i s = .next (s.answered (replyWith i tag st p)) :=
  exec_answered ha hs hi he

end

/-! ### A word, its breaks, its owner -/

theorem wordOk_iff (w : List Byte) :
    wordOk w = true ↔ 2 ≤ w.length ∧ w.length ≤ 31 ∧ ∀ b ∈ w, isCharCode b = true := by
  simp only [wordOk, Bool.and_eq_true, decide_eq_true_eq, List.all_eq_true, and_assoc]

/-- Each position below the next, in the words of the check. -/
theorem all_next_lt_of_pairwise {bs : List WordBreak} (h : bs.Pairwise fun a b => a.position < b.position) :
    ((bs.zip (bs.drop 1)).all fun p => p.1.position < p.2.position) = true := by
  induction bs with
  | nil => rfl
  | cons a bs ih =>
    obtain ⟨ha, hbs⟩ := List.pairwise_cons.1 h
    cases bs with
    | nil => rfl
    | cons b bs => simpa [ha b List.mem_cons_self] using ih hbs

theorem breaksOk_iff (n : Nat) (bs : List WordBreak) :
    breaksOk n bs = true ↔ bs.length ≤ 8 ∧
      (∀ b ∈ bs, 1 ≤ b.position ∧ b.position ≤ n - 1 ∧ 1 ≤ b.grade ∧ b.grade ≤ 3) ∧
      (bs.map WordBreak.position).Pairwise (· < ·) := by
  have hrange : (bs.all fun b => 1 ≤ b.position && b.position + 1 ≤ n && 1 ≤ b.grade && b.grade ≤ 3) = true ↔
      ∀ b ∈ bs, 1 ≤ b.position ∧ b.position ≤ n - 1 ∧ 1 ≤ b.grade ∧ b.grade ≤ 3 := by
    simp only [List.all_eq_true, Bool.and_eq_true, decide_eq_true_eq]
    exact forall₂_congr fun b _ => by omega
  rw [List.pairwise_map]
  constructor
  · intro h
    have hasc := breaksOk_pairwise h
    simp only [breaksOk, Bool.and_eq_true, decide_eq_true_eq] at h
    obtain ⟨⟨hlen, hall⟩, -⟩ := h
    exact ⟨hlen, hrange.1 hall, hasc⟩
  · intro ⟨hlen, hall, hasc⟩
    simp only [breaksOk, Bool.and_eq_true, decide_eq_true_eq]
    exact ⟨⟨hlen, hrange.2 hall⟩, all_next_lt_of_pairwise hasc⟩

theorem scopeOf_eq (o : ScopeArg) :
    scopeOf o = if o.scope = 0 then some .house else if o.scope = 1 then some .desk
      else if o.scope = 2 ∧ o.slot ≤ 3 ∧ o.jobId ≠ 0 then some (.job o.slot o.jobId) else none := by
  simp only [scopeOf]
  split
  · next h => simp [h]
  · next h => simp [h]
  · next h => simp [h]
  · next h0 h1 h2 =>
    rw [if_neg h0, if_neg h1, if_neg fun h => h2 h.1]

theorem slot_lt_of_scopeOf {o : ScopeArg} {slot id : Nat} (h : scopeOf o = some (.job slot id)) : slot < 4 := by
  rw [scopeOf_eq] at h
  split_ifs at h with h0 h1 h2
  · exact absurd h nofun
  · exact absurd h nofun
  · cases h
    exact Nat.lt_succ_of_le h2.2.1

/-- A word folds where every code of it is a letter of the language (R113). -/
theorem fold_eq_some_iff (t : LanguageTable) (w : List Byte) (l : List Nat) :
    fold t w = some l ↔ l = w.map (tableAt t.letterMap) ∧ ∀ b ∈ w, tableAt t.letterMap b ≠ 0 := by
  have hzero : (w.map (tableAt t.letterMap)).contains 0 = true ↔ ¬∀ b ∈ w, tableAt t.letterMap b ≠ 0 := by
    simp
  simp only [fold, hzero, Option.ite_none_left_eq_some, not_not, Option.some.injEq]
  tauto

theorem fold_of_letters {t : LanguageTable} {w : List Byte} (h : 0 ∉ w.map (tableAt t.letterMap)) :
    fold t w = some (w.map (tableAt t.letterMap)) :=
  (fold_eq_some_iff t w _).2 ⟨rfl, fun b hb hz => h (List.mem_map.2 ⟨b, hb, hz⟩)⟩

theorem fold_of_no_letter {t : LanguageTable} {w : List Byte} (h : 0 ∈ w.map (tableAt t.letterMap)) : fold t w = none := by
  simp [fold, h]

/-! ### Entries -/

theorem entryAt_some {d : List DictEntry} {k : Nat} {e : DictEntry} (h : entryAt d k = some e) : e ∈ d ∧ e.slot = k :=
  ⟨List.mem_of_find?_eq_some h, by simpa using List.find?_some h⟩

theorem entryAt_eq_none_iff {d : List DictEntry} {k : Nat} : entryAt d k = none ↔ ∀ x ∈ d, x.slot ≠ k := by
  simp only [entryAt, List.find?_eq_none, beq_iff_eq, ne_eq]

theorem entryOfKey_some {d : List DictEntry} {n : Nat} {w : List Nat} {sc : Scope} {e : DictEntry}
    (h : entryOfKey d n w sc = some e) : e ∈ d ∧ e.language = n ∧ e.word = w ∧ e.scope = sc := by
  have hkey := List.find?_some h
  simp only [Bool.and_eq_true, beq_iff_eq] at hkey
  obtain ⟨⟨hl, hw⟩, hs⟩ := hkey
  exact ⟨List.mem_of_find?_eq_some h, hl, hw, hs⟩

theorem entryOfKey_eq_none_iff {d : List DictEntry} {n : Nat} {w : List Nat} {sc : Scope} :
    entryOfKey d n w sc = none ↔ ∀ x ∈ d, x.language = n → x.word = w → x.scope ≠ sc := by
  simp only [entryOfKey, List.find?_eq_none, Bool.and_eq_true, beq_iff_eq, not_and, and_imp, ne_eq]

/-! ### ADD WORD -/

/-- A JOB owner is the job composing in its slot (R114, row 3). -/
def Scope.standing (s : State) : Scope → Prop
  | .job slot id => (s.job slot).composing = true ∧ (s.job slot).id = id
  | _ => True

/-- The JOB entries an owner holds (R108). -/
def Scope.owned (d : List DictEntry) : Scope → Nat
  | .job slot id => d.countP (isJobWord slot id)
  | _ => 0

/-- Row 1 of R114 is passed, with the scope that the owner names. -/
structure WordInRange (n : Nat) (w : List Byte) (bs : List WordBreak) (o : ScopeArg) (sc : Scope) : Prop where
  owner : scopeOf o = some sc
  language : n ≤ 3
  word : wordOk w = true
  breaks : breaksOk w.length bs = true

/-- Rows 1 to 3 of R114 are passed, with the table of the language. -/
structure WordInOrder (s : State) (n : Nat) (w : List Byte) (bs : List WordBreak) (o : ScopeArg) (sc : Scope)
    (t : LanguageTable) : Prop extends WordInRange n w bs o sc where
  unlocked : sc ≠ .house ∨ s.houseLocked = false
  table : s.language n = some t
  standing : sc.standing s

/-- The entry that ADD WORD makes of a folded word (R109, R114). -/
def newWord (d : List DictEntry) (n : Nat) (l : List Nat) (bs : List WordBreak) (sc : Scope) : DictEntry :=
  { slot := lowestFree 0 d, language := n, word := l, breaks := bs, scope := sc, hits := 0 }

section
variable {s : State} {n : Nat} {w : List Byte} {bs : List WordBreak} {o : ScopeArg} {sc : Scope} {t : LanguageTable} {l : List Nat}

theorem addWord_range (h : ∀ sc, ¬WordInRange n w bs o sc) : addWordEffect n w bs o s = refuse .range s := by
  cases hsc : scopeOf o with
  | none => simp only [addWordEffect, hsc]
  | some sc =>
    have hbad : (!(decide (n ≤ 3) && wordOk w && breaksOk w.length bs)) = true := by
      by_contra hok
      simp only [Bool.not_eq_true, Bool.not_eq_false', Bool.and_eq_true, decide_eq_true_eq] at hok
      exact h sc ⟨hsc, hok.1.1, hok.1.2, hok.2⟩
    simp only [addWordEffect, hsc, if_pos hbad]

theorem addWord_locked (h : WordInRange n w bs o .house) (hl : s.houseLocked = true) :
    addWordEffect n w bs o s = refuse .locked s := by
  simp [addWordEffect, h.owner, h.language, h.word, h.breaks, hl]

theorem house_locked_eq_false (h : sc ≠ .house ∨ s.houseLocked = false) : (sc == .house && s.houseLocked) = false := by
  rcases h with h | h <;> simp [h]

theorem addWord_undefined (h : WordInRange n w bs o sc) (hl : sc ≠ .house ∨ s.houseLocked = false) (ht : s.language n = none) :
    addWordEffect n w bs o s = refuse .state s := by
  simp [addWordEffect, h.owner, h.language, h.word, h.breaks, house_locked_eq_false hl, ht]

theorem addWord_not_standing (h : WordInRange n w bs o sc) (hl : sc ≠ .house ∨ s.houseLocked = false) (hst : ¬sc.standing s) :
    addWordEffect n w bs o s = refuse .state s := by
  cases ht : s.language n with
  | none => exact addWord_undefined h hl ht
  | some t =>
    cases sc with
    | job slot id =>
      have hno : ((s.job slot).composing && (s.job slot).id == id) = false := by
        simpa [Scope.standing] using hst
      simp [addWordEffect, h.owner, h.language, h.word, h.breaks, ht, hno]
    | _ => exact absurd trivial hst

/-- Past row 3 the answer turns on the folded word (R114, rows 4 to 6). -/
theorem addWord_inOrder (h : WordInOrder s n w bs o sc t) :
    addWordEffect n w bs o s =
      (fold t w).elim (refuse .range s) fun l =>
        (entryOfKey s.dict n l sc).elim
          (if 4096 ≤ s.dict.length ∨ 256 ≤ sc.owned s.dict then
            (s, { status := .full
                  payload := num1 (if 4096 ≤ s.dict.length then 0 else 1) ++ num2 s.dict.length ++ num2 (sc.owned s.dict) })
          else
            ({ s with dict := insertEntry (newWord s.dict n l bs sc) s.dict },
              { status := .done, payload := num2 (lowestFree 0 s.dict) ++ listOf num1 l }))
          fun e => (s, { status := .duplicate, payload := num2 e.slot }) := by
  have hlock := house_locked_eq_false h.unlocked
  have hstanding := h.standing
  simp only [addWordEffect, h.owner, h.language, h.word, h.breaks, h.table, hlock]
  -- The scope matters to the test of the owner's job and to the quota alone.
  cases hf : fold t w with
  | none => cases sc <;> simp_all [Scope.standing]
  | some l =>
    cases hk : entryOfKey s.dict n l sc with
    | some e => cases sc <;> simp_all [Scope.standing]
    | none => cases sc <;> simp_all [Scope.standing, Scope.owned, newWord, Config.dictSlots, Config.jobWordQuota]

theorem addWord_no_letter (h : WordInOrder s n w bs o sc t) (hf : fold t w = none) :
    addWordEffect n w bs o s = refuse .range s := by
  rw [addWord_inOrder h, hf]; rfl

theorem addWord_duplicate (h : WordInOrder s n w bs o sc t) (hf : fold t w = some l) {e : DictEntry}
    (hk : entryOfKey s.dict n l sc = some e) :
    addWordEffect n w bs o s = (s, { status := .duplicate, payload := num2 e.slot }) := by
  rw [addWord_inOrder h, hf, Option.elim_some, hk]; rfl

theorem addWord_full (h : WordInOrder s n w bs o sc t) (hf : fold t w = some l) (hk : entryOfKey s.dict n l sc = none)
    (hfull : 4096 ≤ s.dict.length ∨ 256 ≤ sc.owned s.dict) :
    addWordEffect n w bs o s = (s, { status := .full
                                     payload := num1 (if 4096 ≤ s.dict.length then 0 else 1) ++ num2 s.dict.length ++
                                       num2 (sc.owned s.dict) }) := by
  rw [addWord_inOrder h, hf, Option.elim_some, hk, Option.elim_none, if_pos hfull]

theorem addWord_done (h : WordInOrder s n w bs o sc t) (hf : fold t w = some l) (hk : entryOfKey s.dict n l sc = none)
    (hroom : ¬(4096 ≤ s.dict.length ∨ 256 ≤ sc.owned s.dict)) :
    addWordEffect n w bs o s = ({ s with dict := insertEntry (newWord s.dict n l bs sc) s.dict },
      { status := .done, payload := num2 (lowestFree 0 s.dict) ++ listOf num1 l }) := by
  rw [addWord_inOrder h, hf, Option.elim_some, hk, Option.elim_none, if_neg hroom]

/-- ADD WORD changes nothing, or adds the word (R114). -/
theorem addWord_cases (s : State) (n : Nat) (w : List Byte) (bs : List WordBreak) (o : ScopeArg) :
    (addWordEffect n w bs o s).1 = s ∨
    ∃ sc t l, WordInOrder s n w bs o sc t ∧ fold t w = some l ∧ entryOfKey s.dict n l sc = none ∧
      s.dict.length < 4096 ∧ sc.owned s.dict < 256 ∧
      (addWordEffect n w bs o s).1 = { s with dict := insertEntry (newWord s.dict n l bs sc) s.dict } := by
  by_cases hrange : ∀ sc, ¬WordInRange n w bs o sc
  · rw [addWord_range hrange]; exact .inl rfl
  obtain ⟨sc, hr⟩ := not_forall_not.1 hrange
  by_cases hlock : sc = .house ∧ s.houseLocked = true
  · obtain ⟨rfl, hl⟩ := hlock
    rw [addWord_locked hr hl]; exact .inl rfl
  have hun : sc ≠ .house ∨ s.houseLocked = false := by
    rw [← Bool.not_eq_true]; exact not_and_or.1 hlock
  by_cases hst : sc.standing s
  swap
  · rw [addWord_not_standing hr hun hst]; exact .inl rfl
  cases ht : s.language n with
  | none => rw [addWord_undefined hr hun ht]; exact .inl rfl
  | some t =>
    have hord : WordInOrder s n w bs o sc t := ⟨hr, hun, ht, hst⟩
    cases hf : fold t w with
    | none => rw [addWord_no_letter hord hf]; exact .inl rfl
    | some l =>
      cases hk : entryOfKey s.dict n l sc with
      | some e => rw [addWord_duplicate hord hf hk]; exact .inl rfl
      | none =>
        by_cases hroom : 4096 ≤ s.dict.length ∨ 256 ≤ sc.owned s.dict
        · rw [addWord_full hord hf hk hroom]; exact .inl rfl
        · rw [addWord_done hord hf hk hroom]
          rw [not_or, not_le, not_le] at hroom
          exact .inr ⟨sc, t, l, hord, hf, hk, hroom.1, hroom.2, rfl⟩

end

end Sys2Proof.Machine
end

section
/-! The dictionary under each of its requests, under a consultation, and under the retirement of words; and O53 (R106 to R110). -/

namespace Sys2Proof.Machine

open Sys2Proof

/-- What no request changes of an entry once it is added: its slot and its key (R106). -/
def DictEntry.identity (e : DictEntry) : Nat × Nat × List Nat × Scope := (e.slot, e.language, e.word, e.scope)

section
variable {s t : State}

/-! ### What keeps the dictionary -/

theorem DictOk.of_sublist (h : DictOk s) (hsub : t.dict.Sublist s.dict) : DictOk t := by
  obtain ⟨hslots, hrange, hkeys, hquota, hentries⟩ := h
  exact ⟨hslots.sublist (hsub.map _), fun e he => hrange e (hsub.subset he), hkeys.sublist (hsub.map _),
    fun slot id => (hsub.countP_le).trans (hquota slot id), fun e he => hentries e (hsub.subset he)⟩

theorem DictOk.of_dict (h : DictOk s) (hd : t.dict = s.dict) : DictOk t := h.of_sublist (hd ▸ .refl _)

theorem DictOk.slots (h : DictOk s) : s.dict.Pairwise fun a b => a.slot < b.slot := by
  obtain ⟨hslots, -⟩ := h
  exact List.pairwise_map.1 hslots

theorem DictOk.entry (h : DictOk s) {e : DictEntry} (he : e ∈ s.dict) :
    e.language ≤ 3 ∧ 2 ≤ e.word.length ∧ e.word.length ≤ 31 ∧ breaksOk e.word.length e.breaks = true ∧ e.hits ≤ 65535 := by
  obtain ⟨-, -, -, -, hentries⟩ := h
  exact hentries e he

/-- Entries that change in their breaks and their counts alone. -/
theorem DictOk.of_identity (h : DictOk s) {f : DictEntry → DictEntry} (hd : t.dict = s.dict.map f)
    (hid : ∀ e, (f e).identity = e.identity)
    (hok : ∀ e ∈ s.dict, breaksOk e.word.length (f e).breaks = true ∧ (f e).hits ≤ 65535) : DictOk t := by
  obtain ⟨hslots, hrange, hkeys, hquota, hentries⟩ := h
  have hslot : ∀ e, (f e).slot = e.slot := fun e => congrArg Prod.fst (hid e)
  have hlang : ∀ e, (f e).language = e.language := fun e => congrArg (·.2.1) (hid e)
  have hword : ∀ e, (f e).word = e.word := fun e => congrArg (·.2.2.1) (hid e)
  have hscope : ∀ e, (f e).scope = e.scope := fun e => congrArg (·.2.2.2) (hid e)
  rw [DictOk, hd]
  refine ⟨?_, ?_, ?_, fun slot id => ?_, ?_⟩
  · rw [List.map_map, show (·.slot) ∘ f = (·.slot) from funext hslot]; exact hslots
  · rw [List.forall_mem_map]; exact fun e he => hslot e ▸ hrange e he
  · rw [List.map_map, List.map_congr_left fun e _ => by rw [Function.comp_apply, hlang, hword, hscope]]
    exact hkeys
  · rw [List.countP_map, List.countP_congr fun e _ => by rw [Function.comp_apply, isJobWord, hscope, ← isJobWord]]
    exact hquota slot id
  · rw [List.forall_mem_map]
    intro e he
    obtain ⟨hl, h2, h31, -, -⟩ := hentries e he
    rw [hlang, hword]
    exact ⟨hl, h2, h31, hok e he⟩

/-! ### The lowest empty slot -/

/-- Below the lowest empty slot every slot is taken, so it is no higher than the number of entries (R109). -/
theorem lowestFree_le_length {d : List DictEntry} (h : d.Pairwise fun a b => a.slot < b.slot) :
    lowestFree 0 d ≤ d.length := by
  obtain ⟨-, -, hbelow⟩ := lowestFree_spec d 0 h
  have hsub : List.range (lowestFree 0 d) ⊆ d.map (·.slot) := fun m hm => by
    obtain ⟨e, he, hs⟩ := hbelow m (Nat.zero_le m) (List.mem_range.1 hm)
    exact List.mem_map.2 ⟨e, he, hs⟩
  simpa using (List.nodup_range.subperm hsub).length_le

theorem insertEntry_perm (e : DictEntry) (d : List DictEntry) : (insertEntry e d).Perm (e :: d) := by
  induction d with
  | nil => exact .refl _
  | cons x d ih =>
    simp only [insertEntry]
    split
    · exact .refl _
    · exact (ih.cons x).trans (.swap e x d)

/-- An entry of a new key takes the lowest empty slot (R109, R114). -/
theorem DictOk.insert (h : DictOk s) {e : DictEntry} (hd : t.dict = insertEntry e s.dict) (hslot : e.slot = lowestFree 0 s.dict)
    (hroom : s.dict.length < 4096) (hkey : entryOfKey s.dict e.language e.word e.scope = none)
    (hquota : ∀ slot id, e.scope = .job slot id → s.dict.countP (isJobWord slot id) < 256)
    (hentry : e.language ≤ 3 ∧ 2 ≤ e.word.length ∧ e.word.length ≤ 31 ∧ breaksOk e.word.length e.breaks = true ∧
      e.hits ≤ 65535) : DictOk t := by
  have hlowest := lowestFree_le_length h.slots
  obtain ⟨-, hfree, -⟩ := lowestFree_spec s.dict 0 h.slots
  obtain ⟨-, hrange, hkeys, hquotas, hentries⟩ := id h
  rw [DictOk, hd]
  have hslots := insertEntry_pairwise h.slots (hslot ▸ hfree)
  refine ⟨List.pairwise_map.2 hslots, fun x hx => ?_, ?_, fun slot id => ?_, fun x hx => ?_⟩
  · obtain rfl | hx := mem_insertEntry.1 hx
    · omega
    · exact hrange x hx
  · refine (((insertEntry_perm e s.dict).map _).nodup_iff).2 (List.nodup_cons.2 ⟨fun hin => ?_, hkeys⟩)
    obtain ⟨x, hx, heq⟩ := List.mem_map.1 hin
    simp only [Prod.mk.injEq] at heq
    obtain ⟨hl, hw, hsc⟩ := heq
    exact entryOfKey_eq_none_iff.1 hkey x hx hl hw hsc
  · rw [(insertEntry_perm e s.dict).countP_eq, List.countP_cons]
    split
    · next hown =>
      have := hquota slot id (by simpa [isJobWord] using hown)
      omega
    · exact hquotas slot id
  · obtain rfl | hx := mem_insertEntry.1 hx
    · exact hentry
    · exact hentries x hx

/-! ### The requests of the dictionary -/

theorem DictOk.addWord (h : DictOk s) (n : Nat) (w : List Byte) (bs : List WordBreak) (o : ScopeArg) :
    DictOk (addWordEffect n w bs o s).1 := by
  obtain hsame | ⟨sc, t, l, hpass, hfold, hkey, hfew, howned, hadd⟩ := addWord_cases s n w bs o
  · rw [hsame]; exact h
  · rw [hadd]
    have hlen : l.length = w.length := by rw [((fold_eq_some_iff t w l).1 hfold).1, List.length_map]
    refine h.insert rfl rfl hfew hkey (fun slot id heq => ?_) ⟨hpass.language, ?_⟩
    · obtain rfl : sc = .job slot id := heq
      exact howned
    · obtain ⟨h2, h31, -⟩ := (wordOk_iff w).1 hpass.word
      change 2 ≤ l.length ∧ l.length ≤ 31 ∧ breaksOk l.length bs = true ∧ 0 ≤ 65535
      rw [hlen]
      exact ⟨h2, h31, hpass.breaks, Nat.zero_le _⟩

theorem mem_dict_of_nameEntry {name : WordName} {e : DictEntry} (h : nameEntry s name = .ok e) : e ∈ s.dict := by
  cases name with
  | bySlot n =>
    simp only [nameEntry] at h
    split at h
    · exact absurd h nofun
    · split at h
      · exact absurd h nofun
      · next hat => cases h; exact (entryAt_some hat).1
  | byKey n w o =>
    simp only [nameEntry] at h
    split at h
    · exact absurd h nofun
    · split at h
      · exact absurd h nofun
      · next hkey =>
        cases h
        obtain ⟨sc, -, hsome⟩ := Option.bind_eq_some_iff.1 hkey
        exact (entryOfKey_some hsome).1

/-- Entries of a dictionary are the same where their slots are. -/
theorem DictOk.eq_of_slot (h : DictOk s) {x e : DictEntry} (hx : x ∈ s.dict) (he : e ∈ s.dict) (hs : x.slot = e.slot) :
    x = e := by
  obtain ⟨hslots, -⟩ := h
  exact List.inj_on_of_nodup_map (hslots.imp Nat.ne_of_lt) hx he hs

theorem DictOk.amendWord (h : DictOk s) (name : WordName) (bs : List WordBreak) : DictOk (amendWordEffect name bs s).1 := by
  simp only [amendWordEffect]
  split
  · exact h
  next e hname =>
  split
  · exact h
  split
  · exact h
  next hbreaks =>
  simp only [Bool.not_eq_true', Bool.not_eq_false] at hbreaks
  refine h.of_identity rfl (fun x => by split <;> rfl) fun x hx => ?_
  obtain ⟨-, -, -, hb, hh⟩ := h.entry hx
  split
  · next hslot =>
    rw [h.eq_of_slot hx (mem_dict_of_nameEntry hname) (by simpa using hslot)] at hh ⊢
    exact ⟨hbreaks, hh⟩
  · exact ⟨hb, hh⟩

theorem retireWord_sublist (name : WordName) (s : State) : (retireWordEffect name s).1.dict.Sublist s.dict := by
  simp only [retireWordEffect]
  (repeat' split) <;> simp [refuse, retireWhere]

theorem retireWords_sublist (c n slot id : Nat) (s : State) : (retireWordsEffect c n slot id s).1.dict.Sublist s.dict := by
  simp only [retireWordsEffect]
  (repeat' split) <;> simp [refuse, retireWhere]

theorem DictOk.pruneWords (h : DictOk s) (n threshold : Nat) : DictOk (pruneWordsEffect n threshold s).1 := by
  simp only [pruneWordsEffect]
  split
  · exact h
  have hkept : ∀ p, DictOk (retireWhere p s) := fun p => h.of_sublist List.filter_sublist
  refine (hkept _).of_identity rfl (fun x => by split <;> rfl) fun x hx => ?_
  obtain ⟨-, -, -, hb, hh⟩ := (hkept _).entry hx
  split
  · exact ⟨hb, (Nat.div_le_self _ _).trans hh⟩
  · exact ⟨hb, hh⟩

/-! ### Consultations -/

/-- A dictionary is left as it was, or one of its counts is raised (R111). -/
def ConsultedAtMost (d d' : List DictEntry) : Prop := d' = d ∨ ∃ k, d' = raiseHits k d

theorem consulted_dict (s : State) (slot : Nat) (p : LineParams) (pl : Placing) (glyphs : List Glyph) :
    ConsultedAtMost s.dict (s.consulted slot p pl glyphs).dict := by
  rw [State.consulted]
  split
  · exact .inr ⟨_, rfl⟩
  · exact .inl rfl

theorem breakAndSet_dict (s : State) (slot : Nat) : ConsultedAtMost s.dict (s.breakAndSet slot).dict := by
  simp only [State.breakAndSet]
  split
  · simpa [breakLine_eq] using consulted_dict s slot _ _ (s.job slot).line.glyphs
  · exact .inl rfl

theorem carryEnding_dict (s : State) (slot : Nat) : (s.carryEnding slot).dict = s.dict := by
  simp only [State.carryEnding]
  (repeat' split) <;> simp

theorem placeWord_dict (s : State) : ConsultedAtMost s.dict (placeWordEffect s).dict := by
  simp only [placeWordEffect]
  split
  · exact .inl rfl
  next slot _ =>
  split
  · exact .inl (by simp)
  · simpa using breakAndSet_dict (s.placeNext slot).1 slot
  · exact .inl (by simp)
  · exact .inl (by simp)

theorem setLine_dict (s : State) : ConsultedAtMost s.dict (setLineEffect s).dict := by
  simp only [setLineEffect]
  split
  · next slot _ =>
    split
    · simpa using breakAndSet_dict (s.placeNext slot).1 slot
    · exact .inl rfl
  · exact .inl (carryEnding_dict s _)
  · exact .inl rfl

theorem DictOk.of_consultation (h : DictOk s) (hc : ConsultedAtMost s.dict t.dict) : DictOk t := by
  obtain hsame | ⟨k, hraised⟩ := hc
  · exact h.of_dict hsame
  · refine h.of_identity hraised (fun x => by split <;> rfl) fun x hx => ?_
    obtain ⟨-, -, -, hb, hh⟩ := h.entry hx
    split
    · exact ⟨hb, (bump_le _ hh).1⟩
    · exact ⟨hb, hh⟩

/-! ### Every command -/

theorem DictOk.settle (h : DictOk s) (before : State) : DictOk (settle before s) := h.of_sublist (beside_settle before s).dict

/-- The words of the jobs leave at a composition reset (R125). -/
theorem resetComposition_sublist (s : State) : (resetCompositionEffect s).1.dict.Sublist s.dict := by
  obtain ⟨-, hdict, -⟩ := cleared_keeps s
  rw [resetComposition_eq, ← hdict]
  exact List.filter_sublist

theorem lt_of_composing {slot : Nat} (h : (s.job slot).state = .active ∨ (s.job slot).state = .closing) :
    slot < s.jobs.length := by
  by_contra hge
  rw [State.job, List.getD_eq_default _ _ (not_lt.1 hge)] at h
  exact h.elim nofun nofun

/-- ABORT JOB is refused, or the job in the slot is aborted (R51). -/
theorem abortJob_cases (slot id : Nat) (s : State) :
    (abortJobEffect slot id s).1 = s ∨ (slot < s.jobs.length ∧ (abortJobEffect slot id s).1 = s.afterAbort slot) := by
  by_cases hslot : slot ≤ 3
  swap
  · rw [abortJob_range (not_le.1 hslot)]; exact .inl rfl
  by_cases hjob : ((s.job slot).state = .active ∨ (s.job slot).state = .closing) ∧ (s.job slot).id = id
  · rw [abortJob_done hslot hjob.1 hjob.2]
    exact .inr ⟨lt_of_composing hjob.1, rfl⟩
  · rw [abortJob_state hslot (by rwa [not_and_or, not_or] at hjob)]
    exact .inl rfl

/-- The words of the job that is aborted leave (R124). -/
theorem abortJob_sublist (slot id : Nat) (s : State) : (abortJobEffect slot id s).1.dict.Sublist s.dict := by
  obtain hsame | ⟨-, haborted⟩ := abortJob_cases slot id s
  · rw [hsame]
  · rw [haborted, afterAbort_dict]
    exact List.filter_sublist

theorem DictOk.event (h : DictOk s) {i : Instr} {f : State → State} (hv : eventOf i = some f) : DictOk (f s) := by
  have hsame : ∀ {g : State → State}, (g s).dict = s.dict → DictOk (settledEvent g s) := fun hd => (h.of_dict hd).settle s
  cases i with
  | powerOnReset r => cases hv; exact (freshState_powerOnReset r s).dictOk
  | placeWord => cases hv; exact (h.of_consultation (placeWord_dict s)).settle s
  | setLine => cases hv; exact (h.of_consultation (setLine_dict s)).settle s
  | discardQuietTimeout | attnThrottleExpiry | lineExposedDelayExpiry | lineExposedAbsoluteExpiry | indexFound | hatchOpened
  | carriageArrival | coverClosed | xoffReceived | xonReceived | stallTimerExpiry | paperOut | paperPresent =>
    cases hv; exact h.of_dict (by simp)
  | _ => cases hv <;> exact hsame (by simp)

theorem DictOk.request (h : DictOk s) {i : Instr} {tag : Byte} {e : Effect} (he : effectOf i = some (tag, e)) :
    DictOk (e s).1 := by
  have hsame : ∀ {g : Effect}, (g s).1.dict = s.dict → DictOk (settled g s).1 := fun hd => (h.of_dict hd).settle s
  cases i with
  | addWord tag n w bs o => cases he; exact h.addWord n w bs o
  | amendWord tag name bs => cases he; exact h.amendWord name bs
  | retireWord tag name => cases he; exact h.of_sublist (retireWord_sublist name s)
  | retireWords tag c n slot id => cases he; exact h.of_sublist (retireWords_sublist c n slot id s)
  | pruneWords tag n threshold => cases he; exact h.pruneWords n threshold
  | resetComposition tag => cases he; exact (h.of_sublist (resetComposition_sublist s)).settle s
  | abortJob tag slot id => cases he; exact (h.of_sublist (abortJob_sublist slot id s)).settle s
  | setProof tag enable rate =>
    cases he
    have hset : DictOk (setProofEffect enable rate s).1 := h.of_dict (by simp)
    exact hset.settle s
  | defineFont | prepareExchange | cancelExchange | openJob | sendText | closeJob | setQueueMarks | holdExposure | releaseExposure
  | lampOff | setLamp | loadFilm | feedAndCut => cases he; exact hsame (by simp)
  | _ => cases he <;> exact h.of_dict (by simp)

theorem dictOk_kept : Kept DictOk where
  link h _ := h
  request h he := h.request he
  event h hv := h.event hv

end

/-- Settles O53: the dictionary is kept by every request's effect, by every event and by what the link does. -/
theorem everyCommandKeepsTheDictionary : Obligations.EveryCommandKeepsTheDictionary := by
  unfold Obligations.EveryCommandKeepsTheDictionary
  exact fun _ _ _ h hx => dictOk_kept.exec h hx

end Sys2Proof.Machine
end

section
/-! Which job composes in each slot, under every operation that neither opens, aborts nor frees a job (R40, R124). -/

namespace Sys2Proof.Machine

open Sys2Proof

/-- The id of a job that composes: the only owner of JOB words that its slot may have (R124). -/
def Job.owner (j : Job) : Option Nat := if j.composing then some j.id else none

/-- Slot by slot, the job that composes there. -/
def State.owners (s : State) : List (Option Nat) := s.jobs.map Job.owner

theorem Job.owner_eq_some_iff {j : Job} {id : Nat} :
    j.owner = some id ↔ j.id = id ∧ (j.state = .active ∨ j.state = .closing) := by
  simp only [Job.owner, Option.ite_none_right_eq_some, composing_iff, Option.some.injEq, and_comm]

@[simp] theorem Job.owner_ignore (n : Nat) (j : Job) : (j.ignore n).owner = j.owner := rfl

@[simp] theorem Job.owner_clampedIf (b : Bool) (j : Job) : (j.clampedIf b).owner = j.owner := by
  cases b <;> rfl

@[simp] theorem Job.owner_lineCode (changed : Bool) (a : CodeAction) (set : Params → Params) (j : Job) :
    (j.lineCode changed a set).owner = j.owner := by
  cases changed <;> rfl

@[simp] theorem Job.owner_takeCode (h : HouseStyle) (letter : Byte) (ps : List Byte) (j : Job) :
    (j.takeCode h letter ps).owner = j.owner := by
  have hset : ∀ p : Params, ({ j with params := p } : Job).owner = j.owner := fun _ => rfl
  have hline : ∀ l : LineInProgress, ({ j with line := l } : Job).owner = j.owner := fun _ => rfl
  simp only [Job.takeCode]
  (repeat' split) <;> simp only [Job.owner_ignore, Job.owner_clampedIf, Job.owner_lineCode, hset, hline]

theorem Job.owner_applyByte (h : HouseStyle) (j : Job) : (j.applyByte h).owner = j.owner := by
  have htext : ∀ (t : List Byte) (l : LineInProgress), ({ j with text := t, line := l } : Job).owner = j.owner := fun _ _ => rfl
  simp only [Job.applyByte]
  (repeat' split) <;> simp only [Job.owner_ignore, Job.owner_takeCode, htext]

theorem Job.owner_exhaust (j : Job) : j.exhaust.owner = j.owner := by
  simp only [Job.exhaust]; split <;> rfl

section
variable {s t : State}

theorem owners_congr (h : t.jobs = s.jobs) : t.owners = s.owners := congrArg (List.map _) h

theorem owners_getD (s : State) (n : Nat) : s.owners.getD n none = (s.job n).owner := by
  simp only [State.owners, State.job, List.getD_eq_getElem?_getD, List.getElem?_map]
  cases s.jobs[n]? <;> rfl

/-- JOB words have owners that compose. -/
theorem jobWordsOk_iff (s : State) :
    JobWordsOk s ↔ ∀ e ∈ s.dict, ∀ slot id, e.scope = .job slot id → slot < 4 ∧ s.owners.getD slot none = some id := by
  simp only [JobWordsOk, owners_getD, Job.owner_eq_some_iff]

end

section
variable (s : State)

/-- A change of a job that composes as before, under the same id. -/
theorem owners_onJob_at (n : Nat) {f : Job → Job} (h : (f (s.job n)).owner = (s.job n).owner) :
    (s.onJob n f).owners = s.owners := by
  refine List.ext_getElem? fun m => ?_
  simp only [State.owners, State.onJob, List.getElem?_map, List.getElem?_modify]
  by_cases hmn : n = m
  · subst hmn
    cases hj : s.jobs[n]? with
    | none => rfl
    | some j => simpa [State.job, List.getD_eq_getElem?_getD, hj] using h
  · simp [hmn]

@[simp] theorem owners_onJob (n : Nat) {f : Job → Job} (h : ∀ j, (f j).owner = j.owner) : (s.onJob n f).owners = s.owners :=
  owners_onJob_at s n (h _)

@[simp] theorem owners_onLine (n : Nat) (f : LineInProgress → LineInProgress) : (s.onLine n f).owners = s.owners :=
  owners_onJob s n fun _ => rfl

@[simp] theorem owners_onTurret (f : Turret → Turret) : (s.onTurret f).owners = s.owners := rfl
@[simp] theorem owners_onEngine (f : Engine → Engine) : (s.onEngine f).owners = s.owners := rfl
@[simp] theorem owners_onStation (n : Nat) (f : Station → Station) : (s.onStation n f).owners = s.owners := rfl
@[simp] theorem owners_onFont (n : Nat) (f : FontRecord → FontRecord) : (s.onFont n f).owners = s.owners := rfl
@[simp] theorem owners_raise (n : Notice) : (s.raise n).owners = s.owners := rfl
@[simp] theorem owners_raiseIf (b : Bool) (n : Notice) : (s.raiseIf b n).owners = s.owners := owners_congr (by simp)

/-! ### The turret -/

@[simp] theorem owners_setStatus (n : Nat) (c : CompStatus) : (s.setStatus n c).owners = s.owners := by
  have hjob : (s.onJob n fun j => { j with status := c }).owners = s.owners := owners_onJob s n fun _ => rfl
  simp only [State.setStatus]; split <;> simp [hjob]

@[simp] theorem owners_reaskAll : s.reaskAll.owners = s.owners := by
  have hreask : ∀ (u : State) (n : Nat), (u.reask n).owners = u.owners := fun u n => by
    simp only [State.reask]; (repeat' split) <;> simp
  exact foldl_keeps (P := State.owners) hreask s _

@[simp] theorem owners_changeStation (n : Nat) (f : Station → Station) : (s.changeStation n f).owners = s.owners := by
  simp [State.changeStation]

@[simp] theorem owners_mount (n k : Nat) : (s.mount n k).owners = s.owners := by simp [State.mount]

@[simp] theorem owners_settleStation (n : Nat) : (s.settleStation n).owners = s.owners := by
  simp only [State.settleStation]; split <;> simp

@[simp] theorem owners_endExchange : s.endExchange.owners = s.owners := rfl

@[simp] theorem owners_releaseHatch (n : Nat) : (s.releaseHatch n).owners = s.owners := by
  simp only [State.releaseHatch]; split <;> simp

@[simp] theorem owners_returnPrior (n : Nat) : (s.returnPrior n).owners = s.owners := by
  simp only [State.returnPrior]; (repeat' split) <;> simp

@[simp] theorem owners_beginPositioning (n : Nat) : (s.beginPositioning n).owners = s.owners := by
  simp only [State.beginPositioning]; split <;> simp

theorem owners_rotationArrival : (rotationArrivalEffect s).owners = s.owners := by
  simp only [rotationArrivalEffect, State.beginRead]; (repeat' split) <;> simp

theorem owners_hatchClosed : (hatchClosedEffect s).owners = s.owners := by
  simp only [hatchClosedEffect, State.beginRead]; (repeat' split) <;> simp

theorem owners_stripReadComplete (code : Nat) : (stripReadCompleteEffect code s).owners = s.owners := by
  simp only [stripReadCompleteEffect, State.verdict]; (repeat' split) <;> simp

theorem owners_prepareExchange (n : Nat) : (prepareExchangeEffect n s).1.owners = s.owners := by
  simp only [prepareExchangeEffect]; (repeat' split) <;> simp [refuse]

theorem owners_cancelExchange (n : Nat) : (cancelExchangeEffect n s).1.owners = s.owners := by
  simp only [cancelExchangeEffect]; (repeat' split) <;> simp [refuse, done]

theorem owners_defineFont (d : FontDef) : (defineFontEffect d s).1.owners = s.owners := by
  have hmount : ∀ (u : State) (l : List Nat) (k : Nat), (l.foldl (fun u n => u.mount n k) u).owners = u.owners :=
    fun u l k => foldl_keeps (P := State.owners) (fun u n => owners_mount u n k) u l
  simp only [defineFontEffect]
  (repeat' split) <;> simp only [refuse, owners_reaskAll, hmount]
  exact owners_congr rfl

/-! ### Lines, entries and turns -/

theorem Job.appended_owner (b : Body) (j : Job) : (Job.appended b j).owner = j.owner := by
  cases b <;> rfl

@[simp] theorem owners_appendEntry (n : Nat) (b : Body) : (s.appendEntry n b).owners = s.owners :=
  (owners_congr (appendEntry_jobs s n b)).trans (owners_onJob s n (Job.appended_owner b))

@[simp] theorem owners_restatus (n : Nat) : (s.restatus n).owners = s.owners := by
  simp only [State.restatus]; (repeat' split) <;> simp

@[simp] theorem owners_finishComposition (n : Nat) : (s.finishComposition n).owners = s.owners := by
  simp only [State.finishComposition]
  split
  · exact owners_onJob s n fun _ => rfl
  · rfl

@[simp] theorem owners_endTurn (n : Nat) : (s.endTurn n).owners = s.owners := by simp [State.endTurn]

@[simp] theorem owners_afterStep (n : Nat) : (s.afterStep n).owners = s.owners := by
  simp only [State.afterStep]; split <;> simp

@[simp] theorem owners_placeGlyph (n : Nat) (c : Byte) (f z k : Nat) : (s.placeGlyph n c f z k).owners = s.owners := by
  have hmark : ∀ u : State, (u.onJob n fun j => { j with paragraphMark := false }).owners = u.owners :=
    fun u => owners_onJob u n fun _ => rfl
  simp only [State.placeGlyph]; (repeat' split) <;> simp [hmark]

@[simp] theorem owners_placeItems (n : Nat) (items kept : List WordItem) :
    (placeItems n items kept s).1.owners = s.owners := by
  induction items generalizing kept s with
  | nil => rfl
  | cons x items ih =>
    cases x with
    | mark => exact ih s _
    | char c f z =>
      simp only [placeItems]
      (repeat' split) <;> simp only [ih, owners_placeGlyph]
      exact owners_onJob s n fun _ => rfl

@[simp] theorem owners_placeNext (n : Nat) : (s.placeNext n).1.owners = s.owners := by
  simp only [State.placeNext]; split <;> simp

theorem owners_completeEnding (n : Nat) (e : Ending) : (s.onJob n (Job.completeEnding e)).owners = s.owners :=
  owners_onJob s n fun _ => rfl

@[simp] theorem owners_resumeEnding (n : Nat) : (s.resumeEnding n).owners = s.owners := by
  simp only [State.resumeEnding]; (repeat' split) <;> simp [owners_completeEnding]

@[simp] theorem owners_admitted (n : Nat) (b : Body) : (s.admitted n b).owners = s.owners := by
  simp only [State.admitted]; (repeat' split) <;> simp

@[simp] theorem owners_offer (n : Nat) (b : Body) : (s.offer n b).owners = s.owners := by
  simp only [State.offer]; split <;> simp

theorem owners_breakAndSet (n : Nat) : (s.breakAndSet n).owners = s.owners := by
  simp only [State.breakAndSet]
  split
  · simp only [State.setLineWith, owners_offer, owners_onLine]
    exact owners_congr (by simp)
  · rfl

theorem owners_carryEnding (n : Nat) : (s.carryEnding n).owners = s.owners := by
  have hmark : ∀ (u : State) (f : Job → Bool), (u.onJob n fun j => { j with paragraphMark := f j }).owners = u.owners :=
    fun u _ => owners_onJob u n fun _ => rfl
  simp only [State.carryEnding]
  (repeat' split) <;> simp [State.setLineWith, owners_completeEnding, hmark]

theorem owners_takeByte : (takeByteEffect s).owners = s.owners := by
  simp only [takeByteEffect]
  split
  · rfl
  · exact (owners_afterStep _ _).trans
      (owners_onJob s _ fun j => (Job.owner_exhaust _).trans (Job.owner_applyByte s.house j))

theorem owners_placeWord : (placeWordEffect s).owners = s.owners := by
  simp only [placeWordEffect]
  split
  · rfl
  next slot _ =>
  have hfont : ∀ (u : State) (f : Nat), (u.onJob slot fun j => { j with stallFont := f }).owners = u.owners :=
    fun u _ => owners_onJob u slot fun _ => rfl
  split <;> simp [owners_breakAndSet, hfont]

theorem owners_setLine : (setLineEffect s).owners = s.owners := by
  simp only [setLineEffect]
  (repeat' split) <;> simp [owners_breakAndSet, owners_carryEnding]

theorem owners_offerWaiting {t : State} (h : s.offerWaiting = some t) : t.owners = s.owners := by
  obtain ⟨n, -, hn⟩ := List.exists_of_findSome?_eq_some h
  split at hn
  · simp at hn
  · split at hn
    · obtain rfl := Option.some.inj hn
      split <;> simp
    · simp at hn

/-! ### Requests on jobs -/

theorem owners_sendText (n : Nat) (text : List Byte) : (sendTextEffect n text s).1.owners = s.owners := by
  have hjob : (s.onJob n fun j => { j with text := j.text ++ text }).owners = s.owners := owners_onJob s n fun _ => rfl
  simp only [sendTextEffect]; (repeat' split) <;> simp [refuse, hjob]

/-- A job that closes was ACTIVE, and composes on (R49). -/
theorem owners_closeJob (n id : Nat) : (closeJobEffect n id s).1.owners = s.owners := by
  simp only [closeJobEffect]
  split
  · rfl
  split
  · rfl
  next h =>
  simp only [Bool.or_eq_true, bne_iff_ne, ne_eq, not_or, not_not] at h
  refine ((owners_restatus _ n).trans (owners_finishComposition _ n)).trans (owners_onJob_at s n ?_)
  rw [Job.owner_exhaust, Job.owner_eq_some_iff.2 ⟨h.2, .inl h.1⟩]
  exact Job.owner_eq_some_iff.2 ⟨h.2, .inr rfl⟩

end

end Sys2Proof.Machine
end

section
/-! A JOB word lives no longer than its job's composition (R124), under every command; and O54. -/

namespace Sys2Proof.Machine

open Sys2Proof

section
variable {s t : State}

/-! ### What keeps the words with their jobs -/

/-- The same jobs compose, and no entry has a new owner. -/
theorem JobWordsOk.of_owners (h : JobWordsOk s) (hown : t.owners = s.owners)
    (hwords : t.dict.map (·.scope) ⊆ s.dict.map (·.scope)) : JobWordsOk t := by
  rw [jobWordsOk_iff] at h ⊢
  rw [hown]
  intro e he slot id hsc
  obtain ⟨x, hx, hxe⟩ := List.mem_map.1 (hwords (List.mem_map_of_mem he))
  exact h x hx slot id (hxe.trans hsc)

theorem JobWordsOk.of_dict (h : JobWordsOk s) (hown : t.owners = s.owners) (hd : t.dict = s.dict) : JobWordsOk t :=
  h.of_owners hown (hd ▸ List.Subset.refl _)

theorem JobWordsOk.of_sublist (h : JobWordsOk s) (hown : t.owners = s.owners) (hsub : t.dict.Sublist s.dict) : JobWordsOk t :=
  h.of_owners hown (hsub.map _).subset

/-- One slot's job changes, and no word has an owner in that slot any longer. -/
theorem JobWordsOk.of_job_ne (h : JobWordsOk s) {n : Nat} (hsub : t.dict.Sublist s.dict)
    (hgone : ∀ e ∈ t.dict, ∀ id, e.scope ≠ .job n id) (hne : ∀ m, m ≠ n → t.job m = s.job m) : JobWordsOk t := by
  intro e he slot id hsc
  have hslot : slot ≠ n := fun heq => hgone e he id (heq ▸ hsc)
  rw [hne slot hslot]
  exact h e (hsub.subset he) slot id hsc

/-- A slot in which no job composes owns no word. -/
theorem JobWordsOk.no_words (h : JobWordsOk s) {n : Nat} (ha : (s.job n).state ≠ .active) (hc : (s.job n).state ≠ .closing) :
    ∀ e ∈ s.dict, ∀ id, e.scope ≠ .job n id := fun e he id hsc => by
  obtain ⟨-, -, hst | hst⟩ := h e he n id hsc
  · exact ha hst
  · exact hc hst

/-- The words of a slot are those of its job, so that none is left where these are retired. -/
theorem JobWordsOk.no_words_of_retired (h : JobWordsOk s) (n : Nat) :
    ∀ e ∈ s.dict.filter fun e => !isJobWord n (s.job n).id e, ∀ id, e.scope ≠ .job n id := fun e he id hsc => by
  obtain ⟨hmem, hkept⟩ := List.mem_filter.1 he
  obtain ⟨-, hid, -⟩ := h e hmem n id hsc
  simp [isJobWord, hsc, hid] at hkept

/-! ### A job opened, aborted, freed -/

theorem JobWordsOk.openJob (h : JobWordsOk s) (n id : Nat) (p : OpenParams) : JobWordsOk (openJobEffect n id p s).1 := by
  by_cases hrange : 3 < n ∨ id = 0 ∨ clampParams s.house p = none
  · rw [openJob_range hrange]; exact h
  rw [not_or, not_or, not_lt] at hrange
  obtain ⟨hn, hid, hp⟩ := hrange
  obtain ⟨ps, hp⟩ := Option.ne_none_iff_exists'.1 hp
  by_cases hfree : (s.job n).state = .free
  · rw [openJob_done hn hid hp hfree]
    exact h.of_job_ne (.refl _) (h.no_words (by simp [hfree]) (by simp [hfree]))
      fun m hm => State.job_onJob_ne s _ (Ne.symm hm)
  · rw [openJob_state hn hid hp hfree]; exact h

theorem JobWordsOk.abortJob (h : JobWordsOk s) (n id : Nat) : JobWordsOk (abortJobEffect n id s).1 := by
  obtain hsame | ⟨hlt, haborted⟩ := abortJob_cases n id s
  · rw [hsame]; exact h
  · rw [haborted]
    obtain ⟨-, -, -, -, -, -, hne⟩ := afterAbort_job hlt
    have hdict := afterAbort_dict s n
    exact h.of_job_ne (n := n) (hdict ▸ List.filter_sublist) (hdict ▸ h.no_words_of_retired n) hne

theorem freeJob_job_ne (s : State) {n m : Nat} (hm : m ≠ n) : (s.freeJob n).job m = s.job m := by
  simp only [State.freeJob]
  split <;> exact State.job_onJob_ne _ _ (Ne.symm hm)

theorem freeJob_dict_of_closing {n : Nat} (h : (s.job n).state = .closing) :
    (s.freeJob n).dict = s.dict.filter fun e => !isJobWord n (s.job n).id e := by
  simp [State.freeJob, h]

/-- A job that returns to FREE was CLOSING, and its words go with it, or ABORTING, and had none (R50, R124). -/
theorem JobWordsOk.freeJob (h : JobWordsOk s) {n : Nat} (hf : s.freeable n = true) : JobWordsOk (s.freeJob n) := by
  refine h.of_job_ne (n := n) (freeJob_dict s n) ?_ fun m hm => freeJob_job_ne s hm
  obtain ⟨⟨hclosing, -⟩ | ⟨haborting, -⟩, -⟩ := freeable_iff.1 hf
  · rw [freeJob_dict_of_closing hclosing]
    exact h.no_words_of_retired n
  · exact fun e he => h.no_words (by simp [haborting]) (by simp [haborting]) e ((freeJob_dict s n).subset he)

theorem jobWordsOk_resetComposition (s : State) : JobWordsOk (resetCompositionEffect s).1 := by
  rw [resetComposition_eq]
  intro e he slot id hsc
  obtain ⟨-, hkept⟩ := List.mem_filter.1 he
  simp [hsc] at hkept

/-! ### The closing part of a step -/

theorem JobWordsOk.react (h : JobWordsOk s) (ht : s.react = some t) : JobWordsOk t := by
  have hdict := (react_dict_marks ht).1
  simp only [State.react] at ht
  rcases orElse_cases ht with ht | ht
  · obtain ⟨n, hn, rfl⟩ := Option.map_eq_some_iff.1 ht
    exact h.freeJob (List.find?_some hn)
  refine h.of_sublist ?_ hdict
  rcases orElse_cases ht with ht | ht
  · exact owners_congr (by simp [reactHeads_keeps ht])
  rcases orElse_cases ht with ht | ht
  · exact owners_offerWaiting s ht
  rcases orElse_cases ht with ht | ht
  · exact owners_congr (by simp [chooseTurn_keeps ht])
  rcases orElse_cases ht with ht | ht
  · exact owners_congr (by simp [reactProof_keeps ht])
  rcases orElse_cases ht with ht | ht
  · exact owners_congr (by simp [reactLamp_keeps ht])
  rcases orElse_cases ht with ht | ht
  · exact owners_congr (by simp [reactRun_keeps ht])
  rcases orElse_cases ht with ht | ht
  · obtain ⟨n, -, rfl⟩ := Option.map_eq_some_iff.1 ht
    exact owners_beginPositioning s n
  · exact owners_congr (by simp [reactSend_keeps ht])

theorem JobWordsOk.settle (h : JobWordsOk s) (before : State) : JobWordsOk (settle before s) := by
  have hreact := reactAll_invariant (P := JobWordsOk) (fun hr hu => hu.react hr) 100 h
  have hjudged : JobWordsOk (before.judgeEconomy (reactAll 100 s)) := hreact.of_dict (owners_congr (by simp)) (by simp)
  exact hjudged

/-! ### The requests of the dictionary, and consultations -/

/-- A JOB word is added for the job composing in its slot alone (R114, row 3). -/
theorem JobWordsOk.addWord (h : JobWordsOk s) (n : Nat) (w : List Byte) (bs : List WordBreak) (o : ScopeArg) :
    JobWordsOk (addWordEffect n w bs o s).1 := by
  obtain hsame | ⟨sc, t, l, hpass, -, -, -, -, hadd⟩ := addWord_cases s n w bs o
  · rw [hsame]; exact h
  · rw [hadd]
    intro e he slot id hsc
    obtain rfl | he := mem_insertEntry.1 he
    · obtain rfl : sc = .job slot id := hsc
      obtain ⟨hcomposing, hid⟩ := hpass.standing
      exact ⟨slot_lt_of_scopeOf hpass.owner, hid, (composing_iff _).1 hcomposing⟩
    · exact h e he slot id hsc

/-- Entries that keep their scopes. -/
theorem JobWordsOk.of_map (h : JobWordsOk s) {f : DictEntry → DictEntry} (hown : t.owners = s.owners)
    (hd : t.dict = s.dict.map f) (hf : ∀ e, (f e).scope = e.scope) : JobWordsOk t := by
  refine h.of_owners hown ?_
  rw [hd, List.map_map, show (·.scope) ∘ f = (·.scope) from funext hf]
  exact List.Subset.refl _

theorem JobWordsOk.amendWord (h : JobWordsOk s) (name : WordName) (bs : List WordBreak) :
    JobWordsOk (amendWordEffect name bs s).1 := by
  simp only [amendWordEffect]
  split
  · exact h
  split
  · exact h
  split
  · exact h
  exact h.of_map rfl rfl fun e => by split <;> rfl

theorem JobWordsOk.pruneWords (h : JobWordsOk s) (n threshold : Nat) : JobWordsOk (pruneWordsEffect n threshold s).1 := by
  simp only [pruneWordsEffect]
  split
  · exact h
  have hkept : ∀ p, JobWordsOk (retireWhere p s) := fun p => h.of_sublist rfl List.filter_sublist
  exact (hkept _).of_map rfl rfl fun e => by split <;> rfl

theorem JobWordsOk.of_consultation (h : JobWordsOk s) (hown : t.owners = s.owners) (hc : ConsultedAtMost s.dict t.dict) :
    JobWordsOk t := by
  obtain hsame | ⟨k, hraised⟩ := hc
  · exact h.of_dict hown hsame
  · exact h.of_map hown hraised fun e => by split <;> rfl

/-! ### Every command -/

theorem JobWordsOk.event (h : JobWordsOk s) {i : Instr} {f : State → State} (hv : eventOf i = some f) : JobWordsOk (f s) := by
  have hsame : ∀ {g : State → State}, (g s).owners = s.owners → (g s).dict = s.dict → JobWordsOk (settledEvent g s) :=
    fun hown hd => (h.of_dict hown hd).settle s
  cases i with
  | powerOnReset r => cases hv; exact (freshState_powerOnReset r s).jobWordsOk
  | rotationArrival => cases hv; exact hsame (owners_rotationArrival s) (by simp)
  | hatchClosed => cases hv; exact hsame (owners_hatchClosed s) (by simp)
  | stripReadComplete c => cases hv; exact hsame (owners_stripReadComplete s c) (by simp)
  | takeByte => cases hv; exact hsame (owners_takeByte s) (by simp)
  | placeWord => cases hv; exact (h.of_consultation (owners_placeWord s) (placeWord_dict s)).settle s
  | setLine => cases hv; exact (h.of_consultation (owners_setLine s) (setLine_dict s)).settle s
  | discardQuietTimeout | attnThrottleExpiry | lineExposedDelayExpiry | lineExposedAbsoluteExpiry | indexFound | hatchOpened
  | carriageArrival | coverClosed | xoffReceived | xonReceived | stallTimerExpiry | paperOut | paperPresent =>
    cases hv; exact h.of_dict (owners_congr (by simp)) (by simp)
  | _ => cases hv <;> exact hsame (owners_congr (by simp)) (by simp)

theorem JobWordsOk.request (h : JobWordsOk s) {i : Instr} {tag : Byte} {e : Effect} (he : effectOf i = some (tag, e)) :
    JobWordsOk (e s).1 := by
  have hsame : ∀ {g : Effect}, (g s).1.owners = s.owners → (g s).1.dict = s.dict → JobWordsOk (settled g s).1 :=
    fun hown hd => (h.of_dict hown hd).settle s
  cases i with
  | addWord tag n w bs o => cases he; exact h.addWord n w bs o
  | amendWord tag name bs => cases he; exact h.amendWord name bs
  | retireWord tag name => cases he; exact h.of_sublist (owners_congr (by simp)) (retireWord_sublist name s)
  | retireWords tag c n slot id => cases he; exact h.of_sublist (owners_congr (by simp)) (retireWords_sublist c n slot id s)
  | pruneWords tag n threshold => cases he; exact h.pruneWords n threshold
  | resetComposition tag => cases he; exact (jobWordsOk_resetComposition s).settle s
  | openJob tag n id p => cases he; exact (h.openJob n id p).settle s
  | abortJob tag n id => cases he; exact (h.abortJob n id).settle s
  | sendText tag n text => cases he; exact hsame (owners_sendText s n text) (by simp)
  | closeJob tag n id => cases he; exact hsame (owners_closeJob s n id) (by simp)
  | defineFont tag d => cases he; exact hsame (owners_defineFont s d) (by simp)
  | prepareExchange tag n => cases he; exact hsame (owners_prepareExchange s n) (by simp)
  | cancelExchange tag n => cases he; exact hsame (owners_cancelExchange s n) (by simp)
  | setProof tag enable rate =>
    cases he
    have hset : JobWordsOk (setProofEffect enable rate s).1 := h.of_dict (owners_congr (by simp)) (by simp)
    exact hset.settle s
  | setQueueMarks | holdExposure | releaseExposure | lampOff | setLamp | loadFilm | feedAndCut =>
    cases he; exact hsame (owners_congr (by simp)) (by simp)
  | _ => cases he <;> exact h.of_dict (owners_congr (by simp)) (by simp)

theorem jobWordsOk_kept : Kept JobWordsOk where
  link h _ := h
  request h he := h.request he
  event h hv := h.event hv

end

/-- Settles O54: a JOB entry's owner composes after every request's effect, after every event and after what the link does. -/
theorem everyCommandKeepsJobWordsWithTheirJob : Obligations.EveryCommandKeepsJobWordsWithTheirJob := by
  unfold Obligations.EveryCommandKeepsJobWordsWithTheirJob
  exact fun _ _ _ h hx => jobWordsOk_kept.exec h hx

end Sys2Proof.Machine
end

section
/-! O36: the entry a consultation chooses, and the count it raises (R110, R111). -/

namespace Sys2Proof.Machine

open Sys2Proof

section
variable {d : List DictEntry} {n : Nat} {w : List Nat} {slot id : Nat} {e : DictEntry}

/-- JOB before DESK before HOUSE (R111). -/
theorem choose_eq_some_iff :
    choose d n w slot id = some e ↔
      entryOfKey d n w (.job slot id) = some e ∨
      (entryOfKey d n w (.job slot id) = none ∧ entryOfKey d n w .desk = some e) ∨
      (entryOfKey d n w (.job slot id) = none ∧ entryOfKey d n w .desk = none ∧ entryOfKey d n w .house = some e) := by
  simp only [choose, Option.orElse_eq_or, Option.or_eq_some_iff]
  tauto

theorem choose_eq_none_iff :
    choose d n w slot id = none ↔
      entryOfKey d n w (.job slot id) = none ∧ entryOfKey d n w .desk = none ∧ entryOfKey d n w .house = none := by
  simp only [choose, Option.orElse_eq_or, Option.or_eq_none_iff]

/-- What a consultation that chooses the entry of slot `k` leaves in slot `m` (R110). -/
theorem entryAt_raiseHits (d : List DictEntry) (k m : Nat) :
    entryAt (raiseHits k d) m =
      (entryAt d m).map fun e => if m = k then { e with hits := if e.hits < 65535 then e.hits + 1 else e.hits } else e := by
  have hslot : ∀ e : DictEntry, (if e.slot == k then { e with hits := bump e.hits } else e : DictEntry).slot = e.slot :=
    fun e => by split <;> rfl
  have hpred : (fun e : DictEntry => e.slot == m) ∘ (fun e => if e.slot == k then { e with hits := bump e.hits } else e) =
      fun e => e.slot == m := funext fun e => by rw [Function.comp_apply, hslot]
  rw [raiseHits, entryAt, List.find?_map, hpred, ← entryAt]
  refine Option.map_congr fun e he => ?_
  rw [(entryAt_some he).2, beq_eq_decide]
  simp only [decide_eq_true_eq, bump_eq]

end

/-- Settles O36: the three lookups in their order, and the slot whose count is raised. -/
theorem consultationChoosesByScope : Obligations.ConsultationChoosesByScope := by
  unfold Obligations.ConsultationChoosesByScope
  intro d n w slot id
  refine ⟨fun e he => ?_, fun hnone => ?_, entryAt_raiseHits d⟩
  · obtain hjob | ⟨hnojob, hdesk⟩ | ⟨hnojob, hnodesk, hhouse⟩ := choose_eq_some_iff.1 he
    · obtain ⟨hmem, hl, hw, hsc⟩ := entryOfKey_some hjob
      exact ⟨hmem, hl, hw, .inl hsc, fun hne => absurd hsc hne, fun hh => by rw [hsc] at hh; exact absurd hh nofun⟩
    · obtain ⟨hmem, hl, hw, hsc⟩ := entryOfKey_some hdesk
      exact ⟨hmem, hl, hw, .inr (.inl hsc), fun _ => entryOfKey_eq_none_iff.1 hnojob,
        fun hh => by rw [hsc] at hh; exact absurd hh nofun⟩
    · obtain ⟨hmem, hl, hw, hsc⟩ := entryOfKey_some hhouse
      exact ⟨hmem, hl, hw, .inr (.inr hsc), fun _ => entryOfKey_eq_none_iff.1 hnojob, fun _ => entryOfKey_eq_none_iff.1 hnodesk⟩
  · obtain ⟨hjob, hdesk, hhouse⟩ := choose_eq_none_iff.1 hnone
    exact fun x hx hl hw => ⟨entryOfKey_eq_none_iff.1 hjob x hx hl hw, entryOfKey_eq_none_iff.1 hdesk x hx hl hw,
      entryOfKey_eq_none_iff.1 hhouse x hx hl hw⟩

end Sys2Proof.Machine
end

section
/-! O33: ADD WORD, row by row (R106 to R109, R113, R114). -/

namespace Sys2Proof.Machine

open Sys2Proof

section
variable {s : State} {n : Nat} {w : List Byte} {bs : List WordBreak} {o : ScopeArg} {sc : Scope}

/-- The owners within the ranges of row 1 of R114. -/
def ownerInRange (o : ScopeArg) : Prop := o.scope = 0 ∨ o.scope = 1 ∨ (o.scope = 2 ∧ o.slot ≤ 3 ∧ o.jobId ≠ 0)

/-- The scope that an owner within its ranges names. -/
def namedScope (o : ScopeArg) : Scope := if o.scope = 0 then .house else if o.scope = 1 then .desk else .job o.slot o.jobId

theorem scopeOf_eq_some_iff (o : ScopeArg) (sc : Scope) :
    scopeOf o = some sc ↔
      ownerInRange o ∧ namedScope o = sc := by
  rw [scopeOf_eq, namedScope, ownerInRange]
  by_cases h0 : o.scope = 0
  · simp [h0]
  by_cases h1 : o.scope = 1
  · simp [h1]
  rw [if_neg h0, if_neg h0, if_neg h1, if_neg h1, Option.ite_none_right_eq_some, Option.some.injEq]
  simp only [h0, h1, false_or]

/-- Row 1 of R114, in the words of its table. -/
theorem wordInRange_iff :
    WordInRange n w bs o sc ↔
      (n ≤ 3 ∧
        (2 ≤ w.length ∧ w.length ≤ 31 ∧ ∀ b ∈ w, (0x21 ≤ b.toNat ∧ b.toNat ≤ 0x7E) ∨ 0xA0 ≤ b.toNat) ∧
        (bs.length ≤ 8 ∧ (∀ b ∈ bs, 1 ≤ b.position ∧ b.position ≤ w.length - 1 ∧ 1 ≤ b.grade ∧ b.grade ≤ 3) ∧
          (bs.map WordBreak.position).Pairwise (· < ·)) ∧
        ownerInRange o) ∧ namedScope o = sc := by
  rw [← breaksOk_iff]
  simp only [← isCharCode_iff]
  rw [← wordOk_iff]
  constructor
  · intro ⟨hown, hn, hw, hb⟩
    obtain ⟨hfits, hsc⟩ := (scopeOf_eq_some_iff o sc).1 hown
    exact ⟨⟨hn, hw, hb, hfits⟩, hsc⟩
  · rintro ⟨⟨hn, hw, hb, hfits⟩, hsc⟩
    exact ⟨(scopeOf_eq_some_iff o sc).2 ⟨hfits, hsc⟩, hn, hw, hb⟩

theorem namedScope_eq_house_iff (o : ScopeArg) : namedScope o = .house ↔ o.scope = 0 := by
  rw [namedScope]
  split_ifs with h0 h1 <;> simp [h0]

/-- Row 3 of R114 asks of a JOB owner alone that its job composes. -/
theorem standing_namedScope_iff (hfits : ownerInRange o) :
    (namedScope o).standing s ↔ (o.scope = 2 →
      ((s.job o.slot).state = .active ∨ (s.job o.slot).state = .closing) ∧ (s.job o.slot).id = o.jobId) := by
  obtain h | h | ⟨h, -⟩ := hfits <;> simp [namedScope, h, Scope.standing, composing_iff]

theorem owned_namedScope (hfits : ownerInRange o) (d : List DictEntry) :
    (namedScope o).owned d = if o.scope = 2 then d.countP (isJobWord o.slot o.jobId) else 0 := by
  obtain h | h | ⟨h, -⟩ := hfits <;> simp [namedScope, h, Scope.owned]

/-- The slot that an addition takes, in the words of R109. -/
theorem lowestFree_empty (h : DictOk s) (hroom : s.dict.length < 4096) :
    lowestFree 0 s.dict < 4096 ∧ entryAt s.dict (lowestFree 0 s.dict) = none ∧
      ∀ m, m < lowestFree 0 s.dict → (entryAt s.dict m).isSome = true := by
  obtain ⟨-, hfree, hbelow⟩ := lowestFree_spec s.dict 0 h.slots
  refine ⟨(lowestFree_le_length h.slots).trans_lt hroom, entryAt_eq_none_iff.2 hfree, fun m hm => ?_⟩
  obtain ⟨e, he, hslot⟩ := hbelow m (Nat.zero_le m) hm
  rw [← Option.ne_none_iff_isSome, ne_eq, entryAt_eq_none_iff, not_forall]
  exact ⟨e, fun hne => hne he hslot⟩

end

/-- Settles O33: each row of R114 by the answer of ADD WORD there. -/
theorem addWordTakesTheLowestEmptySlot : Obligations.AddWordTakesTheLowestEmptySlot := by
  unfold Obligations.AddWordTakesTheLowestEmptySlot
  intro s tag n w bs o ha hw hb hd i refused wordFits breaksFit ownerFits composes inRange sc
  have hs : i.shapeOk = true := by simp [i, Instr.shapeOk, countFits, hw, hb]
  have hrange : inRange → WordInRange n w bs o (namedScope o) := fun hr => wordInRange_iff.2 ⟨hr, rfl⟩
  have hfits : inRange → ownerInRange o := fun ⟨_, _, _, h⟩ => h
  have hunlocked : o.scope ≠ 0 ∨ s.houseLocked = false → namedScope o ≠ .house ∨ s.houseLocked = false :=
    Or.imp_left (mt (namedScope_eq_house_iff o).1)
  refine ⟨fun hr => ?_, fun hr h0 hl => ?_, fun hr hl => ⟨fun hst => ?_, fun t ht hc => ?_⟩⟩
  · exact exec_refused ha hs rfl (addWord_range fun sc h => hr (wordInRange_iff.1 h).1)
  · have hhouse := hrange hr
    rw [(namedScope_eq_house_iff o).2 h0] at hhouse
    exact exec_refused ha hs rfl (addWord_locked hhouse hl)
  · obtain hnone | ⟨h2, hno⟩ := hst
    · exact exec_refused ha hs rfl (addWord_undefined (s := s.received) (hrange hr) (hunlocked hl) hnone)
    · refine exec_refused ha hs rfl (addWord_not_standing (s := s.received) (hrange hr) (hunlocked hl) fun hst => ?_)
      exact hno ((standing_namedScope_iff (hfits hr)).1 hst h2)
  · intro l owned
    have hord : WordInOrder s.received n w bs o (namedScope o) t :=
      ⟨hrange hr, hunlocked hl, ht, (standing_namedScope_iff (hfits hr)).2 hc⟩
    have howned : (namedScope o).owned s.received.dict = owned := owned_namedScope (hfits hr) s.dict
    refine ⟨fun hz => ?_, fun hz e he => ?_, fun hz he hfull => ?_, fun hz he hfew hquota => ?_⟩
    · exact exec_refused ha hs rfl (addWord_no_letter hord (fold_of_no_letter hz))
    · exact exec_reported ha hs rfl (addWord_duplicate hord (fold_of_letters hz) he)
    · have hanswer := addWord_full hord (fold_of_letters hz) he (howned ▸ hfull)
      rw [howned] at hanswer
      exact exec_reported ha hs rfl hanswer
    · obtain ⟨hlt, hempty, hbelow⟩ := lowestFree_empty hd hfew
      have hroom : ¬(4096 ≤ s.dict.length ∨ 256 ≤ (namedScope o).owned s.received.dict) := by omega
      exact ⟨lowestFree 0 s.dict, hlt, hempty, hbelow,
        exec_dict ha hs rfl (addWord_done hord (fold_of_letters hz) he hroom)⟩

end Sys2Proof.Machine
end

section
/-! O35: PRUNE WORDS (R118). -/

namespace Sys2Proof.Machine

open Sys2Proof

/-- The entries that PRUNE WORDS judges: those of DESK scope, of a language or of every one. -/
def judgedWord (n : Nat) (e : DictEntry) : Bool := decide (e.scope = .desk ∧ (n = 255 ∨ e.language = n))

/-- The entries that it retires. -/
def prunedWord (n threshold : Nat) (e : DictEntry) : Bool := judgedWord n e && decide (e.hits < threshold)

/-- The dictionary that it leaves. -/
def prunedDict (n threshold : Nat) (d : List DictEntry) : List DictEntry :=
  (d.filter fun e => !prunedWord n threshold e).map fun e => if judgedWord n e then { e with hits := e.hits / 2 } else e

section
variable {s : State} {n threshold : Nat}

theorem pruneWords_range (h : 3 < n) (hall : n ≠ 255) : pruneWordsEffect n threshold s = refuse .range s := by
  simp [pruneWordsEffect, h, hall]

theorem pruneWords_done (h : n ≤ 3 ∨ n = 255) :
    pruneWordsEffect n threshold s = ({ s with dict := prunedDict n threshold s.dict },
      { status := .done
        payload := num2 (s.dict.countP (prunedWord n threshold)) ++
          num2 ((s.dict.filter fun e => !prunedWord n threshold e).countP (judgedWord n)) }) := by
  have hin : ¬(decide (n > 3) && n != 255) = true := by
    simp only [Bool.and_eq_true, decide_eq_true_eq, bne_iff_ne]
    omega
  have hjudged : (fun e : DictEntry => e.scope == .desk && (n == 255 || e.language == n)) = judgedWord n :=
    funext fun e => by simp [judgedWord, beq_eq_decide]
  have hcond : ∀ e : DictEntry, (e.scope == .desk && (n == 255 || e.language == n)) = judgedWord n e := congrFun hjudged
  simp only [pruneWordsEffect, if_neg hin, hcond]
  rfl

theorem prunedWord_zero (n : Nat) (e : DictEntry) : prunedWord n 0 e = false := by
  simp [prunedWord]

/-- A word judged once with a count of 1 against a threshold of 1 is kept, and its count is then below the threshold. -/
theorem prunedDict_of_one {d : List DictEntry} {e : DictEntry} (he : e ∈ d) (hj : judgedWord n e = true) (h1 : e.hits = 1) :
    { e with hits := 0 } ∈ prunedDict n 1 d ∧ prunedWord n 1 { e with hits := 0 } = true := by
  have hkept : (!prunedWord n 1 e) = true := by simp [prunedWord, h1]
  refine ⟨List.mem_map.2 ⟨e, List.mem_filter.2 ⟨he, hkept⟩, ?_⟩, ?_⟩
  · rw [if_pos hj, h1]
  · exact Bool.and_eq_true_iff.2 ⟨hj, rfl⟩

end

/-- Settles O35: the range, and the dictionary that a prune leaves. -/
theorem pruneWordsRetiresAndHalves : Obligations.PruneWordsRetiresAndHalves := by
  unfold Obligations.PruneWordsRetiresAndHalves
  intro s tag n threshold ha i judged gone
  refine ⟨fun h hall => exec_refused ha rfl rfl (pruneWords_range h hall), fun h => ?_⟩
  refine ⟨{ s with dict := prunedDict n threshold s.dict }, exec_dict ha rfl rfl (pruneWords_done h), rfl, rfl,
    fun h0 => ?_, fun h1 e he hj hh => ?_⟩
  · subst h0
    simp [prunedDict, prunedWord_zero]
  · subst h1
    exact prunedDict_of_one he hj hh

end Sys2Proof.Machine
end

section
/-! O34: the naming of entries, and the requests that amend, retire and report them (R113, R115, R116, R117, R120). -/

namespace Sys2Proof.Machine

open Sys2Proof

section
variable {s : State} {n slot id k : Nat} {w : List Byte} {o : ScopeArg} {sc : Scope} {t : LanguageTable} {l : List Nat}
  {name : WordName} {bs : List WordBreak} {e : DictEntry} {st : Status} {ownerOk : Bool}

/-! ### Rows 1 to 3 of R113 -/

theorem foldChecked_range (h : 3 < n ∨ wordOk w = false ∨ ownerOk = false) : foldChecked s n w ownerOk = .error .range := by
  have hbad : (!(decide (n ≤ 3) && wordOk w && ownerOk)) = true := by
    rcases h with h | h | h <;> simp [h]
  rw [foldChecked, if_pos hbad]

theorem foldChecked_undefined (hn : n ≤ 3) (hw : wordOk w = true) (ho : ownerOk = true) (ht : s.language n = none) :
    foldChecked s n w ownerOk = .error .state := by
  simp [foldChecked, hn, hw, ho, ht]

theorem foldChecked_no_letter (hn : n ≤ 3) (hw : wordOk w = true) (ho : ownerOk = true) (ht : s.language n = some t)
    (hf : fold t w = none) : foldChecked s n w ownerOk = .error .range := by
  simp [foldChecked, hn, hw, ho, ht, hf]

theorem foldChecked_ok (hn : n ≤ 3) (hw : wordOk w = true) (ho : ownerOk = true) (ht : s.language n = some t)
    (hf : fold t w = some l) : foldChecked s n w ownerOk = .ok l := by
  simp [foldChecked, hn, hw, ho, ht, hf]

/-! ### Naming -/

theorem nameEntry_byKey_error (h : foldChecked s n w (scopeOf o).isSome = .error st) :
    nameEntry s (.byKey n w o) = .error st := by
  simp only [nameEntry, h]

theorem nameEntry_byKey_of_fold (h : foldChecked s n w (scopeOf o).isSome = .ok l) (ho : scopeOf o = some sc) :
    nameEntry s (.byKey n w o) = (entryOfKey s.dict n l sc).elim (.error .absent) .ok := by
  rw [ho] at h
  simp only [nameEntry, ho, h, Option.bind_some]
  cases entryOfKey s.dict n l sc <;> rfl

/-! ### AMEND WORD, RETIRE WORD, QUERY WORD -/

theorem amendWord_unnamed (h : nameEntry s name = .error st) : amendWordEffect name bs s = refuse st s := by
  simp only [amendWordEffect, h]

theorem retireWord_unnamed (h : nameEntry s name = .error st) : retireWordEffect name s = refuse st s := by
  simp only [retireWordEffect, h]

theorem amendWord_locked (h : nameEntry s name = .ok e) (hsc : e.scope = .house) (hl : s.houseLocked = true) :
    amendWordEffect name bs s = refuse .locked s := by
  simp [amendWordEffect, h, hsc, hl]

theorem retireWord_locked (h : nameEntry s name = .ok e) (hsc : e.scope = .house) (hl : s.houseLocked = true) :
    retireWordEffect name s = refuse .locked s := by
  simp [retireWordEffect, h, hsc, hl]

theorem amendWord_range (h : nameEntry s name = .ok e) (hl : e.scope ≠ .house ∨ s.houseLocked = false)
    (hb : breaksOk e.word.length bs = false) : amendWordEffect name bs s = refuse .range s := by
  simp [amendWordEffect, h, house_locked_eq_false hl, hb]

theorem amendWord_done (h : nameEntry s name = .ok e) (hl : e.scope ≠ .house ∨ s.houseLocked = false)
    (hb : breaksOk e.word.length bs = true) :
    amendWordEffect name bs s =
      ({ s with dict := s.dict.map fun x => if x.slot = e.slot then { x with breaks := bs } else x },
        { status := .done, payload := num2 e.slot ++ e.scope.bytes ++ num2 e.hits ++ breakBytes bs }) := by
  simp [amendWordEffect, h, house_locked_eq_false hl, hb]

theorem retireWord_done (h : nameEntry s name = .ok e) (hl : e.scope ≠ .house ∨ s.houseLocked = false) :
    retireWordEffect name s =
      ({ s with dict := s.dict.filter fun x => x.slot ≠ e.slot }, { status := .done, payload := e.bytes }) := by
  have hfilter : (s.dict.filter fun x => !(x.slot == e.slot)) = s.dict.filter fun x => x.slot ≠ e.slot :=
    List.filter_congr fun x _ => by simp [beq_eq_decide]
  simp [retireWordEffect, h, house_locked_eq_false hl, retireWhere, hfilter]

/-- QUERY WORD of an entry named by its slot or its key (R120). -/
def queryOf : WordName → WordQuery
  | .bySlot k => .bySlot k
  | .byKey n w o => .byKey n w o

theorem queryWord_unnamed (h : nameEntry s name = .error st) : queryWordEffect (queryOf name) s = refuse st s := by
  cases name <;> simp only [queryOf, queryWordEffect, h]

theorem queryWord_done (h : nameEntry s name = .ok e) :
    queryWordEffect (queryOf name) s = (s, { status := .done, payload := e.bytes }) := by
  cases name <;> simp only [queryOf, queryWordEffect, h]

/-! ### QUERY WORD as a job sees it -/

theorem queryWord_seen_range (h : 3 < slot) : queryWordEffect (.asSeenBy slot n w) s = refuse .range s := by
  simp [queryWordEffect, h]

theorem queryWord_seen_state (hslot : slot ≤ 3) (h : (s.job slot).composing = false) :
    queryWordEffect (.asSeenBy slot n w) s = refuse .state s := by
  simp [queryWordEffect, hslot, h]

theorem queryWord_seen_error (hslot : slot ≤ 3) (hc : (s.job slot).composing = true) (h : foldChecked s n w true = .error st) :
    queryWordEffect (.asSeenBy slot n w) s = refuse st s := by
  simp [queryWordEffect, hslot, hc, h]

theorem queryWord_seen_absent (hslot : slot ≤ 3) (hc : (s.job slot).composing = true) (h : foldChecked s n w true = .ok l)
    (hk : choose s.dict n l slot (s.job slot).id = none) : queryWordEffect (.asSeenBy slot n w) s = refuse .absent s := by
  simp [queryWordEffect, hslot, hc, h, hk]

theorem queryWord_seen_done (hslot : slot ≤ 3) (hc : (s.job slot).composing = true) (h : foldChecked s n w true = .ok l)
    (hk : choose s.dict n l slot (s.job slot).id = some e) :
    queryWordEffect (.asSeenBy slot n w) s = (s, { status := .done, payload := e.bytes ++ e.scope.bytes.take 1 }) := by
  simp [queryWordEffect, hslot, hc, h, hk]

/-! ### RETIRE WORDS -/

/-- A class of words retired, with how many went and how many stay (R117). -/
def retiring (p : DictEntry → Bool) : Effect := fun s =>
  (retireWhere p s, { status := .done, payload := num2 (s.dict.countP p) ++ num2 (s.dict.filter fun e => !p e).length })

theorem retireWords_job (hslot : slot ≤ 3) (hid : id ≠ 0) :
    retireWordsEffect 0 n slot id s = retiring (fun e => decide (e.scope = .job slot id)) s := by
  have hown : isJobWord slot id = fun e => decide (e.scope = .job slot id) := funext fun e => beq_eq_decide _ _
  simp [retireWordsEffect, hslot, hid, hown, retiring]

theorem retireWords_desk (hn : n ≤ 3) :
    retireWordsEffect 1 n slot id s = retiring (fun e => decide (e.scope = .desk ∧ e.language = n)) s := by
  simp [retireWordsEffect, hn, retiring, beq_eq_decide]

theorem retireWords_every_desk : retireWordsEffect 2 n slot id s = retiring (fun e => decide (e.scope = .desk)) s := by
  simp [retireWordsEffect, retiring, beq_eq_decide]

theorem retireWords_locked (hn : n ≤ 3) (hl : s.houseLocked = true) : retireWordsEffect 3 n slot id s = refuse .locked s := by
  simp [retireWordsEffect, hn, hl]

theorem retireWords_house (hn : n ≤ 3) (hl : s.houseLocked = false) :
    retireWordsEffect 3 n slot id s = retiring (fun e => decide (e.scope = .house ∧ e.language = n)) s := by
  simp [retireWordsEffect, hn, hl, retiring, beq_eq_decide]

theorem retireWords_range {c : Nat} (h : 3 < c ∨ (c = 0 ∧ (3 < slot ∨ id = 0)) ∨ ((c = 1 ∨ c = 3) ∧ 3 < n)) :
    retireWordsEffect c n slot id s = refuse .range s := by
  obtain h | ⟨rfl, h⟩ | ⟨rfl | rfl, h⟩ := h
  · obtain ⟨k, rfl⟩ := Nat.exists_eq_add_of_le' h
    rfl
  · rcases h with h | h <;> simp [retireWordsEffect, h]
  · simp [retireWordsEffect, h]
  · simp [retireWordsEffect, h]

end

theorem exec_queryWord_named {s : State} {tag : Byte} (ha : s.accepting) (name : WordName) :
    let i := Instr.queryWord tag (queryOf name)
    i.shapeOk = true →
      (∀ st, nameEntry s name = .error st → exec i s = .next (s.answered (plainReply i tag st))) ∧
      ∀ e, nameEntry s name = .ok e → exec i s = .next (s.answered (replyWith i tag .done e.bytes)) := fun hs =>
  ⟨fun _ h => exec_refused ha hs rfl (queryWord_unnamed (s := s.received) h),
    fun _ h => exec_reported ha hs rfl (queryWord_done (s := s.received) h)⟩

/-- Settles O34: the naming by its rows, and each request by its answers. -/
theorem namedWordsAreAmendedRetiredReported : Obligations.NamedWordsAreAmendedRetiredReported := by
  unfold Obligations.NamedWordsAreAmendedRetiredReported
  intro s tag ha
  refine ⟨fun k => rfl, fun n w o t l sc hn hw ho ht hf => ?_,
    fun o w t => ⟨scopeOf_eq o, wordOk_iff w, fold_eq_some_iff t w⟩,
    fun n w o => ⟨fun h => ?_, fun hn hw ho => ⟨fun ht => ?_, fun t ht hf => ?_⟩⟩,
    fun k => exec_queryWord_named ha (.bySlot k) rfl, fun slot n w hlen => ?_, fun name bs hs => ?_, fun name hs => ?_, fun n w o hlen => ?_,
    fun slot n w t l hslot hc hn hw ht hf => ?_, fun cls n slot id => ?_⟩
  case refine_1 =>
    rw [nameEntry_byKey_of_fold (foldChecked_ok hn hw (by rw [ho]; rfl) ht hf) ho]
    cases entryOfKey s.dict n l sc <;> rfl
  case refine_2 => exact nameEntry_byKey_error (foldChecked_range (by simpa using h))
  case refine_3 => exact nameEntry_byKey_error (foldChecked_undefined hn hw ho ht)
  case refine_4 => exact nameEntry_byKey_error (foldChecked_no_letter hn hw ho ht hf)
  case refine_5 =>
    have hs : (Instr.queryWord tag (.asSeenBy slot n w)).shapeOk = true := by simpa [Instr.shapeOk, countFits] using hlen
    have hrefused : ∀ {st}, slot ≤ 3 → (s.job slot).state = .active ∨ (s.job slot).state = .closing →
        foldChecked s.received n w true = .error st →
        exec (.queryWord tag (.asSeenBy slot n w)) s =
          .next (s.answered (plainReply (.queryWord tag (.asSeenBy slot n w)) tag st)) := fun hslot hst h =>
      exec_refused ha hs rfl (queryWord_seen_error (s := s.received) hslot ((composing_iff _).2 hst) h)
    refine ⟨fun h => exec_refused ha hs rfl (queryWord_seen_range h), fun hslot hact hclo => ?_, fun hslot hst =>
      ⟨fun h => ?_, fun hn hw => ⟨fun ht => ?_, fun t ht hf => ?_⟩⟩⟩
    · refine exec_refused ha hs rfl (queryWord_seen_state (s := s.received) hslot ?_)
      rw [← Bool.not_eq_true, composing_iff]
      exact fun h => h.elim hact hclo
    · exact hrefused hslot hst (foldChecked_range (h.imp_right .inl))
    · exact hrefused hslot hst (foldChecked_undefined hn hw rfl ht)
    · exact hrefused hslot hst (foldChecked_no_letter hn hw rfl ht hf)
  case refine_6 =>
    refine ⟨fun st h => exec_refused ha hs rfl (amendWord_unnamed (s := s.received) h),
      fun e h => ⟨fun hsc hl => ?_, fun hl => ?_⟩⟩
    · exact exec_refused ha hs rfl (amendWord_locked (s := s.received) h hsc hl)
    · exact ⟨fun hb => exec_refused ha hs rfl (amendWord_range (s := s.received) h hl hb),
        fun hb => exec_dict ha hs rfl (amendWord_done (s := s.received) h hl hb)⟩
  case refine_7 =>
    exact ⟨fun st h => exec_refused ha hs rfl (retireWord_unnamed (s := s.received) h), fun e h =>
      ⟨fun hsc hl => exec_refused ha hs rfl (retireWord_locked (s := s.received) h hsc hl),
        fun hl => exec_dict ha hs rfl (retireWord_done (s := s.received) h hl)⟩⟩
  case refine_8 => exact exec_queryWord_named ha (.byKey n w o) (by simpa [Instr.shapeOk, queryOf, countFits] using hlen)
  case refine_9 =>
    have hs : (Instr.queryWord tag (.asSeenBy slot n w)).shapeOk = true := by
      simp only [wordOk, Bool.and_eq_true, decide_eq_true_eq] at hw
      simp only [Instr.shapeOk, countFits, decide_eq_true_eq]
      omega
    have hl : foldChecked s.received n w true = .ok l := foldChecked_ok hn hw rfl ht hf
    exact ⟨fun hnone => exec_refused ha hs rfl (queryWord_seen_absent (s := s.received) hslot hc hl hnone),
      fun e hsome => exec_reported ha hs rfl (queryWord_seen_done (s := s.received) hslot hc hl hsome)⟩
  case refine_10 =>
    refine ⟨?_, ?_, ?_, ?_, ?_, fun h => exec_refused ha rfl rfl (retireWords_range h)⟩
    · rintro rfl hslot hid
      exact exec_dict ha rfl rfl (retireWords_job hslot hid)
    · rintro rfl hn
      exact exec_dict ha rfl rfl (retireWords_desk hn)
    · rintro rfl
      exact exec_dict ha rfl rfl retireWords_every_desk
    · rintro rfl hn hl
      exact exec_refused ha rfl rfl (retireWords_locked (s := s.received) hn hl)
    · rintro rfl hn hl
      exact exec_dict ha rfl rfl (retireWords_house (s := s.received) hn hl)

end Sys2Proof.Machine
end

section
/-! O37: SET QUEUE MARKS (R133, R141). -/

namespace Sys2Proof.Machine

open Sys2Proof

section
variable {s : State} {eh el gh gl : Nat}

/-- The state with its four marks replaced (R141). -/
def State.withMarks (s : State) (eh el gh gl : Nat) : State :=
  s.onQueue fun q => { q with entryHigh := eh, entryLow := el, glyphHigh := gh, glyphLow := gl }

theorem withMarks_atHigh :
    (s.withMarks eh el gh gl).queue.atHigh = true ↔ eh ≤ s.queue.inUse ∨ gh ≤ s.queue.glyphsInUse := atHigh_iff _

theorem withMarks_atLow :
    (s.withMarks eh el gh gl).queue.atLow = true ↔ s.queue.inUse ≤ el ∧ s.queue.glyphsInUse ≤ gl := atLow_iff _

theorem setQueueMarks_range (h : ¬(el < eh ∧ eh ≤ 64 ∧ gl < gh ∧ gh ≤ 6144)) :
    setQueueMarksEffect eh el gh gl s = refuse .range s := by
  simp only [setQueueMarksEffect]
  split
  · rfl
  · next hrange =>
    simp only [Bool.not_eq_true', Bool.not_eq_false, Bool.and_eq_true, decide_eq_true_eq] at hrange
    exact absurd (by omega) h

/-- The marks are replaced, and the counts tested at once. -/
theorem setQueueMarks_done (he : el < eh) (heh : eh ≤ 64) (hg : gl < gh) (hgh : gh ≤ 6144) :
    setQueueMarksEffect eh el gh gl s =
      done (if (s.withMarks eh el gh gl).queue.atHigh then (s.withMarks eh el gh gl).testHigh
        else (s.withMarks eh el gh gl).testLow) := by
  have hone : 1 ≤ eh ∧ 1 ≤ gh := by omega
  exact if_neg (by simp [he, heh, hg, hgh, hone])

/-! ### The two tests, where the counts and the condition are known (R133) -/

theorem testHigh_of_set (h : s.queue.highWater = true) : s.testHigh = s := by
  simp [State.testHigh, h]

theorem testHigh_of_clear (h : s.queue.highWater = false) (hh : s.queue.atHigh = true) :
    s.testHigh = (s.onQueue fun q => { q with highWater := true }).raise .queueHigh := by
  simp [State.testHigh, h, hh]

theorem testLow_of_low (h : s.queue.atLow = true) : s.testLow = s.onQueue fun q => { q with highWater := false } := by
  simp [State.testLow, State.onQueue, h]

theorem testLow_of_not_low (h : s.queue.atLow = false) : s.testLow = s := by
  simp [State.testLow, State.onQueue, h]

end

/-- Settles O37: outside the ranges the marks stay, and inside them the count that stands at a high mark, or both at the low marks,
decides the condition. -/
theorem setQueueMarksTestsTheCounts : Obligations.SetQueueMarksTestsTheCounts := by
  unfold Obligations.SetQueueMarksTestsTheCounts
  intro s tag eh el gh gl ha i rc q high low
  refine ⟨fun h => exec_settled_refused ha rfl rfl (setQueueMarks_range h), fun he heh hg hgh => ?_⟩
  have hmarks := setQueueMarks_done (s := rc) he heh hg hgh
  let u := rc.withMarks eh el gh gl
  have hhigh : u.queue.atHigh = true ↔ high := withMarks_atHigh
  have hlow : u.queue.atLow = true ↔ low := withMarks_atLow
  refine ⟨fun hh hw => ?_, fun hh hw => ?_, fun hh hl => ?_, fun hh hl => ?_⟩
  · rw [if_pos (hhigh.2 hh), testHigh_of_clear (s := u) hw (hhigh.2 hh)] at hmarks
    exact exec_settled_done ha rfl rfl hmarks rfl
  · rw [if_pos (hhigh.2 hh), testHigh_of_set (s := u) hw] at hmarks
    exact exec_settled_done ha rfl rfl hmarks rfl
  · rw [if_neg (mt hhigh.1 hh), testLow_of_low (s := u) (hlow.2 hl)] at hmarks
    exact exec_settled_done ha rfl rfl hmarks rfl
  · rw [if_neg (mt hhigh.1 hh), testLow_of_not_low (s := u) (Bool.eq_false_iff.2 (mt hlow.1 hl))] at hmarks
    exact exec_settled_done ha rfl rfl hmarks rfl

end Sys2Proof.Machine
end


section
/-! The queue's capacities, its marks and its high-water condition, under every operation on the entries (R126, R133, R141). -/

namespace Sys2Proof.Machine

open Sys2Proof

/-- All that QueueOk reads of the queue. -/
def Queue.gauge (q : Queue) : Nat × Nat × Nat × Bool × (Nat × Nat × Nat × Nat) :=
  (q.inUse, q.glyphsInUse, q.nextSerial, q.highWater, q.marks)

theorem Queue.gauge_map (q : Queue) (f : Entry → Entry) (hf : ∀ e, (f e).body.glyphCount = e.body.glyphCount) :
    ({ q with entries := q.entries.map f } : Queue).gauge = q.gauge := by
  simp [Queue.gauge, Queue.inUse, Queue.glyphsInUse, Queue.marks, Function.comp_def, hf]

theorem Queue.gauge_modify (q : Queue) (k : Nat) (f : Entry → Entry) (hf : ∀ e, (f e).body.glyphCount = e.body.glyphCount) :
    (q.modify k f).gauge = q.gauge :=
  q.gauge_map _ fun e => by
    split
    · exact hf e
    · rfl

/-- No count grows where entries leave. -/
theorem Queue.counts_le_of_sublist {q q' : Queue} (h : q'.entries.Sublist q.entries) :
    q'.inUse ≤ q.inUse ∧ q'.glyphsInUse ≤ q.glyphsInUse :=
  ⟨h.length_le, (h.map _).sum_le_sum fun _ _ => Nat.zero_le _⟩

section
variable {s t : State}

theorem QueueOk.of_gauge (h : QueueOk s) (hg : t.queue.gauge = s.queue.gauge) : QueueOk t := by
  simp only [Queue.gauge, Queue.marks, Prod.mk.injEq] at hg
  obtain ⟨hin, hgl, hser, hwater, heh, hel, hgh, hgll⟩ := hg
  simpa only [QueueOk, Queue.atLow, Queue.atHigh, hin, hgl, hser, hwater, heh, hel, hgh, hgll] using h

theorem QueueOk.of_queue (h : QueueOk s) (hq : t.queue = s.queue) : QueueOk t := h.of_gauge (by rw [hq])

theorem Queue.atHigh_of_le {q q' : Queue} (hm : q'.marks = q.marks) (hin : q'.inUse ≤ q.inUse)
    (hgl : q'.glyphsInUse ≤ q.glyphsInUse) (h : q.atHigh = false) : q'.atHigh = false := by
  obtain ⟨heh, -, hgh, -⟩ := marks_eq_iff.1 hm
  rw [Bool.eq_false_iff, ne_eq, atHigh_iff] at h ⊢
  omega

/-- Entries leave, and the low marks are tested (R133). -/
theorem QueueOk.ease (h : QueueOk s) (hle : t.queue.inUse ≤ s.queue.inUse ∧ t.queue.glyphsInUse ≤ s.queue.glyphsInUse)
    (hm : t.queue.marks = s.queue.marks) (hser : t.queue.nextSerial = s.queue.nextSerial)
    (hw : t.queue.highWater = (s.queue.highWater && !t.queue.atLow)) : QueueOk t := by
  obtain ⟨hroom, hslots, hserial, helow, hehigh, hglow, hghigh, -, hclear⟩ := h
  obtain ⟨hin, hgl⟩ := hle
  obtain ⟨heh, hel, hgh, hgll⟩ := marks_eq_iff.1 hm
  refine ⟨hin.trans hroom, hgl.trans hslots, hser ▸ hserial, by rwa [heh, hel], by rwa [heh], by rwa [hgh, hgll], by rwa [hgh],
    fun hset => ?_, fun hclr => ?_⟩
  · rw [hw, Bool.and_eq_true, Bool.not_eq_true'] at hset
    exact hset.2
  · rw [hw, Bool.and_eq_false_iff, Bool.not_eq_false'] at hclr
    obtain hclr | hlow := hclr
    · exact Queue.atHigh_of_le hm hin hgl (hclear hclr)
    · obtain ⟨hinlow, hgllow⟩ := (atLow_iff _).1 hlow
      rw [Bool.eq_false_iff, ne_eq, atHigh_iff]
      omega

/-! ### Append -/

/-- An item that is admitted fits, entries and glyphs (R130). -/
theorem admits_fits {slot : Nat} {b : Body} (h : s.admits slot b = true) :
    s.queue.inUse + 1 ≤ 64 ∧ (b.kind = .line → s.queue.glyphsInUse + b.glyphCount ≤ 6144) := by
  have hfits := (admits_iff s slot b).1 h
  split at hfits
  · next hmark => exact ⟨hfits, fun hline => by rw [hmark.1] at hline; cases hline⟩
  · split at hfits
    · exact ⟨by omega, fun hline => hfits.2 hline⟩
    · exact ⟨by omega, fun hline => by have := hfits.2 hline; omega⟩

theorem Body.glyphCount_of_kind_ne {b : Body} (h : b.kind ≠ .line) : b.glyphCount = 0 := by
  cases b with
  | line l => exact absurd rfl h
  | _ => rfl

theorem QueueOk.append (h : QueueOk s) {slot : Nat} {b : Body} (ha : s.admits slot b = true) : QueueOk (s.appendEntry slot b) := by
  obtain ⟨-, hslots, -, helow, hehigh, hglow, hghigh, hset, hclear⟩ := h
  obtain ⟨hentry, hglyphs⟩ := admits_fits ha
  have hglyphs : s.queue.glyphsInUse + b.glyphCount ≤ 6144 := by
    by_cases hline : b.kind = .line
    · exact hglyphs hline
    · rw [Body.glyphCount_of_kind_ne hline]; exact hslots
  have hin : (s.appendEntry slot b).queue.inUse = s.queue.inUse + 1 := by
    rw [appendEntry_queue]; simp [Queue.inUse]
  have hgl : (s.appendEntry slot b).queue.glyphsInUse = s.queue.glyphsInUse + b.glyphCount := by
    rw [appendEntry_queue]; simp [Queue.glyphsInUse, State.newEntry]
  have hserial : (s.appendEntry slot b).queue.nextSerial < 65536 := by
    rw [appendEntry_queue]; exact Nat.mod_lt _ (by decide)
  have hw : (s.appendEntry slot b).queue.highWater = (s.queue.highWater ||
      decide (s.queue.entryHigh ≤ s.queue.inUse + 1 ∨ s.queue.glyphHigh ≤ s.queue.glyphsInUse + b.glyphCount)) := by
    rw [appendEntry_queue]
  simp only [QueueOk, hin, hgl, hw, Bool.eq_false_iff, ne_eq, atLow_iff, atHigh_iff, appendEntry_keeps_4, Bool.or_eq_true,
    decide_eq_true_eq] at hset hclear ⊢
  refine ⟨hentry, hglyphs, hserial, helow, hehigh, hglow, hghigh, ?_, fun hclr => (not_or.1 hclr).2⟩
  rintro (hset' | hhigh)
  · have := hset hset'; omega
  · omega

/-! ### Release, and the reports of exposure and proof done -/

theorem QueueOk.releaseIfDone (h : QueueOk s) (k : Nat) : QueueOk (s.releaseIfDone k) := by
  cases hf : s.queue.find k with
  | none => rwa [releaseIfDone_of_none hf]
  | some e =>
    cases hr : e.releasable with
    | false => rwa [releaseIfDone_of_kept hf hr]
    | true =>
      refine h.ease (Queue.counts_le_of_sublist ?_) (marks_releaseIfDone s k) (by simp) ?_
      · rw [releaseIfDone_of_releasable hf hr]; exact List.filter_sublist
      · rw [releaseIfDone_of_releasable hf hr]; rfl

theorem Entry.exposed_glyphCount (spoiled clamped : Bool) (e : Entry) :
    (e.exposed spoiled clamped).body.glyphCount = e.body.glyphCount := by
  simp only [exposed_eq]
  cases e.body <;> rfl

theorem QueueOk.exposureDone (h : QueueOk s) (k : Nat) (spoiled clamped : Bool) : QueueOk (s.exposureDone k spoiled clamped) := by
  cases hf : s.queue.find k with
  | none => rwa [exposureDone_of_none hf]
  | some e =>
    rw [exposureDone_of_some hf]
    have hreported : QueueOk (s.exposureReported e spoiled clamped) :=
      h.of_gauge (s.queue.gauge_modify e.serial _ (Entry.exposed_glyphCount spoiled clamped))
    exact hreported.releaseIfDone k

/-- A change of an entry's progress alone. -/
theorem QueueOk.modify (h : QueueOk s) (k : Nat) {f : Entry → Entry} (hf : ∀ e, (f e).body = e.body) :
    QueueOk (s.onQueue fun q => q.modify k f) :=
  h.of_gauge (s.queue.gauge_modify k f fun e => congrArg Body.glyphCount (hf e))

theorem QueueOk.proofDone (h : QueueOk s) (k : Nat) : QueueOk (s.proofDone k) := by
  simp only [State.proofDone]
  split
  · exact h
  · split
    · exact (h.modify k (f := fun e => { e with proof := .done }) fun _ => rfl).releaseIfDone k
    · exact h

theorem QueueOk.proofByteSent (h : QueueOk s) : QueueOk (proofByteSentEffect s) := by
  have hline : ∀ {u : State}, QueueOk u → QueueOk u.lineSent := fun {u} hu => by
    simp only [State.lineSent]
    split
    · exact hu
    · split
      · exact QueueOk.proofDone (s := State.onProof (u.onProof Proof.dropHead) _) hu _
      · exact hu
      · exact hu
  simp only [proofByteSentEffect]
  split
  · exact h
  · exact h
  · split
    · exact h
    · split
      · exact hline (u := State.onProof (s.onProof _) _) h
      · exact h

/-! ### The exposure's end, and the moves of the film -/

theorem QueueOk.lineDone (h : QueueOk s) (fl : Flight) : QueueOk (s.lineDone fl) :=
  (h.exposureDone fl.serial false false).of_queue (by simp [State.lineDone])

theorem QueueOk.abandon (h : QueueOk s) (fl : Flight) (cover lamp : Bool) : QueueOk (s.abandon fl cover lamp) :=
  (h.exposureDone fl.serial true false).of_queue (by simp [State.abandon])

theorem QueueOk.operationEnd (h : QueueOk s) (fl : Flight) (clamped jam : Bool) : QueueOk (s.operationEnd fl clamped jam) := by
  refine (h.exposureDone fl.serial false clamped).of_queue ?_
  simp only [State.operationEnd]
  split <;> simp

theorem QueueOk.undispatch (h : QueueOk s) (fl : Flight) : QueueOk (s.undispatch fl) :=
  (h.modify fl.serial (f := fun e => { e with expo := .waiting }) fun _ => rfl).of_queue (by simp [State.undispatch])

theorem QueueOk.leadEnd (h : QueueOk s) (fl : Flight) : QueueOk (s.leadEnd fl) := by
  simp only [State.leadEnd]
  split
  · exact h.abandon fl false false
  · exact h.of_queue (by simp)

theorem QueueOk.moveVerified (h : QueueOk s) : QueueOk s.moveVerified := by
  have hfilm : ∀ f : Film, QueueOk ((s.onFilm fun _ => f).judgeLow) := fun f => h.of_queue (by simp)
  simp only [State.moveVerified]
  split
  · split
    · exact (hfilm _).leadEnd _
    · exact hfilm _
  · split
    · exact (hfilm _).operationEnd _ _ _
    · exact hfilm _
  · have hraised : ∀ (f : Film) (b : Bool), QueueOk (((s.onFilm fun _ => f).judgeLow).raiseIf b .reverseClamped) :=
      fun f b => h.of_queue (by simp)
    split
    · exact (hraised _ _).operationEnd _ _ _
    · exact hraised _ _
  · exact hfilm _
  · exact hfilm _
  · exact h

theorem QueueOk.tellJam (h : QueueOk s) (m : Mover) : QueueOk (s.tellJam m) := by
  simp only [State.tellJam]
  split
  · exact h.undispatch _
  · exact h.operationEnd _ _ _
  · exact (h.of_queue (t := s.raiseIf _ .reverseClamped) (by simp)).operationEnd _ _ _
  · exact h.operationEnd _ _ _
  · exact h.of_queue (by simp)
  · exact h

theorem QueueOk.moveJam (h : QueueOk s) : QueueOk s.moveJam := QueueOk.tellJam (s := State.raise (s.onFilm _) _) h _

theorem QueueOk.beginMove (h : QueueOk s) (m : Mover) (target : Nat) (feed : Bool) : QueueOk (s.beginMove m target feed) := by
  have hf : QueueOk (s.onFilm fun f => { f with mover := m, target := some target, trims := 0 }) := h
  simp only [State.beginMove]
  split
  · exact hf.moveJam
  · split
    · exact hf.moveVerified
    · exact h

theorem QueueOk.driveStop (h : QueueOk s) (reading : Nat) : QueueOk (driveStopEffect reading s) := by
  have hf : QueueOk (s.onFilm fun f => { f with measured := reading }) := h
  simp only [driveStopEffect]
  split
  · split
    · exact hf.moveVerified
    · split
      · exact h
      · exact hf.moveJam
  · exact h

theorem QueueOk.filmPresentChange (h : QueueOk s) (present : Bool) : QueueOk (filmPresentChangeEffect present s) := by
  have hf : QueueOk (s.onFilm fun f => { f with present := present }) := h
  simp only [filmPresentChangeEffect]
  split
  · exact hf.moveJam
  · exact hf

theorem QueueOk.cutterHome (h : QueueOk s) : QueueOk (cutterHomeEffect s) := by
  have hcut : ∀ f : Film → Film, QueueOk (((s.onFilm f).raise .cutDone).judgeLow) := fun f => h.of_queue (by simp)
  simp only [cutterHomeEffect]
  split
  · split
    · exact (hcut _).operationEnd _ _ _
    · exact hcut _
    · exact hcut _
  · exact h

theorem QueueOk.cutterTimeout (h : QueueOk s) : QueueOk (cutterTimeoutEffect s) := by
  simp only [cutterTimeoutEffect]
  split
  · exact QueueOk.tellJam (s := State.raise (s.onFilm _) _) h _
  · exact h

theorem QueueOk.putInFlight (h : QueueOk s) (e : Entry) (gap : Option Nat) : QueueOk (s.putInFlight e gap) := by
  let u := s.onQueue fun q => q.modify e.serial fun e => { e with expo := .inFlight }
  have hu : QueueOk u := h.modify _ fun _ => rfl
  have hexpo : ∀ f : Exposure → Exposure, QueueOk (u.onExpo f) := fun _ => hu
  have hline : ∀ (f : Exposure → Exposure) (g : Turret → Turret), QueueOk ((u.onExpo f).onTurret g) := fun _ _ => hu
  simp only [State.putInFlight]
  split
  · exact (hline _ _).beginMove _ _ _
  · split
    · exact (hexpo _).beginMove _ _ _
    · exact (hexpo _).beginMove _ _ _
  · exact (hexpo _).beginMove _ _ _
  · exact hexpo _

theorem QueueOk.dispatch (h : QueueOk s) : QueueOk (dispatchEffect s) := by
  simp only [dispatchEffect]
  (repeat' split) <;> first | exact h | exact h.putInFlight _ _

/-! ### The lamp and the flashes -/

theorem QueueOk.exposureEvent (h : QueueOk s) (cover lamp : Bool) : QueueOk (s.exposureEvent cover lamp) := by
  simp only [State.exposureEvent]
  split
  case h_6 | h_7 | h_8 => exact h.abandon _ cover lamp
  all_goals exact h

theorem QueueOk.coverOpened (h : QueueOk s) : QueueOk (coverOpenedEffect s) :=
  QueueOk.exposureEvent (s := State.raise (s.onFilm _) _) h true false

theorem QueueOk.faultLamp (h : QueueOk s) (r : LampFault) : QueueOk (s.faultLamp r) :=
  QueueOk.exposureEvent (s := State.raise (s.onLamp _) _) h false true

theorem QueueOk.judgeLamp (h : QueueOk s) : QueueOk s.judgeLamp := by
  have hw : QueueOk ((s.onLamp fun l => { l with weak := l.judgeWeak }).raiseIf (!s.lamp.weak && s.lamp.judgeWeak) .lampWeak) :=
    h.of_queue (by simp)
  simp only [State.judgeLamp]
  split
  · split
    · exact hw.faultLamp _
    · exact hw
  · exact h

theorem QueueOk.lampReady (h : QueueOk s) : QueueOk s.lampReady := QueueOk.judgeLamp (s := State.onExpo (s.onLamp _) _) h

theorem QueueOk.takeSample (h : QueueOk s) (sample : Nat) : QueueOk (s.takeSample sample) := by
  have hl : ∀ f : Lamp → Lamp, QueueOk (s.onLamp f) := fun _ => h
  simp only [State.takeSample]
  split
  · exact h
  · exact h
  · split
    · exact h
    · split
      · exact (hl _).faultLamp _
      · exact h
  · split
    · exact (hl _).judgeLamp
    · split
      · exact (hl _).faultLamp _
      · exact h

theorem QueueOk.ignitionExpiry (h : QueueOk s) : QueueOk (ignitionExpiryEffect s) := by
  simp only [ignitionExpiryEffect]
  split
  · split
    · exact QueueOk.lampReady (s := State.raise (s.onLamp _) _) h
    · exact h.faultLamp _
  · exact h

theorem QueueOk.recoveryExpiry (h : QueueOk s) : QueueOk (recoveryExpiryEffect s) := by
  simp only [recoveryExpiryEffect]
  split
  · exact h.lampReady
  · exact h

theorem QueueOk.validityExpiry (h : QueueOk s) : QueueOk (validityExpiryEffect s) := by
  simp only [validityExpiryEffect]
  split
  · exact h.faultLamp _
  · exact h

theorem QueueOk.nextGlyph (h : QueueOk s) (fl : Flight) : QueueOk (s.nextGlyph fl) := by
  simp only [State.nextGlyph]
  split
  · exact h
  · split
    · exact h
    · split
      · exact h.of_queue (by simp)
      · exact h.lineDone fl

theorem QueueOk.flashComplete (h : QueueOk s) (sample : Nat) : QueueOk (flashCompleteEffect sample s) := by
  simp only [flashCompleteEffect]
  split
  · have hsampled := QueueOk.takeSample (s := s.onExpo fun x => { x with flashing := false }) h sample
    split
    · exact hsampled
    · split
      · exact hsampled.nextGlyph _
      · exact hsampled
  · exact h

theorem QueueOk.setLamp (h : QueueOk s) (w f timeout : Nat) : QueueOk (setLampEffect w f timeout s).1 := by
  simp only [setLampEffect]
  split
  · exact h
  · exact QueueOk.judgeLamp (s := s.onLamp _) h

theorem QueueOk.feedAndCut (h : QueueOk s) : QueueOk (feedAndCutEffect s).1 := by
  simp only [feedAndCutEffect]
  (repeat' split) <;> try exact h
  exact h.beginMove _ _ _

/-! ### The items offered -/

theorem QueueOk.offer (h : QueueOk s) (slot : Nat) (b : Body) : QueueOk (s.offer slot b) := by
  cases ha : s.admits slot b with
  | true => rw [offer_admitted ha]; exact (h.append ha).of_queue (by simp)
  | false => rw [offer_held ha]; exact h.of_queue (by simp)

theorem QueueOk.setLineWith (h : QueueOk s) (slot : Nat) (p : LineParams) (kept : List Glyph) (flags : List LineFlag) (last : Bool)
    (carry : Option Word) : QueueOk (s.setLineWith slot p kept flags last carry) := by
  rw [setLineWith_offer]
  exact QueueOk.offer (s := s.onLine slot _) h slot _

theorem QueueOk.breakAndSet (h : QueueOk s) (slot : Nat) : QueueOk (s.breakAndSet slot) := by
  simp only [State.breakAndSet]
  split
  · exact (h.of_queue (by simp)).setLineWith _ _ _ _ _ _
  · exact h

theorem QueueOk.carryEnding (h : QueueOk s) (slot : Nat) : QueueOk (s.carryEnding slot) := by
  simp only [State.carryEnding]
  split
  · split
    · exact h
    · split
      · exact h
      · exact h.setLineWith _ _ _ _ _ _
  · split
    · exact h.of_queue (by simp)
    · exact QueueOk.offer (s := State.onJob (s.onLine slot _) slot _) h slot _
  · exact h

theorem QueueOk.placeWord (h : QueueOk s) : QueueOk (placeWordEffect s) := by
  simp only [placeWordEffect]
  split
  · exact h
  · split
    · exact h.of_queue (by simp)
    · exact (h.of_queue (by simp)).breakAndSet _
    · exact h.of_queue (by simp)
    · exact h.of_queue (by simp)

theorem QueueOk.setLine (h : QueueOk s) : QueueOk (setLineEffect s) := by
  simp only [setLineEffect]
  split
  · split
    · exact (h.of_queue (by simp)).breakAndSet _
    · exact h
  · exact h.carryEnding _
  · exact h

theorem QueueOk.offerWaiting (h : QueueOk s) (ht : s.offerWaiting = some t) : QueueOk t := by
  obtain ⟨slot, -, ht⟩ := List.exists_of_findSome?_eq_some ht
  split at ht
  · cases ht
  · split at ht
    · next ha =>
      split at ht <;> cases ht
      · exact h.append ha
      · exact (h.append ha).of_queue (by simp)
    · cases ht

theorem QueueOk.offerMark (h : QueueOk s) (slot : Nat) : QueueOk (s.offerMark slot) := by
  simp only [State.offerMark]
  split
  · next ha => exact h.append (Bool.and_eq_true _ _ ▸ ha).2
  · exact h

/-! ### The entries cancelled, and the marks replaced -/

theorem QueueOk.beforeMark (h : QueueOk s) (slot : Nat) : QueueOk (s.beforeMark slot) := by
  refine h.ease (Queue.counts_le_of_sublist (beforeMark_entries s slot ▸ List.filter_sublist)) ?_ ?_ ?_
  all_goals rw [State.beforeMark, leaveTurn_eq]
  · simp [State.abandoned, Queue.marks]
  · simp [State.abandoned]
  · simp [State.abandoned, State.testLow, Queue.atLow, Queue.inUse, Queue.glyphsInUse]

theorem QueueOk.abortJob (h : QueueOk s) (slot id : Nat) : QueueOk (abortJobEffect slot id s).1 := by
  obtain hsame | ⟨-, haborted⟩ := abortJob_cases slot id s
  · rw [hsame]; exact h
  · rw [haborted]; exact (h.beforeMark slot).offerMark slot

/-- Every entry but those in flight leaves, and the low marks are tested (R140). -/
theorem QueueOk.clearQueue (h : QueueOk s) : QueueOk s.clearQueue := by
  let u := (s.queue.entries.filter fun e => e.expo != .inFlight).foldl State.removeEntry s
  have hgauge := u.queue.gauge_map (fun e => { e with attributed := false }) fun _ => rfl
  have hle := Queue.counts_le_of_sublist (q := s.queue) (q' := u.queue) (removeAll_entries _ s ▸ List.filter_sublist)
  simp only [Queue.gauge, Prod.mk.injEq] at hgauge
  obtain ⟨hin, hgl, -, -, -⟩ := hgauge
  have hu : u.queue.marks = s.queue.marks ∧ u.queue.nextSerial = s.queue.nextSerial ∧
      u.queue.highWater = s.queue.highWater := by
    simp [u, Queue.marks]
  obtain ⟨hmarks, hserial, hwater⟩ := hu
  refine h.ease ⟨hin.trans_le hle.1, hgl.trans_le hle.2⟩ hmarks hserial ?_
  rw [← hwater]
  rfl

theorem QueueOk.resetComposition (h : QueueOk s) : QueueOk (resetCompositionEffect s).1 := by
  have hcleared : QueueOk s.cleared := QueueOk.clearQueue (h.of_queue (by simp))
  rw [resetComposition_eq]
  refine hcleared.of_gauge (s.cleared.queue.gauge_map _ fun e => ?_)
  simp only [Entry.withdrawn]
  split <;> rfl

/-- A count at a high mark is above its low mark. -/
theorem Queue.not_atLow_of_atHigh {q : Queue} (h : q.atHigh = true) (he : q.entryLow < q.entryHigh)
    (hg : q.glyphLow < q.glyphHigh) : q.atLow = false := by
  rw [Bool.eq_false_iff, ne_eq, atLow_iff]
  rw [atHigh_iff] at h
  omega

/-- The condition, tested at marks that lie in their ranges (R141). -/
theorem QueueOk.setQueueMarks (h : QueueOk s) (eh el gh gl : Nat) : QueueOk (setQueueMarksEffect eh el gh gl s).1 := by
  by_cases hrange : el < eh ∧ eh ≤ 64 ∧ gl < gh ∧ gh ≤ 6144
  swap
  · rw [setQueueMarks_range hrange]; exact h
  obtain ⟨hel, heh, hgl, hgh⟩ := hrange
  obtain ⟨hroom, hslots, hserial, -, -, -, -, -, -⟩ := h
  rw [setQueueMarks_done hel heh hgl hgh]
  dsimp only [done]
  split
  · next hhigh =>
    simp only [QueueOk, testHigh_queue]
    refine ⟨hroom, hslots, hserial, hel, heh, hgl, hgh, fun _ => Queue.not_atLow_of_atHigh hhigh hel hgl, fun hclr => ?_⟩
    rw [Bool.or_eq_false_iff] at hclr
    exact hclr.2
  · next hhigh =>
    refine ⟨hroom, hslots, hserial, hel, heh, hgl, hgh, fun hset => ?_, fun _ => Bool.eq_false_iff.2 hhigh⟩
    exact Bool.not_eq_true' _ ▸ (Bool.and_eq_true _ _ ▸ hset).2

/-! ### The closing part of a step -/

theorem QueueOk.takeEntry (h : QueueOk s) (e : Entry) : QueueOk (s.takeEntry e) :=
  QueueOk.modify (s := s.onProof _) h _ fun _ => rfl

theorem QueueOk.react (h : QueueOk s) (ht : s.react = some t) : QueueOk t := by
  simp only [State.react] at ht
  rcases orElse_cases ht with ht | ht
  · exact h.of_queue (by simp [reactFree_keeps ht])
  rcases orElse_cases ht with ht | ht
  · exact h.of_queue (by simp [reactHeads_keeps ht])
  rcases orElse_cases ht with ht | ht
  · exact h.offerWaiting ht
  rcases orElse_cases ht with ht | ht
  · exact h.of_queue (by simp [chooseTurn_keeps ht])
  rcases orElse_cases ht with ht | ht
  · simp only [State.reactProof] at ht
    split at ht
    · obtain ⟨e, -, rfl⟩ := Option.map_eq_some_iff.1 ht
      exact h.takeEntry e
    · cases ht
  rcases orElse_cases ht with ht | ht
  · exact h.of_queue (by simp [reactLamp_keeps ht])
  rcases orElse_cases ht with ht | ht
  · exact h.of_queue (by simp [reactRun_keeps ht])
  rcases orElse_cases ht with ht | ht
  · exact h.of_queue (by simp [reactExchange_keeps ht])
  · exact h.of_queue (by simp [reactSend_keeps ht])

theorem QueueOk.judgeEconomy (h : QueueOk s) (before : State) : QueueOk (before.judgeEconomy s) := by
  simp only [State.judgeEconomy]
  split
  · exact h
  · split
    · exact QueueOk.judgeLamp (s := s.onLamp _) h
    · exact h
  · exact h

theorem QueueOk.settle (h : QueueOk s) (before : State) : QueueOk (settle before s) := by
  have hreact := reactAll_invariant (P := QueueOk) (fun hr hu => hu.react hr) 100 h
  exact hreact.judgeEconomy before

theorem QueueOk.event (h : QueueOk s) {i : Instr} {f : State → State} (hv : eventOf i = some f) : QueueOk (f s) := by
  have hsame : ∀ {g : State → State}, (g s).queue = s.queue → QueueOk (settledEvent g s) := fun hq => (h.of_queue hq).settle s
  cases i with
  | powerOnReset r => cases hv; exact (freshState_powerOnReset r s).queueOk
  | placeWord => cases hv; exact h.placeWord.settle s
  | setLine => cases hv; exact h.setLine.settle s
  | dispatch => cases hv; exact h.dispatch.settle s
  | flashComplete sample => cases hv; exact (h.flashComplete sample).settle s
  | photocellSample sample => cases hv; exact (h.takeSample sample).settle s
  | ignitionTimerExpiry => cases hv; exact h.ignitionExpiry.settle s
  | recoveryTimerExpiry => cases hv; exact h.recoveryExpiry.settle s
  | validityTimerExpiry => cases hv; exact h.validityExpiry.settle s
  | driveStop reading => cases hv; exact (h.driveStop reading).settle s
  | filmPresentChange present => cases hv; exact (h.filmPresentChange present).settle s
  | cutterHome => cases hv; exact h.cutterHome.settle s
  | cutterTimeout => cases hv; exact h.cutterTimeout.settle s
  | coverOpened => cases hv; exact h.coverOpened.settle s
  | proofByteSent => cases hv; exact h.proofByteSent.settle s
  | indexFound | hatchOpened | carriageArrival | coverClosed | discardQuietTimeout | attnThrottleExpiry | lineExposedDelayExpiry
  | lineExposedAbsoluteExpiry | xoffReceived | xonReceived | stallTimerExpiry | paperOut | paperPresent =>
    cases hv; exact h.of_queue (by simp)
  | _ => cases hv <;> exact hsame (by simp)

theorem QueueOk.request (h : QueueOk s) {i : Instr} {tag : Byte} {e : Effect} (he : effectOf i = some (tag, e)) :
    QueueOk (e s).1 := by
  have hsame : ∀ {g : Effect}, (g s).1.queue = s.queue → QueueOk (settled g s).1 := fun hq => (h.of_queue hq).settle s
  cases i with
  | resetComposition tag => cases he; exact h.resetComposition.settle s
  | abortJob tag slot id => cases he; exact (h.abortJob slot id).settle s
  | setQueueMarks tag eh el gh gl => cases he; exact (h.setQueueMarks eh el gh gl).settle s
  | setLamp tag w f t => cases he; exact (h.setLamp w f t).settle s
  | feedAndCut tag => cases he; exact h.feedAndCut.settle s
  | setProof tag enable rate =>
    cases he
    have hset : QueueOk (setProofEffect enable rate s).1 := h.of_queue (by simp)
    exact hset.settle s
  | defineFont | prepareExchange | cancelExchange | openJob | sendText | closeJob | holdExposure | releaseExposure | lampOff
  | loadFilm => cases he; exact hsame (by simp)
  | _ => cases he <;> exact h.of_queue (by simp)

theorem queueOk_kept : Kept QueueOk where
  link h _ := h
  request h he := h.request he
  event h hv := h.event hv

end

/-- Settles O55: the queue's capacities and its high-water condition are kept by every request's effect, by every event and by what
the link does. -/
theorem everyCommandKeepsTheQueue : Obligations.EveryCommandKeepsTheQueue := by
  unfold Obligations.EveryCommandKeepsTheQueue
  exact fun _ _ _ h hx => queueOk_kept.exec h hx

end Sys2Proof.Machine
end

section
/-! O41: DISPATCH (R135, R144 to R147, R153, R165 to R168, R170 to R172, R175). -/

namespace Sys2Proof.Machine

open Sys2Proof

section
variable {s u : State} {e : Entry} {gap : Option Nat} {fl : Flight}

/-! ### A film move begun -/

/-- The state in which a move to a target is asked of the film transport (R165). -/
def State.moveAsked (s : State) (m : Mover) (target : Nat) : State :=
  { s with film := { s.film with mover := m, target := some target, trims := 0 } }

theorem beginMove_moves {m : Mover} {target : Nat} (feed : Bool) (hp : s.film.present = true) (ht : target ≠ s.film.baseline) :
    s.beginMove m target feed = { s.moveAsked m target with
      film := { (s.moveAsked m target).film with state := if feed then .feeding else .moving } } := by
  simp [State.beginMove, State.onFilm, State.moveAsked, hp, ht]

/-- A move that needs no motion is verified at once. -/
theorem beginMove_verified {m : Mover} {target : Nat} (feed : Bool) (hp : s.film.present = true)
    (ht : target = s.film.baseline) : s.beginMove m target feed = (s.moveAsked m target).moveVerified := by
  simp [State.beginMove, State.onFilm, State.moveAsked, hp, ht]

theorem beginMove_absent {m : Mover} {target : Nat} (feed : Bool) (hp : s.film.present = false) :
    s.beginMove m target feed = (s.moveAsked m target).moveJam := by
  simp [State.beginMove, State.onFilm, State.moveAsked, hp]

/-! ### A move that ends in a jam -/

/-- The state in which the block that asked for the move is told of the jam (R166). -/
def State.jamRaised (s : State) : State := (s.onFilm Film.jam).raise .filmJam

theorem jamRaised_holds (s : State) : s.jamRaised.link.holds .filmJam = true := raise_holds_self _ _

/-- The work ended jammed: the film stays, the controller is STOPPED for JAM and for what the flight recorded (R153, R154). -/
structure StoppedForJam (u : State) (fl : Flight) (t : State) : Prop where
  film : t.film = u.film
  state : t.expo.state = .stopped
  stops : t.expo.stops = { cover := fl.coverSeen, lamp := fl.lampSeen, filmOut := false, jam := true }
  flight : t.expo.flight = none
  holds : u.link.holds .filmJam = true → t.link.holds .filmJam = true

theorem stoppedEnd_stoppedForJam (h : u.expo.state ≠ .stopped) : StoppedForJam u fl (u.stoppedEnd fl false false true) := by
  constructor <;> simp [State.stoppedEnd, State.onExpo, Exposure.stop, h, Stops.none]

theorem StoppedForJam.of_before {v t : State} (h : StoppedForJam v fl t) (hf : v.film = u.film)
    (hl : u.link.holds .filmJam = true → v.link.holds .filmJam = true) : StoppedForJam u fl t :=
  { h with film := h.film.trans hf, holds := fun hu => h.holds (hl hu) }

/-- A lead: the entry returns to WAITING (R147). -/
theorem undispatch_stoppedForJam (h : u.expo.state ≠ .stopped) : StoppedForJam u fl (u.undispatch fl) :=
  (stoppedEnd_stoppedForJam (u := State.onTurret (u.onQueue _) _) h).of_before rfl id

theorem undispatch_waiting : ∀ x ∈ (u.undispatch fl).queue.entries, x.serial = fl.serial → x.expo = .waiting := by
  intro x hx hserial
  obtain ⟨x₀, -, rfl⟩ := List.mem_map.1 hx
  split at hserial
  · next hsame => rw [if_pos hsame]
  · next hother => exact absurd hserial (by simpa using hother)

/-- A film operation: the entry is reported done (R153). -/
theorem operationEnd_stoppedForJam (h : u.expo.state ≠ .stopped) (clamped : Bool) :
    StoppedForJam u fl (u.operationEnd fl clamped true) :=
  (stoppedEnd_stoppedForJam (u := u.exposureDone fl.serial false clamped) (by simpa using h)).of_before (by simp)
    (by simp)

theorem operationEnd_done {clamped jam : Bool} : ∀ x ∈ (u.operationEnd fl clamped jam).queue.entries, x.serial = fl.serial →
    x.expo = .done ∧ ∀ d c, x.body = .move d c → c = clamped := by
  intro x hx hserial
  have hmem : x ∈ (u.exposureDone fl.serial false clamped).queue.entries := by
    simp only [State.operationEnd] at hx
    split at hx <;> simpa using hx
  obtain ⟨x₀, rfl⟩ := exposureDone_exposed hmem hserial
  refine ⟨rfl, fun d c hb => ?_⟩
  rw [exposed_eq] at hb
  cases hx₀ : x₀.body <;> simp_all

theorem moveJam_eq (hfl : u.expo.flight = some fl) :
    u.moveJam = match u.film.mover with
      | .lead _ => u.jamRaised.undispatch fl
      | .forward _ => u.jamRaised.operationEnd fl false true
      | .reverse clamped => (u.jamRaised.raiseIf clamped .reverseClamped).operationEnd fl clamped true
      | .cutEntry => u.jamRaised.operationEnd fl false true
      | .hostCut _ => u.jamRaised.hostJam
      | .none => u.jamRaised := by
  have hraised : u.jamRaised.expo.flight = some fl := hfl
  have htell : u.moveJam = u.jamRaised.tellJam u.film.mover := rfl
  rw [htell]
  cases u.film.mover <;> simp only [State.tellJam, hraised]

/-- A lead begun with the film ABSENT (R147, R166). -/
theorem lead_jams (hfl : u.expo.flight = some fl) (hst : u.expo.state ≠ .stopped) (hm : u.film.mover = .lead gap) :
    StoppedForJam u.jamRaised fl u.moveJam ∧ ∀ x ∈ u.moveJam.queue.entries, x.serial = fl.serial → x.expo = .waiting := by
  have hjam : u.moveJam = u.jamRaised.undispatch fl := by rw [moveJam_eq hfl, hm]
  rw [hjam]
  exact ⟨undispatch_stoppedForJam hst, undispatch_waiting⟩

/-- The mover of a film operation of an entry: what of a MOVE it reports clamped (R171). -/
def Mover.clampOf : Mover → Option Bool
  | .forward _ | .cutEntry => some false
  | .reverse clamped => some clamped
  | _ => Option.none

/-- A MOVE or CUT begun with the film ABSENT (R153, R166). -/
theorem operation_jams {clamped : Bool} (hfl : u.expo.flight = some fl) (hst : u.expo.state ≠ .stopped)
    (hm : u.film.mover.clampOf = some clamped) :
    StoppedForJam u.jamRaised fl u.moveJam ∧ ∀ x ∈ u.moveJam.queue.entries, x.serial = fl.serial →
      x.expo = .done ∧ ∀ d c, x.body = .move d c → c = clamped := by
  have hends : ∃ v : State, v.film = u.jamRaised.film ∧ v.expo = u.expo ∧
      (u.jamRaised.link.holds .filmJam = true → v.link.holds .filmJam = true) ∧ u.moveJam = v.operationEnd fl clamped true := by
    rw [moveJam_eq hfl]
    cases hmover : u.film.mover <;> simp only [hmover, Mover.clampOf, Option.some.injEq, reduceCtorEq] at hm <;> subst hm
    case forward => exact ⟨_, rfl, rfl, id, rfl⟩
    case reverse clamped =>
      refine ⟨_, by simp, by simp [State.jamRaised], fun h => ?_, rfl⟩
      cases clamped
      · exact h
      · exact raise_holds h _
    case cutEntry => exact ⟨_, rfl, rfl, id, rfl⟩
  obtain ⟨v, hfilm, hexpo, hholds, hjam⟩ := hends
  rw [hjam]
  exact ⟨(operationEnd_stoppedForJam (by rwa [hexpo]) clamped).of_before hfilm hholds, operationEnd_done⟩

/-! ### An entry put in flight -/

/-- The flight of an entry as it is dispatched (R143, R145). -/
def Entry.flight (e : Entry) : Flight :=
  { serial := e.serial, kind := e.body.kind, attributed := e.attributed, run := 0, glyph := 0, leadDone := false
    selecting := false, coverSeen := false, lampSeen := false }

/-- The state in which an entry is in flight and its film work not yet asked for (R145). -/
def State.withFlight (s : State) (e : Entry) : State :=
  { s with
    queue := { s.queue with
      entries := s.queue.entries.map fun x => if x.serial = e.serial then { x with expo := .inFlight } else x }
    expo := { s.expo with state := if e.body.kind = .line then .leading else .filmOperation, flight := some e.flight } }

theorem withFlight_eq (s : State) (e : Entry) :
    ((s.onQueue fun q => q.modify e.serial fun e => { e with expo := .inFlight }).onExpo fun x =>
      { x with flight := some e.flight, state := if e.flight.kind == .line then .leading else .filmOperation }) =
      s.withFlight e := by
  simp [State.onQueue, State.onExpo, State.withFlight, Queue.modify, Entry.flight]

theorem withFlight_state (s : State) (e : Entry) : (s.withFlight e).expo.state ≠ .stopped := by
  simp only [State.withFlight]
  split <;> decide

/-- The line of the entry in flight is open at the turret, and a line end still due there is taken back (log entry 18). -/
def State.withLineOpen (s : State) (e : Entry) : State :=
  (s.withFlight e).onTurret fun t => { t with lineOpen := true, lineEndDue := false }

/-- The film work of an entry put in flight (R147, R153). -/
theorem putInFlight_eq (s : State) (e : Entry) (gap : Option Nat) :
    s.putInFlight e gap = match e.body with
      | .line b => (s.withLineOpen e).beginMove (.lead gap) (s.film.leadTarget gap b.depth) false
      | .move d _ =>
        if d < 0 then
          (s.withFlight e).beginMove (.reverse (s.film.reverseMove d.natAbs < d.natAbs))
            (s.film.baseline - s.film.reverseMove d.natAbs) false
        else (s.withFlight e).beginMove (.forward gap) (s.film.leadTarget gap d.natAbs) false
      | .cut => (s.withFlight e).beginMove .cutEntry s.film.cutTarget true
      | .mark => s.withFlight e := by
  rw [State.withLineOpen, ← withFlight_eq]
  rfl

/-! ### The dispatch -/

/-- The occasion of an entry's dispatch (R145). -/
structure Occasion (s : State) (e : Entry) : Prop where
  named : s.expo.named.bind s.queue.find = some e
  state : s.expo.state = .idle ∨ s.expo.state = .waitingLamp
  film : s.film.state = .atRest
  waiting : e.expo = .waiting
  lamp : e.body.kind = .line → s.lamp.state = .ready

theorem dispatch_of_none (h : s.expo.named.bind s.queue.find = none) : dispatchEffect s = s := by
  simp only [dispatchEffect, h]

theorem dispatch_no_occasion (hn : s.expo.named.bind s.queue.find = some e)
    (h : (s.expo.state ≠ .idle ∧ s.expo.state ≠ .waitingLamp) ∨ s.film.state ≠ .atRest ∨ e.expo ≠ .waiting ∨
      (e.body.kind = .line ∧ s.lamp.state ≠ .ready)) : dispatchEffect s = s := by
  simp only [dispatchEffect, hn]
  refine if_neg fun hocc => ?_
  simp only [Bool.and_eq_true, Bool.or_eq_true, beq_iff_eq, bne_iff_ne] at hocc
  tauto

/-- The galley gap that is taken before an entry's lead or move (R168). -/
def State.gapFor (s : State) (e : Entry) : Option Nat := if s.film.gapDue e then some s.galleyGap else none

theorem Occasion.dispatch (h : Occasion s e) :
    dispatchEffect s = match e.body.testDistance with
      | none => s.putInFlight e none
      | some d =>
        if s.film.filmOut (s.film.leadTarget (s.gapFor e) d) then (s.onExpo fun x => x.stop false false true false).raise .filmOut
        else s.putInFlight e (s.gapFor e) := by
  obtain ⟨hnamed, hstate, hfilm, hwaiting, hlamp⟩ := h
  simp only [dispatchEffect, hnamed]
  refine if_pos ?_
  simp only [Bool.and_eq_true, Bool.or_eq_true, beq_iff_eq, bne_iff_ne]
  exact ⟨⟨⟨hstate, hfilm⟩, hwaiting⟩, by tauto⟩

theorem gapDue_iff (f : Film) (e : Entry) :
    f.gapDue e = true ↔ e.attributed = true ∧ f.owner ≠ .none ∧ f.owner ≠ .job e.slot e.jobId := by
  simp [Film.gapDue, Film.ownedBy, and_assoc]

theorem filmOut_iff (f : Film) (target : Nat) : f.filmOut target = true ↔ f.loaded < target + 900 := by
  simp [Film.filmOut, Config.cutReserve]

/-- The state in which the film-out test has stopped the controller (R146). -/
theorem Occasion.filmOut (h : Occasion s e) {d : Nat} (hd : e.body.testDistance = some d)
    (hout : s.film.loaded < s.film.leadTarget (s.gapFor e) d + 900) :
    dispatchEffect s = (({ s with expo := { s.expo with
      state := .stopped
      stops := { cover := false, lamp := false, filmOut := true, jam := false } } } : State).raise .filmOut) := by
  have hnot : s.expo.state ≠ .stopped := by rcases h.state with hst | hst <;> simp [hst]
  rw [h.dispatch, hd]
  simp [(filmOut_iff _ _).2 hout, State.onExpo, Exposure.stop, hnot, Stops.none]

theorem Occasion.inFlight (h : Occasion s e) {d : Nat} (hd : e.body.testDistance = some d)
    (hroom : s.film.leadTarget (s.gapFor e) d + 900 ≤ s.film.loaded) :
    dispatchEffect s = s.putInFlight e (s.gapFor e) := by
  rw [h.dispatch, hd]
  exact if_neg (mt (filmOut_iff _ _).1 (by omega))

/-- A LINE or forward MOVE, for which the film-out test is made: it stops the controller, or the entry is put in flight, and its
move is begun or needs no motion (R146, R165). -/
theorem Occasion.tested {v : State} {m : Mover} {d target : Nat} (h : Occasion s e) (hd : e.body.testDistance = some d)
    (hgap : s.gapFor e = gap) (ht : s.film.leadTarget gap d = target)
    (hput : s.putInFlight e gap = v.beginMove m target false) (hfilm : v.film = s.film) (hu : v.moveAsked m target = u) :
    (s.film.loaded < target + 900 → dispatchEffect s = (({ s with expo := { s.expo with
      state := .stopped
      stops := { cover := false, lamp := false, filmOut := true, jam := false } } } : State).raise .filmOut)) ∧
    (target + 900 ≤ s.film.loaded → dispatchEffect s = s.putInFlight e gap) ∧
    (s.film.present = true → target ≠ s.film.baseline →
      s.putInFlight e gap = { u with film := { u.film with state := .moving } }) ∧
    (s.film.present = true → target = s.film.baseline → s.putInFlight e gap = u.moveVerified) := by
  subst hgap ht hu
  refine ⟨h.filmOut hd, h.inFlight hd, fun hp hne => ?_, fun hp heq => ?_⟩
  all_goals rw [hput]
  · exact beginMove_moves false (by rwa [hfilm]) (by rwa [hfilm])
  · exact beginMove_verified false (by rwa [hfilm]) (by rwa [hfilm])

theorem Occasion.untested (h : Occasion s e) (hd : e.body.testDistance = none) : dispatchEffect s = s.putInFlight e none := by
  rw [h.dispatch, hd]

/-- A MOVE or CUT put in flight with the film ABSENT: its work ends jammed (R153, R166). -/
theorem putInFlight_jams (s : State) {e : Entry} (gap : Option Nat) (hk : e.body.kind = .move ∨ e.body.kind = .cut)
    (hp : s.film.present = false) :
    let t := s.putInFlight e gap
    (t.film.state = .jammed ∧ t.film.owner = s.film.owner ∧ t.film.origin = s.film.origin) ∧
    (t.expo.state = .stopped ∧ t.expo.stops = { cover := false, lamp := false, filmOut := false, jam := true } ∧
      t.expo.flight = none) ∧
    t.link.holds .filmJam = true ∧
    ∀ x ∈ t.queue.entries, x.serial = e.serial → x.expo = .done ∧
      ((∀ d c, e.body = .move d c → 0 ≤ d) → ∀ d c, x.body = .move d c → c = false) := by
  intro t
  have hwork : ∃ m target clamped, m.clampOf = some clamped ∧ t = ((s.withFlight e).moveAsked m target).moveJam ∧
      ((∀ d c, e.body = .move d c → 0 ≤ d) → clamped = false) := by
    simp only [t, putInFlight_eq]
    cases hb : e.body with
    | line | mark => simp [hb, Body.kind] at hk
    | move d c =>
      by_cases hd : d < 0
      · simp only [hd, if_true, beginMove_absent (s := s.withFlight e) false hp]
        exact ⟨_, _, _, rfl, rfl, fun h => absurd (h d c rfl) (by omega)⟩
      · simp only [hd, if_false, beginMove_absent (s := s.withFlight e) false hp]
        exact ⟨_, _, _, rfl, rfl, fun _ => rfl⟩
    | cut =>
      simp only [beginMove_absent (s := s.withFlight e) true hp]
      exact ⟨_, _, _, rfl, rfl, fun _ => rfl⟩
  obtain ⟨m, target, clamped, hm, ht, hclamped⟩ := hwork
  obtain ⟨⟨hfilm, hstate, hstops, hflight, hholds⟩, hdone⟩ :=
    operation_jams (u := (s.withFlight e).moveAsked m target) (fl := e.flight) rfl (withFlight_state s e) hm
  rw [ht]
  refine ⟨by rw [hfilm]; exact ⟨rfl, rfl, rfl⟩, ⟨hstate, hstops, hflight⟩, hholds (jamRaised_holds _),
    fun x hx hserial => ?_⟩
  obtain ⟨hexpo, hbody⟩ := hdone x hx hserial
  exact ⟨hexpo, fun hd d c hb => (hbody d c hb).trans (hclamped hd)⟩

end

/-- Settles O41: the occasion is judged, then the film-out test, and the work asked of the film moves, needs no motion or jams. -/
theorem dispatchPutsTheNamedEntryInFlight : Obligations.DispatchPutsTheNamedEntryInFlight := by
  unfold Obligations.DispatchPutsTheNamedEntryInFlight
  intro s
  have hexec : exec .dispatch s = .next (settle s (dispatchEffect s)) := rfl
  rw [hexec]
  refine ⟨fun h => by rw [dispatch_of_none h], fun e hn => ⟨fun h => by rw [dispatch_no_occasion hn h], ?_⟩⟩
  intro hst hrest hwait due gap target filmOut flight queue
  have hgap : s.gapFor e = gap := if_congr (gapDue_iff _ _) rfl rfl
  have htarget : ∀ d, s.film.leadTarget gap d = target d := fun d => by
    by_cases hd : due <;> simp [gap, target, hd, Film.leadTarget]
  have hocc : (e.body.kind = .line → s.lamp.state = .ready) → Occasion s e := fun hl => ⟨hn, hst, hrest, hwait, hl⟩
  refine ⟨fun b hb hlamp => ?_, fun d c hb => ?_, fun d c hb hd => ?_, fun hb hp => ?_, fun hk hp hd => ?_⟩
  · intro u
    have ho := hocc fun _ => hlamp
    have hdist : e.body.testDistance = some b.depth := by rw [hb]; rfl
    have hput : s.putInFlight e gap = (s.withLineOpen e).beginMove (.lead gap) (target b.depth) false := by
      simp only [putInFlight_eq, hb, htarget]
    have hu : (s.withLineOpen e).moveAsked (.lead gap) (target b.depth) = u := by
      simp [State.withLineOpen, State.withFlight, hb, Body.kind, u, State.moveAsked, State.onTurret, queue, flight, Entry.flight]
    obtain ⟨hout, hflies, hmoves, hverified⟩ := ho.tested hdist hgap (htarget _) hput rfl hu
    refine ⟨fun h => by rw [hout h], fun hroom hp hne => by rw [hflies hroom, hmoves hp hne],
      fun hroom hp heq => by rw [hflies hroom, hverified hp heq], fun hroom hp => ⟨u.moveJam, ?_, ?_⟩⟩
    · rw [hflies hroom, hput, beginMove_absent (s := s.withLineOpen e) false hp, hu]
    · obtain ⟨⟨hfilm, hstate, hstops, hflight, hholds⟩, hentries⟩ :=
        lead_jams (u := u) (fl := flight) (gap := gap) rfl (by simp [u]) rfl
      exact ⟨by rw [hfilm]; rfl, hstate, by rw [hstops], hflight, hholds (jamRaised_holds _), hentries⟩
  · intro u
    have ho := hocc fun hl => by rw [hb] at hl; cases hl
    obtain h0 | hd := Nat.eq_zero_or_pos d
    · exact ⟨fun h => absurd h0 h.ne', fun h => absurd h0 h.ne', fun h => absurd h0 h.ne', fun h => absurd h0 h.ne'⟩
    have hdist : e.body.testDistance = some d := by simp [hb, Body.testDistance, hd]
    have hput : s.putInFlight e gap = (s.withFlight e).beginMove (.forward gap) (target d) false := by
      simp [putInFlight_eq, hb, htarget]
    have hu : (s.withFlight e).moveAsked (.forward gap) (target d) = u := by
      simp [State.withFlight, hb, Body.kind, u, State.moveAsked, queue, flight, Entry.flight]
    obtain ⟨hout, hflies, hmoves, hverified⟩ := ho.tested hdist hgap (htarget _) hput rfl hu
    refine ⟨fun _ h => by rw [hout h], fun _ hroom hp hne => by rw [hflies hroom, hmoves hp hne],
      fun _ hroom hp heq => by rw [hflies hroom, hverified hp heq],
      fun _ hroom hp => ⟨s.putInFlight e gap, by rw [hflies hroom], ?_⟩⟩
    obtain ⟨⟨hfilm, howner, horigin⟩, ⟨hstate, hstops, hflight⟩, hholds, hentries⟩ :=
      putInFlight_jams s gap (.inl (by rw [hb]; rfl)) hp
    refine ⟨hfilm, howner, horigin, hstate, hstops, hflight, hholds, fun x hx hserial => ?_⟩
    obtain ⟨hdone, hbody⟩ := hentries x hx hserial
    refine ⟨hdone, hbody fun d' c' hb' => ?_⟩
    rw [hb] at hb'
    cases hb'
    exact Int.natCast_nonneg d
  · intro made u hp
    have ho := hocc fun hl => by rw [hb] at hl; cases hl
    have hdist : e.body.testDistance = none := by simp [hb, Body.testDistance, hd.le]
    have hput : s.putInFlight e none =
        (s.withFlight e).beginMove (.reverse (made < d.natAbs)) (s.film.baseline - made) false := by
      simp only [putInFlight_eq, hb, hd, if_true]
      rfl
    have hu : (s.withFlight e).moveAsked (.reverse (made < d.natAbs)) (s.film.baseline - made) = u := by
      simp [State.withFlight, hb, Body.kind, u, State.moveAsked, queue, flight, Entry.flight]
    have hless : 0 < made → s.film.baseline - made ≠ s.film.baseline := by omega
    refine ⟨fun hmade => ?_, fun hmade => ?_⟩
    · rw [ho.untested hdist, hput, beginMove_moves (s := s.withFlight e) false hp (hless hmade), hu]
      rfl
    · rw [ho.untested hdist, hput, beginMove_verified (s := s.withFlight e) false hp (by rw [hmade]; rfl), hu]
  · intro feed u
    have ho := hocc fun hl => by rw [hb] at hl; cases hl
    have hdist : e.body.testDistance = none := by rw [hb]; rfl
    have hput : s.putInFlight e none = (s.withFlight e).beginMove .cutEntry feed true := by
      simp only [putInFlight_eq, hb]
      rfl
    have hu : (s.withFlight e).moveAsked .cutEntry feed = u := by
      simp [State.withFlight, hb, Body.kind, u, State.moveAsked, queue, flight, Entry.flight]
    refine ⟨fun hne => ?_, fun heq => ?_⟩
    · rw [ho.untested hdist, hput, beginMove_moves (s := s.withFlight e) true hp hne, hu]
      rfl
    · rw [ho.untested hdist, hput, beginMove_verified (s := s.withFlight e) true hp heq, hu]
  · refine ⟨_, rfl, ?_⟩
    have ho := hocc fun hl => by rw [hl] at hk; simp at hk
    rw [ho.untested hd]
    obtain ⟨⟨hfilm, -, -⟩, ⟨hstate, hstops, hflight⟩, hholds, hentries⟩ := putInFlight_jams s none hk hp
    exact ⟨hfilm, hstate, by rw [hstops], hflight, hholds, fun x hx hserial => (hentries x hx hserial).1⟩

end Sys2Proof.Machine
end

section
/-! O49: SET PROOF, the bytes of a printed line, and the taking of an entry for proof (R180 to R188, R191). -/

namespace Sys2Proof.Machine

open Sys2Proof

section
variable {s t : State}

/-! ### The printer rate is SET PROOF's alone (R191) -/

theorem spoilNote_rate (p : Proof) (n id : Nat) : (p.spoilNote n id).rate = p.rate := by
  simp only [Proof.spoilNote, Proof.follow]
  split_ifs <;> rfl

theorem exposureDone_rate (s : State) (k : Nat) (spoiled clamped : Bool) :
    (s.exposureDone k spoiled clamped).proof.rate = s.proof.rate := by
  cases h : s.queue.find k with
  | none => rw [exposureDone_of_none h]
  | some e =>
    rw [exposureDone_of_some h]
    simp only [releaseIfDone_keeps, State.exposureReported]
    split
    · split
      · exact spoilNote_rate _ _ _
      · rfl
    · rfl

theorem abandon_rate (s : State) (fl : Flight) (cover lamp : Bool) : (s.abandon fl cover lamp).proof.rate = s.proof.rate := by
  simp [State.abandon, exposureDone_rate]

theorem exposureEvent_rate (s : State) (cover lamp : Bool) : (s.exposureEvent cover lamp).proof.rate = s.proof.rate := by
  simp only [State.exposureEvent]
  split
  case h_6 | h_7 | h_8 => exact abandon_rate s _ cover lamp
  all_goals rfl

theorem faultLamp_rate (s : State) (why : LampFault) : (s.faultLamp why).proof.rate = s.proof.rate :=
  exposureEvent_rate _ false true

theorem judgeLamp_rate (s : State) : s.judgeLamp.proof.rate = s.proof.rate := by
  simp only [State.judgeLamp]
  split
  · split
    · simp [faultLamp_rate]
    · simp
  · rfl

theorem judgeEconomy_rate (before s : State) : (before.judgeEconomy s).proof.rate = s.proof.rate := by
  simp only [State.judgeEconomy]
  split
  · rfl
  · split
    · exact judgeLamp_rate _
    · rfl
  · rfl

theorem follow_rate (p : Proof) : p.follow.rate = p.rate := by
  simp only [Proof.follow]; split_ifs <;> rfl

theorem gapTaken_rate (p : Proof) : p.gapTaken.rate = p.rate := by
  simp only [Proof.gapTaken]
  (repeat' split) <;> rfl

theorem takeEntry_rate (s : State) (e : Entry) : (s.takeEntry e).proof.rate = s.proof.rate :=
  (follow_rate _).trans (gapTaken_rate _)

theorem sendNext_rate (p : Proof) : p.sendNext.rate = p.rate := by
  obtain hsame | ⟨-, -, -, -, hbegun⟩ := sendNext_cases p
  · rw [hsame]
  · rw [hbegun]

theorem react_rate (ht : s.react = some t) : t.proof.rate = s.proof.rate := by
  simp only [State.react] at ht
  rcases orElse_cases ht with ht | ht
  · simp [reactFree_keeps ht]
  rcases orElse_cases ht with ht | ht
  · simp [reactHeads_keeps ht]
  rcases orElse_cases ht with ht | ht
  · simp [offerWaiting_keeps ht]
  rcases orElse_cases ht with ht | ht
  · simp [chooseTurn_keeps ht]
  rcases orElse_cases ht with ht | ht
  · simp only [State.reactProof] at ht
    split at ht
    · obtain ⟨e, -, rfl⟩ := Option.map_eq_some_iff.1 ht
      exact takeEntry_rate s e
    · cases ht
  rcases orElse_cases ht with ht | ht
  · simp [reactLamp_keeps ht]
  rcases orElse_cases ht with ht | ht
  · simp [reactRun_keeps ht]
  rcases orElse_cases ht with ht | ht
  · simp [reactExchange_keeps ht]
  · simp only [State.reactSend] at ht
    split at ht
    · cases ht
    · cases ht
      exact sendNext_rate _

theorem settle_rate (before s : State) : (settle before s).proof.rate = s.proof.rate := by
  have hreact := reactAll_invariant (s := s) (P := fun u => u.proof.rate = s.proof.rate)
    (fun hr hu => (react_rate hr).trans hu) 100 rfl
  exact (judgeEconomy_rate before _).trans hreact

/-! ### SET PROOF (R191) -/

theorem rateOk_iff (rate : Nat) : rateOk rate = true ↔ rate ∈ [300, 600, 1200, 2400, 4800, 9600] := List.contains_iff_mem

theorem setProof_range {enable rate : Nat} (h : ¬(enable ≤ 1 ∧ rate ∈ [300, 600, 1200, 2400, 4800, 9600])) :
    setProofEffect enable rate s = refuse .range s :=
  if_pos (by rwa [Bool.not_eq_true', Bool.eq_false_iff, ne_eq, Bool.and_eq_true, decide_eq_true_eq, rateOk_iff])

/-- Printing as SET PROOF leaves it. -/
def Proof.set (p : Proof) (enable rate : Nat) : Proof :=
  { p with
    rate := rate
    state := if p.state = .disabled ∧ enable = 1 then .idle else if p.state = .idle ∧ enable = 0 then .disabled else p.state
    disablePending := if p.state = .printing then decide (enable = 0) else p.disablePending }

theorem setProof_done {enable rate : Nat} (he : enable ≤ 1) (hr : rate ∈ [300, 600, 1200, 2400, 4800, 9600]) :
    setProofEffect enable rate s = done { s with proof := s.proof.set enable rate } := by
  have hrange : (!(decide (enable ≤ 1) && rateOk rate)) = false := by
    rw [Bool.not_eq_false', Bool.and_eq_true, decide_eq_true_eq, rateOk_iff]
    exact ⟨he, hr⟩
  obtain rfl | rfl : enable = 0 ∨ enable = 1 := by omega
  all_goals
    simp only [setProofEffect, hrange, State.onProof, Proof.set]
    cases s.proof.state <;> rfl

/-! ### PROOF BYTE SENT (R188) -/

/-- The proof state and the pending disable are all that following the print list changes (R180). -/
theorem follow_eq (p : Proof) : p.follow = { p with state := p.follow.state, disablePending := p.follow.disablePending } := by
  simp only [Proof.follow]
  split_ifs <;> rfl

theorem follow_state_of_empty {p : Proof} (h : p.list = []) : p.follow.state ≠ .printing := by
  simp only [Proof.follow, h]
  cases hst : p.state <;> cases hd : p.disablePending <;> simp [hst]

theorem follow_of_nonempty {p : Proof} (h : p.list ≠ []) : p.follow = { p with state := .printing } := by
  simp [Proof.follow, h]

theorem proofByteSent_none (h : s.proof.transit = .none) : proofByteSentEffect s = s := by
  simp only [proofByteSentEffect, h]

theorem proofByteSent_stale (h : s.proof.transit = .stale) :
    proofByteSentEffect s = { s with proof := { s.proof with transit := .none } } := by
  simp only [proofByteSentEffect, h]
  rfl

theorem proofByteSent_lead (h : s.proof.transit = .counted) (hl : 0 < s.proof.lead) :
    proofByteSentEffect s = { s with proof := { s.proof with transit := .none, lead := s.proof.lead - 1 } } := by
  simp only [proofByteSentEffect, h]
  exact if_pos hl

/-- The state in which a byte of the head line has been counted. -/
def State.byteCounted (s : State) : State := { s with proof := { s.proof with transit := .none, sent := s.proof.sent + 1 } }

theorem proofByteSent_counted {l : PrintLine} {rest : List PrintLine} (h : s.proof.transit = .counted) (h0 : s.proof.lead = 0)
    (hl : s.proof.list = l :: rest) :
    proofByteSentEffect s = if l.bytes.length ≤ s.proof.sent + 1 then s.byteCounted.lineSent else s.byteCounted := by
  simp [proofByteSentEffect, h, h0, hl, State.onProof, State.byteCounted]

/-- Printing as the head line, its last byte sent, leaves it. -/
def State.headSent (s : State) : State := s.byteCounted.onProof Proof.dropHead

theorem headSent_fields (s : State) :
    s.headSent.proof.list = s.proof.list.tail ∧ s.headSent.proof.sent = 0 ∧ s.headSent.proof.begun = false ∧
    s.headSent.proof.transit = .none ∧ s.headSent.proof.linesPrinted = s.proof.linesPrinted ∧
    s.headSent.proof.gapsPrinted = s.proof.gapsPrinted := by
  have hproof : s.headSent.proof = Proof.follow _ := rfl
  rw [hproof, follow_eq, State.byteCounted, List.drop_one]
  exact ⟨rfl, rfl, rfl, rfl, rfl, rfl⟩

theorem headSent_state (hl : s.headSent.proof.list = []) : s.headSent.proof.state ≠ .printing :=
  follow_state_of_empty ((follow_list _).symm.trans hl)

/-- The printed line of an entry has been counted. -/
def State.lineCounted (s : State) : State := s.headSent.onProof fun p => { p with linesPrinted := bump p.linesPrinted }

theorem lineSent_entry {l : PrintLine} {rest : List PrintLine} {serial : Nat} (hl : s.proof.list = l :: rest)
    (hk : l.kind = .entry serial) :
    s.byteCounted.lineSent = s.lineCounted.proofDone serial := by
  have hlist : s.byteCounted.proof.list = l :: rest := hl
  simp only [State.lineSent, hlist, hk]
  rfl

theorem lineSent_other {l : PrintLine} {rest : List PrintLine} (hl : s.proof.list = l :: rest) (hk : l.isEntry = false) :
    s.byteCounted.lineSent = s.headSent.onProof fun p =>
      { p with gapsPrinted := if l.isGap = true then bump p.gapsPrinted else p.gapsPrinted } := by
  have hlist : s.byteCounted.proof.list = l :: rest := hl
  simp only [State.lineSent, hlist]
  cases hkind : l.kind with
  | entry serial => simp [PrintLine.isEntry, hkind] at hk
  | gap n => simp [PrintLine.isGap, hkind, State.headSent]
  | spoil n id => simp [PrintLine.isGap, hkind, State.headSent, State.onProof]

/-- A proof report makes DONE what stays of its serial, where the entry is IN PRINT (R137). -/
theorem proofDone_done {serial : Nat} (h : ∃ e, s.queue.find serial = some e ∧ e.proof = .inPrint) :
    ∀ e ∈ (s.proofDone serial).queue.entries, e.serial = serial → e.proof = .done := by
  obtain ⟨e, hfind, hprint⟩ := h
  rw [proofDone_of_some hfind, if_pos hprint]
  intro x hx hserial
  have hmem : x ∈ (s.queue.modify serial fun e => { e with proof := .done }).entries := releaseIfDone_entries _ _ x hx
  rw [Queue.modify_entries] at hmem
  obtain ⟨x₀, -, rfl⟩ := List.mem_map.1 hmem
  split at hserial
  · next hsame => rw [if_pos hsame]
  · next hother => exact absurd hserial hother

theorem proofDone_other {serial : Nat} (h : ∀ e, s.queue.find serial = some e → e.proof ≠ .inPrint) :
    s.proofDone serial = s := by
  cases hfind : s.queue.find serial with
  | none => exact proofDone_of_none hfind
  | some e => rw [proofDone_of_some hfind, if_neg (h e hfind)]

/-! ### The entry taken for proof (R181) -/

theorem taking_of_enabled {p : Proof} (h : p.state ≠ .disabled) (hd : p.disablePending = false) : p.taking = true := by
  rw [Proof.taking, hd]
  revert h
  cases p.state <;> decide

theorem reactProof_takes {serial : Nat} {e : Entry} (ht : s.proof.taking = true) (hl : ∀ l ∈ s.proof.list, l.isEntry = false)
    (hn : s.proof.named = some serial) (hf : s.queue.find serial = some e) : s.reactProof = some (s.takeEntry e) := by
  have hany : s.proof.list.any PrintLine.isEntry = false := List.any_eq_false.2 fun l hm => by simp [hl l hm]
  simp [State.reactProof, ht, hany, hn, hf]

theorem takeEntry_eq (s : State) (e : Entry) :
    s.takeEntry e = { s with
      proof := { s.proof.gapTaken with state := .printing, list := s.proof.gapTaken.list ++ [s.entryLine e] }
      queue := s.queue.modify e.serial fun e => { e with proof := .inPrint } } := by
  have hfollow := follow_of_nonempty (p := { s.proof.gapTaken with list := s.proof.gapTaken.list ++ [s.entryLine e] }) (by simp)
  simp only [State.takeEntry, State.onProof, State.onQueue, hfollow]

/-- The gap count put on the paper changes the list and the count alone. -/
theorem gapTaken_eq (p : Proof) : p.gapTaken = { p with list := p.gapTaken.list, gapCount := p.gapTaken.gapCount } := by
  simp only [Proof.gapTaken]
  (repeat' split) <;> rfl

theorem gapTaken_of_none {p : Proof} (h : p.gapCount = 0) : p.gapTaken = p := by
  simp [Proof.gapTaken, h]

theorem gapTaken_built {p : Proof} (h : 0 < p.gapCount) (hl : ∀ l ∈ p.list, l.isGap = false) :
    p.gapTaken = { p with list := p.list ++ [gapLine p.gapCount], gapCount := 0 } := by
  have hnone : p.list.find? PrintLine.isGap = none := List.find?_eq_none.2 fun l hm => by simp [hl l hm]
  simp [Proof.gapTaken, hnone, h.ne']

theorem headIsGap_iff (l : List PrintLine) :
    (l.head?.map PrintLine.isGap).getD false = true ↔ ∃ x ∈ l.head?, x.isGap = true := by
  cases l <;> simp

theorem gapTaken_begun {p : Proof} (hb : p.begun = true) (hg : ∃ l ∈ p.list.head?, l.isGap = true) : p.gapTaken = p := by
  obtain ⟨l, hl, hgap⟩ := hg
  cases hfind : p.list.find? PrintLine.isGap with
  | none => exact absurd hgap (List.find?_eq_none.1 hfind l (List.mem_of_mem_head? hl))
  | some g => simp [Proof.gapTaken, hfind, (headIsGap_iff _).2 ⟨l, hl, hgap⟩, hb]

theorem gapTaken_added {p : Proof} {g : PrintLine} {n : Nat} (h : 0 < p.gapCount)
    (hb : ¬(p.begun = true ∧ ∃ l ∈ p.list.head?, l.isGap = true)) (hg : p.list.find? PrintLine.isGap = some g)
    (hk : g.kind = .gap n) :
    p.gapTaken = { p with
      list := p.list.map fun l => if l.isGap then gapLine (min 65535 (n + p.gapCount)) else l, gapCount := 0 } := by
  have hnot : ((p.list.head?.map PrintLine.isGap).getD false && p.begun) = false := by
    rw [Bool.eq_false_iff, ne_eq, Bool.and_eq_true, headIsGap_iff, and_comm]
    exact hb
  simp [Proof.gapTaken, h.ne', hg, hk, hnot, Config.counterTop]

/-! ### The line of an entry (R182 to R185) -/

/-- A pass of the carriage: its characters to the last that is not a space, and the carriage return (R185). -/
def PassOf (l out : List Byte) : Prop :=
  ∃ n, out = l.take n ++ [0x0D#8] ∧ (∀ x ∈ l.drop n, x = 0x20#8) ∧ (l.take n).getLast? ≠ some 0x20#8

theorem passOf_trimRight (l : List Byte) : PassOf l (trimRight l ++ [0x0D#8]) := by
  obtain ⟨n, htrim, hspaces, hlast⟩ := trimRight_spec l
  exact ⟨n, by rw [htrim], hspaces, hlast⟩

/-- The passes of a row: its characters, then those in a bold face, then the underlines (R185). -/
theorem passes_spec (row : List Column) :
    ∃ first second third, passes row = first ++ second ++ third ++ [0x0A#8] ∧ PassOf (row.map Column.char) first ∧
      (if ∃ c ∈ row, c.face = .bold ∨ c.face = .boldUnderline then
        PassOf (row.map fun c => if c.face = .bold ∨ c.face = .boldUnderline then c.char else 0x20#8) second
        else second = []) ∧
      (if ∃ c ∈ row, c.face = .underline ∨ c.face = .boldUnderline then
        PassOf (row.map fun c => if c.face = .underline ∨ c.face = .boldUnderline then 0x5F#8 else 0x20#8) third
        else third = []) := by
  refine ⟨_, _, _, rfl, passOf_trimRight _, ?_, ?_⟩
  all_goals
    simp only [List.any_eq_true, Bool.or_eq_true, beq_iff_eq]
    split
    · exact passOf_trimRight _
    · rfl

theorem flagLetters_eq (flags : List LineFlag) {q : Bool} {P : Prop} [Decidable P] (hq : q = true ↔ P) :
    flagLetters flags q =
      (if .hyphD ∈ flags then ascii "HD" else if .hyphX ∈ flags then ascii "HX"
        else if .hyphA ∈ flags then ascii "HA" else []) ++
      (if .loose ∈ flags ∨ .letterspaced ∈ flags then ascii "L" else []) ++
      (if .short ∈ flags ∨ .forced ∈ flags then ascii "S" else []) ++
      (if .overset ∈ flags then ascii "O" else []) ++ (if .missing ∈ flags ∨ P then ascii "M" else []) := by
  simp [flagLetters, hq]

/-- The margin of a proof line: the line number, the asterisk of a spoiled line and the flag letters (R182). -/
theorem margin_eq (number : Nat) (flags : List LineFlag) (letters : List Byte) :
    rightAligned 5 (decimal number) ++ (if flags.contains .spoiled then ascii "*" else ascii " ") ++ leftAligned 5 letters ++
      [spaceByte] =
    List.replicate (5 - (decimal number).length) 0x20#8 ++ decimal number ++
      [if .spoiled ∈ flags then 0x2A#8 else 0x20#8] ++ letters ++ List.replicate (5 - letters.length) 0x20#8 ++ [0x20#8] := by
  by_cases h : LineFlag.spoiled ∈ flags <;> simp [rightAligned, leftAligned, spaceByte, ascii, h]

/-- The glyphs of a line that stand in its proof, each with the column it takes (R183). -/
def State.placedGlyphs (s : State) (b : LineBody) : List (Nat × Column) :=
  columnsTaken b.measure (s.proofGlyphs b.runs b.glyphs) []

/-- The record of the font of a glyph's run. -/
def State.glyphFont (s : State) (b : LineBody) (k : Nat) : Option FontRecord :=
  (b.runs.flatMap fun r => List.replicate r.count r.font)[k]?.bind s.font

/-- The columns that the glyphs of a line take. -/
def State.takenColumns (s : State) (b : LineBody) : List Nat := (s.placedGlyphs b).map Prod.fst

/-- The row of text columns, with '>' in the last one where the line is cut (R183). -/
def State.textRow (s : State) (b : LineBody) : List Column :=
  textColumns (if (s.takenColumns b).length < b.glyphs.length then
    (119, { char := 0x3E#8, face := .plain }) :: (s.placedGlyphs b).filter (fun p => p.1 != 119) else s.placedGlyphs b)

/-- The character of a glyph of the line in print, none where it is substituted (R184). -/
def State.printedGlyph (s : State) (b : LineBody) (k : Nat) : Option Byte := (s.proofGlyphs b.runs b.glyphs)[k]?.bind printedCode

section
variable {b : LineBody} {k c : Nat}

theorem proofGlyphs_length (h : (b.runs.map Run.count).sum = b.glyphs.length) :
    (s.proofGlyphs b.runs b.glyphs).length = b.glyphs.length := by
  have hnone := (proofGlyphs_spec s b.runs b.glyphs h b.glyphs.length).2
  have hlast := (proofGlyphs_spec s b.runs b.glyphs h ((s.proofGlyphs b.runs b.glyphs).length)).2
  simp only [List.getElem?_eq_none (le_refl _), Option.map_none, List.getElem?_eq_none_iff] at hnone
  simp only [List.getElem?_eq_none (le_refl _)] at hlast
  have hge := List.getElem?_eq_none_iff.1 (Option.map_eq_none_iff.1 hlast.symm)
  omega

/-- A glyph is printed by its code, or by the proof map of its run's font (R184). -/
theorem printed_eq (h : (b.runs.map Run.count).sum = b.glyphs.length) (k : Nat) :
    s.printedGlyph b k = b.glyphs[k]?.bind fun g =>
      if g.1.toNat ≤ 0x7E then some g.1
      else (((s.glyphFont b k).bind FontRecord.map).bind fun m => m.find? fun x => x.1 == g.1).map Prod.snd := by
  rw [State.printedGlyph, (proofGlyphs_spec s b.runs b.glyphs h k).2, Option.bind_map]
  rfl

/-- A placed glyph is printed as '?' (R184). -/
def State.substituted (s : State) (b : LineBody) : Bool :=
  ((s.proofGlyphs b.runs b.glyphs).take (s.takenColumns b).length).any fun g => (printedCode g).isNone

/-- The row of a proof line: the margin and the text columns (R182, R183). -/
def State.proofRow (s : State) (b : LineBody) : List Column :=
  plainColumns (rightAligned 5 (decimal b.lineNumber) ++ (if b.flags.contains .spoiled then ascii "*" else ascii " ") ++
    leftAligned 5 (flagLetters b.flags (s.substituted b)) ++ [spaceByte]) ++ s.textRow b

theorem proofLine_eq (s : State) (h : (b.runs.map Run.count).sum = b.glyphs.length) :
    s.proofLine b = passes (s.proofRow b) := by
  simp only [State.proofLine, placeGlyphs_eq, List.nil_append, proofGlyphs_length h, State.proofRow, State.substituted,
    State.textRow, State.takenColumns, State.placedGlyphs, List.length_map, Bool.false_or]

/-- A placed glyph that is printed as '?' shows as the letter M, also where the '>' takes its column (log entry 36). -/
theorem substituted_iff (s : State) (b : LineBody) :
    s.substituted b = true ↔ ∃ k ∈ List.range (s.takenColumns b).length, s.printedGlyph b k = none := by
  obtain ⟨hlen, -⟩ := columnsTaken_spec b.measure (s.proofGlyphs b.runs b.glyphs) [] (by simp)
  have hle : (s.takenColumns b).length ≤ (s.proofGlyphs b.runs b.glyphs).length := by
    simpa [State.takenColumns, State.placedGlyphs] using hlen
  simp only [State.substituted, List.any_eq_true, List.mem_range, State.printedGlyph, Option.isNone_iff_eq_none]
  constructor
  · rintro ⟨g, hg, hnone⟩
    obtain ⟨k, hk, rfl⟩ := List.mem_take_iff_getElem.1 hg
    have hlt := lt_min_iff.1 hk
    exact ⟨k, hlt.1, by rw [List.getElem?_eq_getElem hlt.2]; exact hnone⟩
  · rintro ⟨k, hk, hnone⟩
    rw [List.getElem?_eq_getElem (hk.trans_le hle)] at hnone
    exact ⟨_, List.mem_take_iff_getElem.2 ⟨k, lt_min hk (hk.trans_le hle), rfl⟩, hnone⟩

/-- The glyph placed in a column, and the glyph of the line that it shows. -/
theorem placedGlyphs_getElem (h : (b.runs.map Run.count).sum = b.glyphs.length) {x : Nat × Column}
    (hx : (s.placedGlyphs b)[k]? = some x) :
    ∃ g, b.glyphs[k]? = some g ∧ g.2 < b.measure ∧ g.2 * 120 / b.measure ≤ x.1 ∧ x.1 ≤ 119 ∧
      (∀ c, g.2 * 120 / b.measure ≤ c → c < x.1 → c ∈ (s.takenColumns b).take k) ∧
      x.2 = { char := (s.printedGlyph b k).getD 0x3F#8, face := ((s.glyphFont b k).map FontRecord.face).getD .plain } := by
  obtain ⟨-, -, hplaced, -⟩ := columnsTaken_spec b.measure (s.proofGlyphs b.runs b.glyphs) [] (by simp)
  obtain ⟨pg, hpg, hmeasure, hfrom, hto, hfull, hcolumn⟩ := hplaced k x hx
  have hchar : s.printedGlyph b k = printedCode pg := by rw [State.printedGlyph, hpg]; rfl
  have hglyph := (proofGlyphs_spec s b.runs b.glyphs h k).2
  rw [hpg] at hglyph
  obtain ⟨g, hg, rfl⟩ := Option.map_eq_some_iff.1 hglyph.symm
  refine ⟨g, hg, hmeasure, hfrom, hto, fun c hc hcx => ?_, by rw [hcolumn, hchar]; rfl⟩
  rw [State.takenColumns, ← List.map_take]
  exact hfull c hc hcx

/-- The columns of a line's glyphs, each the first free one from that of its position (R183). -/
theorem takenColumns_spec (h : (b.runs.map Run.count).sum = b.glyphs.length) :
    (s.takenColumns b).length ≤ b.glyphs.length ∧ (s.takenColumns b).Nodup ∧
    (∀ k c, (s.takenColumns b)[k]? = some c → ∃ g, b.glyphs[k]? = some g ∧
      g.2 < b.measure ∧ g.2 * 120 / b.measure ≤ c ∧ c ≤ 119 ∧
        ∀ c', g.2 * 120 / b.measure ≤ c' → c' < c → c' ∈ (s.takenColumns b).take k) ∧
    ∀ g, b.glyphs[(s.takenColumns b).length]? = some g →
      b.measure ≤ g.2 ∨ ∀ c', g.2 * 120 / b.measure ≤ c' → c' ≤ 119 → c' ∈ s.takenColumns b := by
  obtain ⟨hlen, hnodup, -, hcut⟩ := columnsTaken_spec b.measure (s.proofGlyphs b.runs b.glyphs) [] (by simp)
  have hcount : (s.takenColumns b).length = (s.placedGlyphs b).length := List.length_map _
  refine ⟨hcount.trans_le (hlen.trans_eq (proofGlyphs_length h)), hnodup, fun k c hc => ?_, fun g hg => ?_⟩
  · rw [State.takenColumns, List.getElem?_map] at hc
    obtain ⟨x, hx, rfl⟩ := Option.map_eq_some_iff.1 hc
    obtain ⟨g, hg, hmeasure, hfrom, hto, hfull, -⟩ := placedGlyphs_getElem h hx
    exact ⟨g, hg, hmeasure, hfrom, hto, hfull⟩
  · have hpg := (proofGlyphs_spec s b.runs b.glyphs h (s.takenColumns b).length).2
    rw [hg, hcount] at hpg
    exact hcut _ hpg

/-- The row of text columns: the '>' of a cut line, a printed glyph in each column taken, blanks elsewhere (R183, R184). -/
theorem textRow_spec (h : (b.runs.map Run.count).sum = b.glyphs.length) :
    (s.textRow b).length = 120 ∧
    ((s.takenColumns b).length < b.glyphs.length → (s.textRow b)[119]? = some { char := 0x3E#8, face := .plain }) ∧
    (∀ k c, (s.takenColumns b)[k]? = some c → ¬((s.takenColumns b).length < b.glyphs.length ∧ c = 119) →
      (s.textRow b)[c]? = some
        { char := (s.printedGlyph b k).getD 0x3F#8, face := ((s.glyphFont b k).map FontRecord.face).getD .plain }) ∧
    ∀ c, c < 120 → c ∉ s.takenColumns b → ¬((s.takenColumns b).length < b.glyphs.length ∧ c = 119) →
      (s.textRow b)[c]? = some { char := 0x20#8, face := .plain } := by
  obtain ⟨-, hnodup, -, -⟩ := takenColumns_spec (s := s) h
  obtain ⟨hlength, hmark, htaken, hblank⟩ :=
    textColumns_spec (s.placedGlyphs b) (decide ((s.takenColumns b).length < b.glyphs.length)) hnodup
  simp only [decide_eq_true_eq] at hlength hmark htaken hblank
  refine ⟨hlength, hmark, fun k c hc hfree => ?_, hblank⟩
  rw [State.takenColumns, List.getElem?_map] at hc
  obtain ⟨x, hx, rfl⟩ := Option.map_eq_some_iff.1 hc
  obtain ⟨-, -, -, -, hto, -, hcolumn⟩ := placedGlyphs_getElem h hx
  rw [← hcolumn]
  exact htaken x (List.mem_of_getElem? hx) hto hfree

end

end

/-- Settles O49: SET PROOF's fields, the count of a byte and the end of a line, the line of an entry column by column, and the
gap line on the paper as the entry is taken. -/
theorem setProofAndProofByteSent : Obligations.SetProofAndProofByteSent := by
  unfold Obligations.SetProofAndProofByteSent
  intro s
  have hexec : exec .proofByteSent s = .next (settle s (proofByteSentEffect s)) := rfl
  rw [hexec]
  refine ⟨?_, fun h => ?_, fun h => ?_, fun h hl => ?_, fun l rest h h0 hl => ⟨fun hmore => ?_, fun serial hlast hk => ?_,
    fun hlast hk => ?_⟩, fun n hn => decimal_spec n hn, fun star text hne hlast => noteLine_spec star text hne hlast, ?_, ?_⟩
  · intro tag enable rate ha i rc
    refine ⟨fun h => exec_settledReply_refused ha rfl rfl (by decide) (setProof_range h), fun he hr => ?_⟩
    exact ⟨exec_settledReply_done (f := fun _ t => t.proof.settingBytes) ha rfl rfl (setProof_done he hr) rfl, settle_rate _ _⟩
  · rw [proofByteSent_none h]
  · rw [proofByteSent_stale h]
  · rw [proofByteSent_lead h hl]
  · rw [proofByteSent_counted h h0 hl, if_neg (by omega)]
    rfl
  · rw [proofByteSent_counted h h0 hl, if_pos hlast, lineSent_entry hl hk]
    obtain ⟨hlist, hsent, hbegun, htransit, hlines, -⟩ := headSent_fields s
    rw [hl, List.tail_cons] at hlist
    refine ⟨_, rfl, ?_⟩
    simp only [proofDone_keeps]
    refine ⟨hlist, hsent, hbegun, htransit, (congrArg bump hlines).trans (bump_eq _),
      fun hrest => headSent_state (hlist.trans hrest), proofDone_done (s := s.lineCounted), fun hother => ?_, rfl, rfl⟩
    rw [proofDone_other (s := s.lineCounted) hother]
    rfl
  · rw [proofByteSent_counted h h0 hl, if_pos hlast, lineSent_other hl hk]
    obtain ⟨hlist, hsent, hbegun, htransit, hlines, hgaps⟩ := headSent_fields s
    rw [hl, List.tail_cons] at hlist
    refine ⟨_, rfl, rfl, hlist, hsent, hbegun, htransit, hlines, ?_⟩
    simp only [State.onProof_proof, hgaps, bump_eq, ite_and]
  · intro b hb fonts record face printed pass bold under
    have hprinted : ∀ k, printed k = s.printedGlyph b k := fun k => (printed_eq hb k).symm
    obtain ⟨hle, hnodup, hcolumns, hcut⟩ := takenColumns_spec (s := s) hb
    obtain ⟨hlength, hmark, htext, hblank⟩ := textRow_spec (s := s) hb
    obtain ⟨first, second, third, hpasses, hfirst, hsecond, hthird⟩ := passes_spec (s.proofRow b)
    refine ⟨s.takenColumns b, s.textRow b, first, second, third, ?_⟩
    intro column isCut unknown letters margin row
    have hunknown : s.substituted b = true ↔ unknown := by simpa only [unknown, hprinted] using substituted_iff s b
    have hrow : s.proofRow b = row := by
      rw [State.proofRow, flagLetters_eq b.flags hunknown, margin_eq]
      rfl
    rw [hrow] at hpasses hfirst hsecond hthird
    refine ⟨hle, hnodup, hcolumns, hcut, hlength, hmark, fun k c hk hc => ?_, hblank, ?_, hfirst, hsecond, hthird⟩
    · rw [hprinted]
      exact htext k c hk hc
    · rw [proofLine_eq s hb, hrow, hpasses]
  · intro serial e hst hdis hno hnamed hfind gapText begun line
    obtain ⟨-, hserial⟩ := mem_of_queue_find hfind
    have hline : s.entryLine e = line := rfl
    refine ⟨s.takeEntry e, reactProof_takes (taking_of_enabled hst hdis) hno hnamed hfind, ?_⟩
    rw [takeEntry_eq, hline]
    refine ⟨rfl, ?_, ?_, fun h0 => ?_, fun hpos hgap => ?_, fun hpos hb => ?_, fun g n hpos hb hg hk => ?_⟩
    · simp [Queue.modify, hserial]
    · dsimp only
      rw [gapTaken_eq]
    · rw [gapTaken_of_none h0]
      exact ⟨rfl, h0⟩
    · rw [gapTaken_built hpos hgap]
      exact ⟨by simp [gapLine, gapText], rfl⟩
    · rw [gapTaken_begun hb.1 hb.2]
      exact ⟨rfl, rfl⟩
    · rw [gapTaken_added hpos hb hg hk]
      exact ⟨rfl, rfl⟩

end Sys2Proof.Machine
end
